-- ==== Sys2Proof/Word.lean ====
section
/-! DEFINITION. The word types of the links: a character, a 16-bit field, a label (spec 01, section 1.7). -/

namespace Sys2Proof

/-- One character of the host link or one byte of a field frame. -/
abbrev Byte := BitVec 8

/-- A 16-bit field, sent high byte first. -/
abbrev Half := BitVec 16

/-- A label: the 8 bytes of Table 1-7's label form, the first character in the highest byte.
The part compares labels whole and never computes with them. -/
abbrev Label := BitVec 64

end Sys2Proof
end

