-- ==== Sys2Proof/Syntax.lean ====
section
/-! DEFINITION. Syntax: the commands, one constructor for each row of spec/opcode_table.json. -/

namespace Sys2Proof

/-- The commands the part takes. A request row carries the host's tag and the operands of Table 1-3:
it is the arrival of that request as one complete, well-formed frame (DEDUCED, log 1). A timer row
names the timer by its owner. -/
inductive Instr where
  /-- R2: a frame with a good CRC is complete; its body. -/
  | hostFrameReceived (body : List Byte)
  | frameTimerExpiry
  | frameSent
  | unknownRequest (tag code : Byte) (operands : List Byte)
  | status (tag filler : Byte)
  | setNoticeMask (tag mask : Byte)
  | restart (tag filler : Byte)
  | getParam (tag number : Byte)
  | setParam (tag number : Byte) (value : Half)
  | getZone (tag zone : Byte)
  | setZone (tag zone present : Byte)
      (base limit setpoint deadband rhLow rhHigh tempLow tempHigh : Half)
  | saveSettings (tag filler : Byte)
  | loadDefaults (tag filler : Byte)
  | getNode (tag index : Byte)
  | bindNode (tag index physicalId kind zone : Byte) (base limit : Half)
  | unbindNode (tag index : Byte)
  | forward (tag index command : Byte) (data : List Byte)
  | restoreLinkRate (tag filler : Byte)
  | ackFire (tag zone : Byte)
  | fireReset (tag zone : Byte)
  | setArmed (tag zone armed : Byte)
  | setDrill (tag zone start : Byte)
  | getRack (tag filler : Byte)
  | getHatch (tag filler : Byte)
  | hatchDryOverride (tag filler : Byte)
  | enrolCartridge (tag : Byte) (label : Label) (home : Half)
  | retireCartridge (tag : Byte) (label : Label)
  | getCartridge (tag : Byte) (label : Label)
  | listCartridges (tag : Byte) (start : Half) (filter : Byte)
  | unblockCartridge (tag : Byte) (label : Label)
  | checkout (tag orderTag : Byte) (courier deadline : Half) (count : Byte) (labels : List Label)
  | cancelOrder (tag orderTag : Byte)
  | getOrder (tag orderTag : Byte)
  | enrolCourier (tag : Byte) (courier : Half) (code : BitVec 24)
  | revokeCourier (tag : Byte) (courier : Half)
  | reinstateCourier (tag : Byte) (courier : Half)
  | getCourier (tag : Byte) (courier : Half)
  | getHandover (tag context : Byte)
  | acceptHandover (tag context : Byte)
  | disputeHandover (tag context : Byte)
  | abortHandover (tag context : Byte)
  | pollSent
  /-- R31: a complete report has arrived; its bytes of Table 1-9, CRC included. -/
  | fieldReportReceived (report : List Byte)
  | replyWindowExpiry
  | rateBroadcastSent
  | deadlineExpiry (slot : Fin 16)
  | probeAgeTimerExpiry (node : Fin 32)
  | graceTimerExpiry (zone : Fin 8)
  | minuteTimerExpiry (zone : Fin 8)
  | dwellCompletion (position : Fin 12)
  | carryWindowExpiry (record : Fin 2048)
  | alertTimerExpiry (zone : Fin 8)
  | countdownTimerExpiry (zone : Fin 8)
  | ackTimerExpiry (zone : Fin 8)
  | purgeMinimumTimerExpiry
  | purgeMaximumTimerExpiry
  | retryDelayExpiry
  | wetDwellExpiry
  | hatchWaitLimitExpiry (context : Fin 2)
  | loadingLimitExpiry (context : Fin 2)
  | collectingLimitExpiry (context : Fin 2)
  | releaseWaitLimitExpiry (context : Fin 2)
  | recallLimitExpiry (context : Fin 2)
  /-- R175: power is applied; the level of the HRATE strap at that time (high is true; log 3). -/
  | powerOn (hrate : Bool)
  /-- R175, R171: power is lost; how many of the last event's image writes were not yet made (log 10). -/
  | powerLoss (unmade : Nat)
  | resetLineAssert
  | resetLineRelease
  /-- R1: one character on HRXD, and whether its stop bit was seen. -/
  | hostCharacterReceived (character : Byte) (stopBit : Bool)
  deriving DecidableEq, Repr

end Sys2Proof
end

