-- ==== Sys2Proof/Decode.lean ====
section
/-! DEFINITION. Decode: the commands that a word of bits spells. No row of spec/opcode_table.json gives
bits ("fields": [] and no "fixed" in all 68), so no word spells a command. The byte layouts of requests
and reports (01, section 1.7) are read in Machine/Operands.lean. -/

namespace Sys2Proof

/-- The command that an nbits-bit word spells: none, as no row of the table gives bits. -/
def decodeTableWord (_nbits _w : Nat) : Option Instr := none

end Sys2Proof
end

