-- ==== Sys2Proof/Config.lean ====
section
/-! DEFINITION. Config: the capacities of Table 0-3 and the one free value. -/

namespace Sys2Proof.Config

/-- FREE VALUE (log 7). Whether the n-th write of the retained store fails its read-back comparison
(R171, R172). The spec says what follows from either answer and not which answer comes, so this
constant has no body and no proof can see it. -/
opaque writeFails : Nat → Bool

/-- Record places (Table 0-3). -/
def recordPlaces : Nat := 2048
/-- Order slots (Table 0-3). -/
def orderSlots : Nat := 16
/-- Courier roster entries (Table 0-3). -/
def rosterEntries : Nat := 64
/-- Handover contexts (Table 0-3). -/
def handoverContexts : Nat := 2
/-- Labels of the contents list, and of a manifest with its rejected list (Table 0-3). -/
def hatchCapacity : Nat := 24
/-- Node table entries (Table 0-3). -/
def nodeEntries : Nat := 32
/-- Refusal places of the reply queue (R2). -/
def refusalPlaces : Nat := 4
/-- The frame timer's length in ms (R1). -/
def frameTime : Nat := 50
/-- A probe's age timer in ms (chapter 6, section 6.1). -/
def probeAge : Nat := 60000
/-- The longest dwell in minutes (R99). -/
def longestDwell : Nat := 960
/-- The part revision reported by STATUS (Table 0-3). -/
def revision : Nat := 0x12

end Sys2Proof.Config
end

