-- ==== Sys2Proof/Machine/Params.lean ====
section
/-! DEFINITION. The settings parameters: their numbers (Table 1-4), ranges and defaults (Table 0-4). -/

namespace Sys2Proof.Machine

/-- The parameters of Table 1-4, in the order of their numbers. -/
inductive Param where
  | replyWindow | qualityWindow | errorThreshold | rackZone | hatchZone
  | agreementWindow | agreementTolerance | disagreementCount | graceTime
  | exposureLimit | dwellBase | dwellSlope | dwellFallback | carryWindow
  | alertTime | ackTime | countdownTime | minPurge
  | maxPurge | purgeMargin | retryDelay | wetDwell | hatchWait
  | loadingLimit | collectingLimit | releaseWait | recallLimit
  deriving DecidableEq, Repr

/-- All parameters in the order of their numbers. -/
def Param.all : List Param :=
  [.replyWindow, .qualityWindow, .errorThreshold, .rackZone, .hatchZone,
   .agreementWindow, .agreementTolerance, .disagreementCount, .graceTime,
   .exposureLimit, .dwellBase, .dwellSlope, .dwellFallback, .carryWindow] ++
  [.alertTime, .ackTime, .countdownTime, .minPurge,
   .maxPurge, .purgeMargin, .retryDelay, .wetDwell, .hatchWait,
   .loadingLimit, .collectingLimit, .releaseWait, .recallLimit]

/-- The place of a parameter in the settings: its number of Table 1-4 less one. -/
def Param.index : Param → Fin 27
  | .replyWindow => 0 | .qualityWindow => 1 | .errorThreshold => 2 | .rackZone => 3 | .hatchZone => 4
  | .agreementWindow => 5 | .agreementTolerance => 6 | .disagreementCount => 7 | .graceTime => 8
  | .exposureLimit => 9 | .dwellBase => 10 | .dwellSlope => 11 | .dwellFallback => 12
  | .carryWindow => 13 | .alertTime => 14 | .ackTime => 15 | .countdownTime => 16 | .minPurge => 17
  | .maxPurge => 18 | .purgeMargin => 19 | .retryDelay => 20 | .wetDwell => 21 | .hatchWait => 22
  | .loadingLimit => 23 | .collectingLimit => 24 | .releaseWait => 25 | .recallLimit => 26

/-- The parameter of a number of Table 1-4. -/
def Param.ofNumber (n : Nat) : Option Param := if n = 0 then none else Param.all[n - 1]?

/-- The lowest and highest value of Table 0-4, in the parameter's unit (percentages in tenths of a
percent). The probe-disagreement count's upper end is the window length, which R12's third check
compares; here it is the longest window. -/
def Param.range : Param → Nat × Nat
  | .replyWindow => (2, 254)
  | .qualityWindow => (100, 60000)
  | .errorThreshold => (1, 1000)
  | .rackZone => (0, 7)
  | .hatchZone => (0, 7)
  | .agreementWindow => (10, 250)
  | .agreementTolerance => (5, 200)
  | .disagreementCount => (1, 250)
  | .graceTime => (0, 60)
  | .exposureLimit => (1, 1440)
  | .dwellBase => (0, 480)
  | .dwellSlope => (0, 20)
  | .dwellFallback => (0, 960)
  | .carryWindow => (1, 60)
  | .alertTime => (10, 600)
  | .ackTime => (5, 300)
  | .countdownTime => (10, 120)
  | .minPurge => (10, 600)
  | .maxPurge => (30, 1800)
  | .purgeMargin => (5, 100)
  | .retryDelay => (10, 600)
  | .wetDwell => (1, 120)
  | .hatchWait => (1, 120)
  | .loadingLimit => (1, 30)
  | .collectingLimit => (1, 30)
  | .releaseWait => (10, 600)
  | .recallLimit => (1, 30)

/-- The default of Table 0-4. -/
def Param.default : Param → Nat
  | .replyWindow => 20
  | .qualityWindow => 1000
  | .errorThreshold => 20
  | .rackZone => 0
  | .hatchZone => 0
  | .agreementWindow => 60
  | .agreementTolerance => 40
  | .disagreementCount => 20
  | .graceTime => 10
  | .exposureLimit => 60
  | .dwellBase => 60
  | .dwellSlope => 3
  | .dwellFallback => 480
  | .carryWindow => 15
  | .alertTime => 120
  | .ackTime => 30
  | .countdownTime => 30
  | .minPurge => 60
  | .maxPurge => 300
  | .purgeMargin => 20
  | .retryDelay => 60
  | .wetDwell => 20
  | .hatchWait => 30
  | .loadingLimit => 10
  | .collectingLimit => 5
  | .releaseWait => 120
  | .recallLimit => 10

/-- The values of the 27 parameters, by `Param.index`. -/
abbrev Params := Vector Nat 27

/-- The value of a parameter. -/
def Params.value (ps : Params) (p : Param) : Nat := ps[p.index]

/-- The parameters with one value changed. -/
def Params.change (ps : Params) (p : Param) (v : Nat) : Params := ps.set p.index v

/-- Every parameter at its default. -/
def Params.defaults : Params :=
  #v[20, 1000, 20, 0, 0, 60, 40, 20, 10, 60, 60, 3, 480, 15,
     120, 30, 30, 60, 300, 20, 60, 20, 30, 10, 5, 120, 10]

/-- A value lies in the range of Table 0-4; the node reply window is even (R12, check 2). -/
def Param.valueOk (p : Param) (v : Nat) : Bool :=
  decide (p.range.1 ≤ v) && decide (v ≤ p.range.2) && (p != .replyWindow || v % 2 == 0)

end Sys2Proof.Machine
end

