-- ==== Sys2Proof/Machine/Table.lean ====
section
/-! DEFINITION. Tables: a table of numbered places kept as a list of (place, entry) pairs with rising
place numbers; a place that is not listed is free. Used for record places, order slots, the roster,
the node table, context slots, retained images and the pending notice set. -/

namespace Sys2Proof.Machine

/-- A table of numbered places, most of them free. -/
abbrev Table (α : Type) := List (Nat × α)

namespace Table

variable {α : Type}

/-- The entry at a place. -/
def get? : Table α → Nat → Option α
  | [], _ => none
  | (k, v) :: t, n => if k = n then some v else get? t n

/-- The table with an entry put at a place, in its rising order. -/
def put : Table α → Nat → α → Table α
  | [], n, a => [(n, a)]
  | (k, v) :: t, n, a =>
    if n < k then (n, a) :: (k, v) :: t
    else if n = k then (n, a) :: t
    else (k, v) :: put t n a

/-- The table with a place freed. -/
def erase : Table α → Nat → Table α
  | [], _ => []
  | (k, v) :: t, n => if k = n then erase t n else (k, v) :: erase t n

/-- The table with a place set to an entry or freed. -/
def set (t : Table α) (n : Nat) : Option α → Table α
  | some a => put t n a
  | none => erase t n

/-- The lowest place at or above n that is free, for a table in rising order. -/
def lowestFreeFrom : Table α → Nat → Nat
  | [], n => n
  | (k, _) :: t, n => if k = n then lowestFreeFrom t (n + 1) else if k < n then lowestFreeFrom t n else n

/-- The lowest free place. -/
def lowestFree (t : Table α) : Nat := lowestFreeFrom t 0

/-- The occupied places. -/
def places (t : Table α) : List Nat := t.map (·.1)

/-- Places strictly rising from at least lo and all below hi. -/
def sorted : Table α → Nat → Nat → Bool
  | [], _, _ => true
  | (k, _) :: t, lo, hi => decide (lo ≤ k) && decide (k < hi) && sorted t (k + 1) hi

/-- The canonical form: places strictly rising and below the table's capacity. -/
def wf (t : Table α) (capacity : Nat) : Bool := sorted t 0 capacity

end Table

end Sys2Proof.Machine
end

