-- ==== Sys2Proof/Machine/State.lean ====
section
/-! DEFINITION. State: everything the spec gives the part, block by block (Table 0-1), as plain data.
Timers are `Option Nat`: none while stopped, else the milliseconds left. -/

namespace Sys2Proof.Machine

/-! ## Enumerations of Table 1-7 -/

/-- Reply statuses (R6). -/
inductive Status where
  | ok | accepted | badTag | unknownRequest | badOperand | linkBusy | firePreempted
  | fireUnacknowledged | starting | notFound | duplicate | tableFull | wrongState | inUse | conflict
  | protectedCommand | nodeOffline | nodeTimeout | storeFault
  deriving DecidableEq, Repr

inductive Condition where | starting | running
  deriving DecidableEq, Repr

/-- Restart causes (R175). -/
inductive Cause where | powerOn | resetLine | restartRequest
  deriving DecidableEq, Repr

inductive Direction where | outbound | returning
  deriving DecidableEq, Repr

/-- Block reasons (section 4.2). -/
inductive Reason where
  | fire | misplaced | unauthorisedMove | missing | skippedConditioning | custodyConflict
  | handoverUnresolved | powerLoss
  deriving DecidableEq, Repr

/-- The eleven custody states (section 4.2). A direction belongs to CONDITIONING and READY and a reason
to BLOCKED, so a change that leaves these states drops them (R50). -/
inductive CState where
  | shelved | reserved | picked
  | conditioning (d : Direction)
  | ready (d : Direction)
  | staged | out | inbound | received | loose
  | blocked (r : Reason)
  deriving DecidableEq, Repr

/-- Where a cartridge was last known to be (section 4.2). -/
inductive Location where
  | slot (n : Nat) | rack (p : Fin 12) | hatch | inHand | courier (id : Nat) | unknown
  deriving DecidableEq, Repr

inductive FireState where
  | normal | alert | confirmed | countdown | paused | releasing | discharged
  deriving DecidableEq, Repr

inductive Head where | clear | alarm | fault
  deriving DecidableEq, Repr

inductive Hold where | released | held
  deriving DecidableEq, Repr

/-- The valve as the Fire Controller holds it (R111). -/
inductive Valve where | notReported | closed | discharged
  deriving DecidableEq, Repr

inductive Control where | unknown | holding | drying | wetting | suspended
  deriving DecidableEq, Repr

inductive Excursion where | inLimits | outGrace | excursion | exposing
  deriving DecidableEq, Repr

inductive NodeKind where | probe | fire | air | shelf | rack | hatch | terminal
  deriving DecidableEq, Repr

/-- Node health; `unbound` is what an entry without a binding reports (R25). -/
inductive Health where | unbound | online | suspect | offline | mismatch
  deriving DecidableEq, Repr

inductive Air where | dry | wet
  deriving DecidableEq, Repr

inductive Door where | closed | opened
  deriving DecidableEq, Repr

inductive Lock where | locked | unlocked
  deriving DecidableEq, Repr

inductive AirMode where | stop | hold | dry | wet
  deriving DecidableEq, Repr

inductive PurgeCmd where | stop | run
  deriving DecidableEq, Repr

inductive CourierState where | active | locked | revoked
  deriving DecidableEq, Repr

/-- Handover phases (R152); `ended` is END. -/
inductive Phase where
  | waitHatch | loading | collecting | awaitRelease | recall | waitDry | unloading | loadingIn
  | recallReturn | ended
  deriving DecidableEq, Repr

/-- Handover outcomes (R152). -/
inductive HOutcome where
  | accepted | disputed | cancelled | nothingLoaded | timedOut | fireAbort | hostAbort
  deriving DecidableEq, Repr

/-- Order outcomes (R69). -/
inductive OOutcome where | done | cancelled | expired | failedFire | failedBlocked
  deriving DecidableEq, Repr

inductive RackEvent where
  | inserted | removed | started | paused | resumed | completed | interrupted | carryExpired
  deriving DecidableEq, Repr

inductive HatchEvent where | wentWet | purgeStarted | wentDry | purgeFailed | wetDwell | override
  deriving DecidableEq, Repr

inductive RateEvent where | stepDown | restored
  deriving DecidableEq, Repr

/-- Terminal prompts (Table 10-1), in order. -/
inductive Prompt where
  | service | unknown | wrongCode | locked | revoked | alreadyActive | busy | nothingReady
  | nothingDue | wait | loading | collect | placeItems | closeDoor | removeItems | hold | returnItems
  | takeBack | done | closed
  deriving DecidableEq, Repr

/-! ## Settings (chapters 0, 1 and 2) -/

/-- A slot window: base to limit inclusive (section 2.1). -/
structure Window where
  base : Nat
  limit : Nat
  deriving DecidableEq, Repr

/-- The six climate settings of a zone, in tenths of a percent or of a degree (R17). -/
structure ClimateSettings where
  setpoint : Nat
  deadband : Nat
  rhLow : Nat
  rhHigh : Nat
  tempLow : Int
  tempHigh : Int
  deriving DecidableEq, Repr

/-- A zone table entry (R17). -/
structure ZoneSettings where
  window : Option Window
  climate : ClimateSettings
  armed : Bool
  deriving DecidableEq, Repr

/-- What a node is bound as: its kind with the zone or slot range that kind has (Table 2-1). Zone 8 of
a PROBE is ROOM. -/
inductive Target where
  | probe (zone : Fin 9)
  | fire (zone : Fin 8)
  | air (zone : Fin 8)
  | shelf (base limit : Nat)
  | rack | hatch | terminal
  deriving DecidableEq, Repr

/-- The settings fields of a bound node table entry (Table 2-1). -/
structure Binding where
  physicalId : Nat
  target : Target
  deriving DecidableEq, Repr

/-- The working settings but for the bindings, which stand in the node table. -/
structure Settings where
  params : Params
  zones : Vector ZoneSettings 8
  deriving DecidableEq, Repr

/-- The contents of the settings image (R171). -/
structure SettingsData where
  params : Params
  zones : Vector ZoneSettings 8
  bindings : Table Binding
  deriving DecidableEq, Repr

/-! ## Custody records and orders (chapters 4 and 5) -/

/-- A carry window: the carry deadline of R50 and the origin of R105. -/
structure Carry where
  left : Nat
  origin : Option (Fin 12)
  deriving DecidableEq, Repr

/-- A cartridge record (R50). -/
structure Record where
  label : Label
  home : Nat
  state : CState
  location : Location
  custodian : Option Nat
  exposed : Bool
  orderSlot : Option Nat
  carry : Option Carry
  deriving DecidableEq, Repr

/-- The retained fields of a record (R50); direction and block reason are part of the state. -/
structure RecordData where
  label : Label
  home : Nat
  state : CState
  location : Location
  custodian : Option Nat
  exposed : Bool
  deriving DecidableEq, Repr

/-- The Custody Table. -/
structure Custody where
  records : Table Record
  newestBlocked : Option Nat
  deriving DecidableEq, Repr

/-- An order's entry (R69). -/
structure OrderEntry where
  record : Nat
  handed : Bool
  deriving DecidableEq, Repr

/-- An order's state with the field that belongs to it (R69); `opened` is OPEN. -/
inductive OrderState where
  | opened | ready
  | inHandover (context : Nat)
  | finished (outcome : OOutcome)
  deriving DecidableEq, Repr

/-- An order (R69). -/
structure Order where
  tag : Nat
  courier : Nat
  deadline : Option Nat
  entries : List OrderEntry
  state : OrderState
  deriving DecidableEq, Repr

/-! ## Notices and replies (chapter 1) -/

/-- A notice: its kind, subject and content (Table 1-6). -/
inductive Notice where
  | zoneFire (zone : Fin 8) (state : FireState) (headA headB : Head) (acknowledged drill : Bool)
  | alarmOut (driven : Bool)
  | restarted (cause : Cause) (settingsDefaulted : Bool)
  | orderState (slot tag : Nat) (state : OrderState) (handed entries : Nat)
  | handoverState (context courier : Nat) (direction : Direction) (phase : Phase)
      (outcome : Option HOutcome) (step : Option Phase) (manifest taken : Nat)
  | blockedChanged (count : Nat) (newest : Option (Label × Reason))
  | foreignLabel (label : Label) (place : Location)
  | storeFault
  | zoneClimate (zone : Fin 8) (control : Control) (excursion : Excursion) (disagree : Bool)
      (reading : Option (Nat × Int)) (minutes : Nat)
  | rackPosition (position : Fin 12) (event : RackEvent) (occupied paused : Bool)
      (record : Option Nat) (foreign : Option Label) (dwell : Option Nat)
  | hatchAir (event : HatchEvent) (air : Air) (rh : Option Nat)
  | nodeHealth (index : Nat) (health : Health) (misses physicalId : Nat)
  | linkRate (rate : Fin 4) (event : RateEvent)
  deriving DecidableEq, Repr

/-- The pending notice set, keyed by sending rank (R13, R14), and the class mask (R10). -/
structure NoticeUnit where
  pending : Table Notice
  mask : Byte
  deriving DecidableEq, Repr

/-- A request frame: its tag, code and operand bytes (Table 1-2). -/
structure Frame where
  tag : Byte
  code : Byte
  operands : List Byte
  deriving DecidableEq, Repr

/-- The places of the reply queue (R2). -/
inductive ReplyPlace where | kept | refusal
  deriving DecidableEq, Repr

/-- A queued reply (Table 1-2). -/
structure Reply where
  place : ReplyPlace
  tag : Byte
  code : Byte
  status : Status
  data : List Byte
  deriving DecidableEq, Repr

/-- What the transmitter is sending (R8). -/
inductive Outgoing where
  | reply (r : Reply)
  | notice (n : Notice)
  deriving DecidableEq, Repr

/-- The receiver (R1). -/
inductive Receiver where
  | hunt
  | length
  | body (length : Nat) (taken : List Byte)
  | check (length : Nat) (taken : List Byte) (first : Option Byte)
  deriving DecidableEq, Repr

inductive HostRate where | rate57600 | rate115200
  deriving DecidableEq, Repr

/-- The Host Link Controller. `executing` is the tag of the FORWARD in execution: every other request
is carried out in the event that begins it (R5). -/
structure HostLink where
  rate : HostRate
  receiver : Receiver
  frameTimer : Option Nat
  buffer : Option Frame
  executing : Option Byte
  replies : List Reply
  transmitting : Option Outgoing
  framesDiscarded : Bool
  deriving DecidableEq, Repr

/-! ## Field link (chapter 3) -/

/-- An entry of a snapshot (Table 1-9). Hatch entries carry a label only. -/
structure SnapEntry where
  place : Nat
  occupied : Bool
  label : Label
  deriving DecidableEq, Repr

/-- An open snapshot assembly (R35). -/
structure Assembly where
  entries : List SnapEntry
  expected : Nat
  deriving DecidableEq, Repr

/-- A bound node table entry: its settings fields and its runtime fields (Table 2-1). -/
structure Node where
  binding : Binding
  health : Health
  misses : Nat
  accepted : Option Nat
  rate : Fin 4
  assembly : Option Assembly
  deriving DecidableEq, Repr

/-- Commands of the field command queue (section 3.3). -/
inductive CmdKind where
  | mode | roomLock | storeLock | exitLock | purge | signalReject | release | prompt
  deriving DecidableEq, Repr

/-- An entry of the field command queue (R38). -/
structure QueueEntry where
  node : Nat
  cmd : CmdKind
  data : List Byte
  inFlight : Bool
  deriving DecidableEq, Repr

/-- A rate broadcast (R46, R47). -/
structure Broadcast where
  target : Fin 4
  sendRate : Fin 4
  event : RateEvent
  deriving DecidableEq, Repr

/-- What an addressed transaction was chosen as (R40). -/
inductive Origin where
  | command (cmd : CmdKind)
  | firePoll
  | forwarded
  | routine
  | hunting (cmd : Option CmdKind)
  | correction
  deriving DecidableEq, Repr

/-- An addressed transaction: `node` is none once its node has been unbound (log 14). -/
structure Transaction where
  node : Option Nat
  physicalId : Nat
  origin : Origin
  code : Nat
  data : List Byte
  ack : Nat
  rate : Fin 4
  counted : Bool
  deriving DecidableEq, Repr

/-- What the field link is doing (R31). -/
inductive Activity where
  | idle
  | broadcasting (b : Broadcast)
  | sending (t : Transaction)
  | awaiting (t : Transaction) (left : Nat)
  deriving DecidableEq, Repr

/-- The forward slot's transaction (R43). -/
structure Forward where
  node : Nat
  code : Nat
  data : List Byte
  deriving DecidableEq, Repr

/-- The Field Link Controller but for the node table. -/
structure FieldLink where
  rate : Fin 4
  pendingBroadcast : Option Broadcast
  transactions : Nat
  errors : Nat
  windowLength : Nat
  queue : List QueueEntry
  forward : Option Forward
  cursor : Option Nat
  followUp : Option Nat
  lastWasFollowUp : Bool
  fireCount : Nat
  fireRotation : Option Nat
  activity : Activity
  deriving DecidableEq, Repr

/-! ## Climate, rack, fire (chapters 6 to 8) -/

/-- A PROBE report's fields (R83). -/
structure ProbeReport where
  rh : Nat
  temp : Int
  fault : Bool
  deriving DecidableEq, Repr

/-- A bound PROBE's reading and age timer (R83, R84). -/
structure Probe where
  report : Option ProbeReport
  age : Option Nat
  deriving DecidableEq, Repr

/-- A probe-agreement window (R86). -/
structure Agreement where
  samples : Nat
  disagreements : Nat
  length : Nat
  deriving DecidableEq, Repr

/-- The reading record of a store zone or of ROOM (Table 6-1, R94). -/
structure AirReading where
  reading : Option (Nat × Int)
  disagree : Bool
  window : Option Agreement
  deriving DecidableEq, Repr

/-- The control and excursion fields of a store zone (Table 6-1). -/
structure ZoneClimate where
  control : Control
  excursion : Excursion
  grace : Option Nat
  minutes : Nat
  minuteTimer : Option Nat
  deriving DecidableEq, Repr

/-- The Climate Controller: probes by node index, readings of zones 0 to 7 and ROOM (8). -/
structure Climate where
  probes : Table Probe
  air : Vector AirReading 9
  zones : Vector ZoneClimate 8
  deriving DecidableEq, Repr

/-- What an occupied rack position holds (R98). -/
inductive Occupant where
  | record (i : Nat)
  | foreign (label : Label)
  deriving DecidableEq, Repr

/-- A rack position (R98). -/
structure Position where
  occupant : Option Occupant
  dwell : Option Nat
  paused : Bool
  deriving DecidableEq, Repr

/-- The Rack Controller: the position table and the pause condition as last worked out (R101). -/
structure Rack where
  positions : Vector Position 12
  paused : Bool
  deriving DecidableEq, Repr

/-- A zone fire record (R111), its armed flag standing in the settings. -/
structure ZoneFire where
  state : FireState
  drill : Bool
  acknowledged : Bool
  alertTimer : Option Nat
  countdownTimer : Option Nat
  ackTimer : Option Nat
  ackExpired : Bool
  headA : Head
  headB : Head
  hold : Hold
  valve : Valve
  equipmentLost : Bool
  deriving DecidableEq, Repr

/-- The Fire Controller: the zone fire records and the ALARM OUT line. -/
structure Fire where
  zones : Vector ZoneFire 8
  alarmOut : Bool
  deriving DecidableEq, Repr

/-! ## Hatch and handovers (chapters 9 and 10) -/

/-- The owner of the hatch (R138); `nobody` is none. -/
inductive Owner where
  | nobody
  | context (c : Nat)
  | purge
  | fire
  deriving DecidableEq, Repr

/-- The state fields of the latest HATCH report (R132). -/
structure HatchReport where
  room : Door
  store : Door
  exit : Door
  roomLock : Lock
  storeLock : Lock
  exitLock : Lock
  rh : Nat
  purge : PurgeCmd
  deriving DecidableEq, Repr

/-- A purge run (R141): its minimum timer (none once expired), its maximum timer, and whether a HATCH
report has been taken since it started. -/
structure PurgeRun where
  minTimer : Option Nat
  maxTimer : Nat
  reportTaken : Bool
  deriving DecidableEq, Repr

/-- The Hatch Arbiter and Interlock. The door request and the exit holds are computed from the owner
and the contexts (log 39). -/
structure Hatch where
  owner : Owner
  waiting : List Nat
  yielded : Option Nat
  air : Air
  report : Option HatchReport
  roomLock : Lock
  storeLock : Lock
  exitLock : Lock
  purgeCmd : PurgeCmd
  purge : Option PurgeRun
  retry : Option Nat
  wetDwell : Option Nat
  contents : List Label
  deriving DecidableEq, Repr

/-- A roster entry (R147). -/
structure Courier where
  id : Nat
  code : Nat
  state : CourierState
  failed : Nat
  deriving DecidableEq, Repr

/-- A manifest entry (R152). -/
structure ManifestEntry where
  record : Nat
  taken : Bool
  deriving DecidableEq, Repr

/-- A LIVE or ENDED context slot (R152): `finish` holds the step reached and the outcome, and is
present in an ENDED slot alone. A context's yielded mark is the Hatch Arbiter's (log 39). -/
structure Context where
  courier : Nat
  direction : Direction
  phase : Phase
  manifest : List ManifestEntry
  rejected : List Label
  timer : Option Nat
  pendingOutcome : Option HOutcome
  accepted : Nat
  finish : Option (Phase × HOutcome)
  deriving DecidableEq, Repr

/-- The Handover Sequencer: the roster and the context slots (an unlisted slot is FREE). -/
structure Handover where
  roster : Table Courier
  contexts : Table Context
  deriving DecidableEq, Repr

/-! ## Retained store and device (chapter 11) -/

/-- One copy of an image: its write number, whether its check value is correct, its contents (R171). -/
structure Copy (α : Type) where
  number : Nat
  sound : Bool
  value : α
  deriving DecidableEq, Repr

/-- An image in its two copies (R171). -/
structure Image (α : Type) where
  first : Copy α
  second : Copy α
  deriving DecidableEq, Repr

/-- One image write of the event under way, with what the image held before (log 10). -/
inductive Undo where
  | settings (old : Image (Option SettingsData))
  | record (i : Nat) (old : Option (Image (Option RecordData)))
  | courier (i : Nat) (old : Option (Image (Option Courier)))
  deriving DecidableEq, Repr

/-- The retained store (R171). An image that is not listed is factory-new (log 2). `script`, `writes`
and `undo` are the model's own (log 7, log 10). -/
structure Store where
  settings : Image (Option SettingsData)
  records : Table (Image (Option RecordData))
  roster : Table (Image (Option Courier))
  undo : List Undo
  script : List Bool
  writes : Nat
  deriving DecidableEq, Repr

/-- The device: its lines, its condition and the flags of chapter 11. -/
structure Device where
  powered : Bool
  rst : Bool
  powerOnPending : Bool
  hrateStrap : Bool
  condition : Condition
  cause : Cause
  settingsDefaulted : Bool
  storeFault : Bool
  startupSet : List Nat
  deriving DecidableEq, Repr

/-- The whole part, and the commands that wait for it. -/
structure State where
  device : Device
  host : HostLink
  notices : NoticeUnit
  link : FieldLink
  nodes : Table Node
  settings : Settings
  climate : Climate
  rack : Rack
  fire : Fire
  custody : Custody
  orders : Table Order
  hatch : Hatch
  handover : Handover
  store : Store
  pending : List Instr
  deriving DecidableEq, Repr

/-- Why a step stops with a fault: never. The spec calls no behaviour of the part undefined and gives
every command an effect in every state (log 37), so the type has no constructor. -/
inductive Fault where
  deriving DecidableEq, Repr

/-- Why a step answers no meaning. -/
inductive Refusal where
  /-- A row without a meaning yet; raised by a refused arm of exec alone. Safe: the step stops. -/
  | notModelled (mnemonic : String)
  deriving DecidableEq, Repr

/-! ## One update per block -/

namespace State

def withDevice (s : State) (x : Device) : State := { s with device := x }
def withHost (s : State) (x : HostLink) : State := { s with host := x }
def withNotices (s : State) (x : NoticeUnit) : State := { s with notices := x }
def withLink (s : State) (x : FieldLink) : State := { s with link := x }
def withNodes (s : State) (x : Table Node) : State := { s with nodes := x }
def withSettings (s : State) (x : Settings) : State := { s with settings := x }
def withClimate (s : State) (x : Climate) : State := { s with climate := x }
def withRack (s : State) (x : Rack) : State := { s with rack := x }
def withFire (s : State) (x : Fire) : State := { s with fire := x }
def withCustody (s : State) (x : Custody) : State := { s with custody := x }
def withOrders (s : State) (x : Table Order) : State := { s with orders := x }
def withHatch (s : State) (x : Hatch) : State := { s with hatch := x }
def withHandover (s : State) (x : Handover) : State := { s with handover := x }
def withStore (s : State) (x : Store) : State := { s with store := x }
def withPending (s : State) (x : List Instr) : State := { s with pending := x }

end State

/-! ## Restart values and reset -/

/-- Default climate settings (Table 0-4). -/
def ClimateSettings.defaults : ClimateSettings :=
  { setpoint := 400, deadband := 40, rhLow := 300, rhHigh := 500, tempLow := 150, tempHigh := 260 }

/-- A zone's default settings: no window, default climate, armed (R17). -/
def ZoneSettings.defaults : ZoneSettings :=
  { window := none, climate := .defaults, armed := true }

/-- The working settings at their defaults (Table 0-4). -/
def Settings.defaults : Settings :=
  { params := .defaults, zones := Vector.replicate 8 .defaults }

/-- R16, for a strap level. -/
def HostLink.restarted (strap : Bool) : HostLink :=
  { rate := if strap then .rate115200 else .rate57600, receiver := .hunt, frameTimer := none,
    buffer := none, executing := none, replies := [], transmitting := none, framesDiscarded := false }

/-- R16. -/
def NoticeUnit.restarted : NoticeUnit := { pending := [], mask := 0 }

/-- R49, for a window length and a lowest bound index. -/
def FieldLink.restarted (windowLength : Nat) (cursor : Option Nat) : FieldLink :=
  { rate := 0, pendingBroadcast := none, transactions := 0, errors := 0,
    windowLength := windowLength, queue := [], forward := none, cursor := cursor, followUp := none,
    lastWasFollowUp := false, fireCount := 4, fireRotation := none, activity := .idle }

/-- A reading record with no reading (R97). -/
def AirReading.restarted : AirReading := { reading := none, disagree := false, window := none }

/-- R97. -/
def ZoneClimate.restarted : ZoneClimate :=
  { control := .unknown, excursion := .inLimits, grace := none, minutes := 0, minuteTimer := none }

/-- R97, with no probe bound. -/
def Climate.restarted : Climate :=
  { probes := [], air := Vector.replicate 9 .restarted, zones := Vector.replicate 8 .restarted }

/-- An empty rack position (R98). -/
def Position.empty : Position := { occupant := none, dwell := none, paused := false }

/-- An empty, running rack (R110). -/
def Rack.restarted : Rack := { positions := Vector.replicate 12 .empty, paused := false }

/-- R131. -/
def ZoneFire.restarted : ZoneFire :=
  { state := .normal, drill := false, acknowledged := false, alertTimer := none,
    countdownTimer := none, ackTimer := none, ackExpired := false, headA := .clear, headB := .clear,
    hold := .released, valve := .notReported, equipmentLost := false }

/-- R131. -/
def Fire.restarted : Fire := { zones := Vector.replicate 8 .restarted, alarmOut := false }

/-- R146. No report is held: of the reported lock states and the reported purge-running field R146 gives no
value, and the model holds none (log 61). -/
def Hatch.restarted : Hatch :=
  { owner := .nobody, waiting := [], yielded := none, air := .wet, report := none,
    roomLock := .locked, storeLock := .locked, exitLock := .unlocked, purgeCmd := .stop,
    purge := none, retry := none, wetDwell := none, contents := [] }

/-- An image never written: nothing in it, both copies sound (DESIGN CHOICE, log 2, log 28). -/
def Image.factory {α : Type} : Image (Option α) :=
  { first := { number := 1, sound := true, value := none },
    second := { number := 0, sound := true, value := none } }

/-- A retained store never written (DESIGN CHOICE, log 2). -/
def Store.factory : Store :=
  { settings := .factory, records := [], roster := [], undo := [], script := [], writes := 0 }

/-- The part right after power has been applied to it with a retained store never written: R176 with
cause POWER_ON. No image was ever saved, so settings-defaulted is set (R178); no node is bound, so it
is RUNNING at once (R181); RESTARTED has been posted and, the line being idle, is being sent (R8, R14).
DESIGN CHOICE: the store's contents and the strap level (log 2, log 3). -/
def State.reset : State :=
  { device :=
      { powered := true, rst := false, powerOnPending := false, hrateStrap := false,
        condition := .running, cause := .powerOn, settingsDefaulted := true, storeFault := false,
        startupSet := [] },
    host := { HostLink.restarted false with transmitting := some (.notice (.restarted .powerOn true)) },
    notices := .restarted,
    link := .restarted 1000 none,
    nodes := [],
    settings := .defaults,
    climate := .restarted,
    rack := .restarted,
    fire := .restarted,
    custody := { records := [], newestBlocked := none },
    orders := [],
    hatch := .restarted,
    handover := { roster := [], contexts := [] },
    store := .factory,
    pending := [] }

end Sys2Proof.Machine
end

