-- ==== Sys2Proof/Machine/Operands.lean ====
section
/-! DEFINITION. Operands: every byte layout of section 1.7. Codes of the enumerations (Table 1-7), the
CRC and the frames (R1, Tables 1-1, 1-2, 1-8), notice content (Table 1-6), operand lengths (Table 1-3)
and the reading of a field report (Table 1-9). -/

namespace Sys2Proof.Machine

/-! ## Fields, high byte first -/

/-- A number as one byte. -/
def byteOf (n : Nat) : Byte := BitVec.ofNat 8 n

/-- A flag as one byte. -/
def flagByte (b : Bool) : Byte := if b then 1 else 0

/-- A number as a 16-bit field. -/
def field16 (n : Nat) : List Byte := [byteOf (n / 256), byteOf n]

/-- A temperature as a signed 16-bit field. -/
def fieldTemp (t : Int) : List Byte := field16 (BitVec.ofInt 16 t).toNat

/-- A 16-bit field as it stands. -/
def fieldHalf (h : Half) : List Byte := field16 h.toNat

/-- A 24-bit field. -/
def field24 (n : Nat) : List Byte := [byteOf (n / 65536), byteOf (n / 256), byteOf n]

/-- A label as its 8 bytes. -/
def fieldLabel (l : Label) : List Byte :=
  [byteOf (l.toNat / 2 ^ 56), byteOf (l.toNat / 2 ^ 48), byteOf (l.toNat / 2 ^ 40),
   byteOf (l.toNat / 2 ^ 32), byteOf (l.toNat / 2 ^ 24), byteOf (l.toNat / 2 ^ 16),
   byteOf (l.toNat / 2 ^ 8), byteOf l.toNat]

/-- Reads a 16-bit field. -/
def read16 (hi lo : Byte) : Nat := hi.toNat * 256 + lo.toNat

/-- Reads a signed 16-bit field (temperature). -/
def readTemp (hi lo : Byte) : Int := (BitVec.ofNat 16 (read16 hi lo)).toInt

/-- Reads bytes as one number, high byte first. -/
def readBytes (bs : List Byte) : Nat := bs.foldl (fun n b => n * 256 + b.toNat) 0

/-- Reads a label from its 8 bytes. -/
def readLabel (bs : List Byte) : Label := BitVec.ofNat 64 (readBytes bs)

/-- A label operand is well formed: each byte is the character code of A to Z or 0 to 9 (section 4.6). -/
def labelOk (l : Label) : Bool :=
  (fieldLabel l).all fun b =>
    (decide (0x30 ≤ b.toNat) && decide (b.toNat ≤ 0x39)) ||
    (decide (0x41 ≤ b.toNat) && decide (b.toNat ≤ 0x5A))

/-- The absent label: 8 bytes of 0x00. -/
def absentLabel : Label := 0

/-- The label, or the absent label. -/
def labelOrAbsent (l : Option Label) : List Byte := fieldLabel (l.getD absentLabel)

/-- A 16-bit number, or 0xFFFF while absent. -/
def field16OrAbsent (n : Option Nat) : List Byte := field16 (n.getD 0xFFFF)

/-! ## Times in replies -/

/-- A time in whole seconds rounded up. -/
def secondsUp (ms : Nat) : Nat := (ms + 999) / 1000

/-- A time in whole minutes rounded up. -/
def minutesUp (ms : Nat) : Nat := (ms + 59999) / 60000

/-! ## Codes of Table 1-7 -/

def Status.code : Status → Nat
  | .ok => 0 | .accepted => 1 | .badTag => 2 | .unknownRequest => 3 | .badOperand => 4
  | .linkBusy => 5 | .firePreempted => 6 | .fireUnacknowledged => 7 | .starting => 8
  | .notFound => 9 | .duplicate => 10 | .tableFull => 11 | .wrongState => 12 | .inUse => 13
  | .conflict => 14 | .protectedCommand => 15 | .nodeOffline => 16 | .nodeTimeout => 17
  | .storeFault => 18

def Condition.code : Condition → Nat
  | .starting => 0 | .running => 1

def Cause.code : Cause → Nat
  | .powerOn => 0 | .resetLine => 1 | .restartRequest => 2

def CState.code : CState → Nat
  | .shelved => 0 | .reserved => 1 | .picked => 2 | .conditioning _ => 3 | .ready _ => 4
  | .staged => 5 | .out => 6 | .inbound => 7 | .received => 8 | .loose => 9 | .blocked _ => 10

def Direction.code : Direction → Nat
  | .outbound => 1 | .returning => 2

/-- The direction field of a record: none outside CONDITIONING and READY. -/
def CState.directionCode : CState → Nat
  | .conditioning d => d.code
  | .ready d => d.code
  | .shelved | .reserved | .picked | .staged | .out | .inbound | .received | .loose | .blocked _ => 0

def Reason.code : Reason → Nat
  | .fire => 1 | .misplaced => 2 | .unauthorisedMove => 3 | .missing => 4
  | .skippedConditioning => 5 | .custodyConflict => 6 | .handoverUnresolved => 7 | .powerLoss => 8

/-- The block reason of a record: none outside BLOCKED. -/
def CState.reason : CState → Option Reason
  | .blocked r => some r
  | .shelved | .reserved | .picked | .conditioning _ | .ready _ | .staged | .out | .inbound
  | .received | .loose => none

def reasonCode (r : Option Reason) : Nat := (r.map Reason.code).getD 0

def Location.kindCode : Location → Nat
  | .slot _ => 0 | .rack _ => 1 | .hatch => 2 | .inHand => 3 | .courier _ => 4 | .unknown => 5

/-- The location number: the slot, position or courier; 0xFFFF for the rest (R66). -/
def Location.number : Location → Nat
  | .slot n => n | .rack p => p.val | .courier id => id
  | .hatch | .inHand | .unknown => 0xFFFF

def OrderState.code : OrderState → Nat
  | .opened => 0 | .ready => 1 | .inHandover _ => 2 | .finished _ => 3

def OOutcome.code : OOutcome → Nat
  | .done => 1 | .cancelled => 2 | .expired => 3 | .failedFire => 4 | .failedBlocked => 5

def OrderState.outcomeCode : OrderState → Nat
  | .finished o => o.code
  | .opened | .ready | .inHandover _ => 0

def FireState.code : FireState → Nat
  | .normal => 0 | .alert => 1 | .confirmed => 2 | .countdown => 3 | .paused => 4
  | .releasing => 5 | .discharged => 6

def Head.code : Head → Nat
  | .clear => 0 | .alarm => 1 | .fault => 2

def Control.code : Control → Nat
  | .unknown => 0 | .holding => 1 | .drying => 2 | .wetting => 3 | .suspended => 4

def Excursion.code : Excursion → Nat
  | .inLimits => 0 | .outGrace => 1 | .excursion => 2 | .exposing => 3

def NodeKind.code : NodeKind → Nat
  | .probe => 1 | .fire => 2 | .air => 3 | .shelf => 4 | .rack => 5 | .hatch => 6 | .terminal => 7

def NodeKind.ofCode : Nat → Option NodeKind
  | 1 => some .probe | 2 => some .fire | 3 => some .air | 4 => some .shelf | 5 => some .rack
  | 6 => some .hatch | 7 => some .terminal | _ => none

def Health.code : Health → Nat
  | .unbound => 0 | .online => 1 | .suspect => 2 | .offline => 3 | .mismatch => 4

def Owner.code : Owner → Nat
  | .nobody => 0 | .context c => c + 1 | .purge => 3 | .fire => 4

def Air.code : Air → Nat
  | .dry => 0 | .wet => 1

def Door.code : Door → Nat
  | .closed => 0 | .opened => 1

def Lock.code : Lock → Nat
  | .locked => 0 | .unlocked => 1

def AirMode.code : AirMode → Nat
  | .stop => 0 | .hold => 1 | .dry => 2 | .wet => 3

def PurgeCmd.code : PurgeCmd → Nat
  | .stop => 0 | .run => 1

def CourierState.code : CourierState → Nat
  | .active => 0 | .locked => 1 | .revoked => 2

def Phase.code : Phase → Nat
  | .waitHatch => 0 | .loading => 1 | .collecting => 2 | .awaitRelease => 3 | .recall => 4
  | .waitDry => 5 | .unloading => 6 | .loadingIn => 7 | .recallReturn => 8 | .ended => 9

def HOutcome.code : HOutcome → Nat
  | .accepted => 1 | .disputed => 2 | .cancelled => 3 | .nothingLoaded => 4 | .timedOut => 5
  | .fireAbort => 6 | .hostAbort => 7

def outcomeCode (o : Option HOutcome) : Nat := (o.map HOutcome.code).getD 0

/-- The step reached, 0xFF while absent. -/
def stepCode (p : Option Phase) : Nat := (p.map Phase.code).getD 0xFF

def RackEvent.code : RackEvent → Nat
  | .inserted => 0 | .removed => 1 | .started => 2 | .paused => 3 | .resumed => 4
  | .completed => 5 | .interrupted => 6 | .carryExpired => 7

def HatchEvent.code : HatchEvent → Nat
  | .wentWet => 0 | .purgeStarted => 1 | .wentDry => 2 | .purgeFailed => 3 | .wetDwell => 4
  | .override => 5

def RateEvent.code : RateEvent → Nat
  | .stepDown => 0 | .restored => 1

def Prompt.code : Prompt → Nat
  | .service => 0 | .unknown => 1 | .wrongCode => 2 | .locked => 3 | .revoked => 4
  | .alreadyActive => 5 | .busy => 6 | .nothingReady => 7 | .nothingDue => 8 | .wait => 9
  | .loading => 10 | .collect => 11 | .placeItems => 12 | .closeDoor => 13 | .removeItems => 14
  | .hold => 15 | .returnItems => 16 | .takeBack => 17 | .done => 18 | .closed => 19

/-- The node command codes of Table 1-8. -/
def CmdKind.code : CmdKind → Nat
  | .mode => 0x41 | .roomLock => 0x42 | .storeLock => 0x43 | .exitLock => 0x44 | .purge => 0x45
  | .signalReject => 0x46 | .release => 0x47 | .prompt => 0x48

def pollCode : Nat := 0x00
def snapshotCode : Nat := 0x01
def rateCode : Nat := 0x40

/-! ## CRC and frames -/

/-- One bit of the CRC-16: polynomial 0x1021, most significant bit first (R1). -/
def crcBit (c : Half) : Half := if c.getLsbD 15 then (c <<< 1) ^^^ 0x1021#16 else c <<< 1

/-- One byte of the CRC-16. -/
def crcByte (c : Half) (b : Byte) : Half :=
  crcBit (crcBit (crcBit (crcBit (crcBit (crcBit (crcBit (crcBit (c ^^^ (b.zeroExtend 16 <<< 8)))))))))

/-- The CRC-16 of R1: initial value 0xFFFF, no reflection, no final inversion. -/
def crc (bs : List Byte) : Half := bs.foldl crcByte 0xFFFF#16

/-- A body as it stands on the host link: sync, length, body, CRC (R1, Table 1-1). A body longer than 253 bytes
makes the length byte wrap (log 43). -/
def hostWire (body : List Byte) : List Byte :=
  [0x5A, byteOf body.length] ++ body ++ fieldHalf (crc (byteOf body.length :: body))

/-- A reply's body (Table 1-2). -/
def Reply.body (r : Reply) : List Byte := [r.tag, r.code, byteOf r.status.code] ++ r.data

/-- A frame from a body's bytes (Table 1-2). -/
def Frame.ofBody (body : List Byte) : Frame :=
  { tag := body.headD 0, code := (body.drop 1).headD 0, operands := body.drop 2 }

/-- A frame's body. -/
def Frame.body (f : Frame) : List Byte := f.tag :: f.code :: f.operands

/-! ## Notices (Table 1-6) -/

/-- The class of a notice (section 1.6). -/
def Notice.cls : Notice → Nat
  | .zoneFire .. | .alarmOut .. => 0
  | .restarted .. | .orderState .. | .handoverState .. | .blockedChanged .. | .foreignLabel ..
  | .storeFault => 1
  | .zoneClimate .. | .rackPosition .. | .hatchAir .. => 2
  | .nodeHealth .. | .linkRate .. => 3

/-- The place of a notice's key among the 85 keys: by class, then kind, then subject (R14). One key,
one place, so the pending set holds at most one entry per key (R13). An order slot has a number below 16
(R69) and a context slot 0 or 1 (R152); a number beyond, which no step gives, takes its kind's last place, so
that no two kinds share one. -/
def Notice.rank : Notice → Nat
  | .zoneFire z .. => z.val
  | .alarmOut _ => 8
  | .restarted .. => 9
  | .orderState k .. => 10 + min k 15
  | .handoverState c .. => 26 + min c 1
  | .blockedChanged .. => 28
  | .foreignLabel .. => 29
  | .storeFault => 30
  | .zoneClimate z .. => 31 + z.val
  | .rackPosition p .. => 39 + p.val
  | .hatchAir .. => 51
  | .nodeHealth i .. => 52 + i
  | .linkRate .. => 84

/-- The notice code. -/
def Notice.code : Notice → Nat
  | .zoneFire .. => 0xC0 | .alarmOut .. => 0xC1 | .restarted .. => 0xC2 | .orderState .. => 0xC3
  | .handoverState .. => 0xC4 | .blockedChanged .. => 0xC5 | .foreignLabel .. => 0xC6
  | .storeFault => 0xC7 | .zoneClimate .. => 0xC8 | .rackPosition .. => 0xC9 | .hatchAir .. => 0xCA
  | .nodeHealth .. => 0xCB | .linkRate .. => 0xCC

/-- The subject byte, 0x00 where the kind has none (Table 1-2). -/
def Notice.subject : Notice → Nat
  | .zoneFire z .. => z.val
  | .orderState k .. => k
  | .handoverState c .. => c
  | .zoneClimate z .. => z.val
  | .rackPosition p .. => p.val
  | .nodeHealth i .. => i
  | .alarmOut _ | .restarted .. | .blockedChanged .. | .foreignLabel .. | .storeFault | .hatchAir ..
  | .linkRate .. => 0

/-- An unknown RH or temperature. -/
def unknownReading : List Byte := field16 0x7FFF

/-- The content bytes (Table 1-6). A RACK_POSITION notice gives its remaining dwell rounded up (log 51). -/
def Notice.content : Notice → List Byte
  | .zoneFire _ st a b ack drill =>
    [byteOf st.code, byteOf a.code, byteOf b.code, flagByte ack, flagByte drill]
  | .alarmOut driven => [flagByte driven]
  | .restarted cause defaulted => [byteOf cause.code, flagByte defaulted]
  | .orderState _ tag st handed entries =>
    [byteOf tag, byteOf st.code, byteOf st.outcomeCode, byteOf handed, byteOf entries]
  | .handoverState _ courier d ph out step manifest taken =>
    field16 courier ++ [byteOf d.code, byteOf ph.code, byteOf (outcomeCode out),
      byteOf (stepCode step), byteOf manifest, byteOf taken]
  | .blockedChanged count newest =>
    field16 count ++ labelOrAbsent (newest.map (·.1)) ++ [byteOf (reasonCode (newest.map (·.2)))]
  | .foreignLabel label place => fieldLabel label ++ [byteOf place.kindCode] ++ field16 place.number
  | .storeFault => [1]
  | .zoneClimate _ control excursion disagree reading minutes =>
    [byteOf control.code, byteOf excursion.code, flagByte disagree] ++
    (match reading with
     | some (rh, temp) => field16 rh ++ fieldTemp temp
     | none => unknownReading ++ unknownReading) ++ field16 minutes
  | .rackPosition _ event occupied paused record foreign dwell =>
    [byteOf event.code, flagByte occupied, flagByte paused] ++ field16OrAbsent record ++
    labelOrAbsent foreign ++ field16OrAbsent (dwell.map secondsUp)
  | .hatchAir event air rh => [byteOf event.code, byteOf air.code] ++ field16 (rh.getD 0x7FFF)
  | .nodeHealth _ health misses physicalId => [byteOf health.code, byteOf misses, byteOf physicalId]
  | .linkRate rate event => [byteOf rate.val, byteOf event.code]

/-- A notice's body (Table 1-2): a tag of 0, the code, the subject, the content. -/
def Notice.body (n : Notice) : List Byte := [0, byteOf n.code, byteOf n.subject] ++ n.content

/-- The bytes of the frame on HTXD. -/
def Outgoing.wire : Outgoing → List Byte
  | .reply r => hostWire r.body
  | .notice n => hostWire n.body

/-- A poll frame as it stands on the field link (Table 1-8). -/
def pollWire (physicalId code ack : Nat) (data : List Byte) : List Byte :=
  let head := [byteOf physicalId, byteOf code, byteOf ack, byteOf data.length] ++ data
  head ++ fieldHalf (crc head)

/-- The bytes of an addressed poll. -/
def Transaction.wire (t : Transaction) : List Byte := pollWire t.physicalId t.code t.ack t.data

/-- The bytes of a RATE broadcast: ID 127, acknowledged sequence 0 (R46). -/
def Broadcast.wire (b : Broadcast) : List Byte := pollWire 127 rateCode 0 [byteOf b.target.val]

/-! ## Operand lengths (R4, third check) -/

/-- The single filler byte of a request without operands is 0x00. -/
def fillerOk (ops : List Byte) : Bool := ops == [0]

/-- The operand length is the one the layout gives for the operands present (Table 1-3); none for a
code that is not in the table. -/
def operandsOk (code : Nat) (ops : List Byte) : Option Bool :=
  match code with
  | 0x01 | 0x03 | 0x14 | 0x15 | 0x24 | 0x40 | 0x41 | 0x42 => some (fillerOk ops)
  | 0x02 | 0x10 | 0x12 | 0x20 | 0x22 | 0x30 | 0x31 | 0x61 | 0x62 | 0x80 | 0x81 | 0x82 | 0x83 =>
    some (ops.length == 1)
  | 0x32 | 0x33 | 0x71 | 0x72 | 0x73 => some (ops.length == 2)
  | 0x11 | 0x53 => some (ops.length == 3)
  | 0x70 => some (ops.length == 5)
  | 0x21 | 0x51 | 0x52 | 0x54 => some (ops.length == 8)
  | 0x50 => some (ops.length == 10)
  | 0x13 => some (ops.length == 18)
  | 0x23 => some (decide (2 ≤ ops.length) && decide (ops.length ≤ 202))
  | 0x60 =>
    match ops with
    | _ :: _ :: _ :: _ :: _ :: count :: labels => some (labels.length == 8 * count.toNat)
    | _ => some false
  | _ => none

/-- A list of labels, 8 bytes each; the argument bounds their number. -/
def readLabels : Nat → List Byte → List Label
  | 0, _ => []
  | n + 1, bs => readLabel (bs.take 8) :: readLabels n (bs.drop 8)

/-! ## Field reports (Table 1-9) -/

/-- The kind-specific state of a report. -/
inductive NodeState where
  | probe (r : ProbeReport)
  | fire (headA headB : Head) (hold : Hold) (valve : Valve)
  | air (mode : AirMode)
  | hatch (r : HatchReport)
  | none
  deriving DecidableEq, Repr

/-- The events of a batch. A token's direction is its code of Table 1-7. -/
inductive FieldEvent where
  | inserted (place : Nat) (label : Label)
  | removed (place : Nat)
  | entered (label : Label)
  | left (label : Label)
  | token (courier code direction : Nat)
  | confirm
  | cancel
  deriving DecidableEq, Repr

/-- A report with a good CRC, up to its state and items. -/
structure Report where
  physicalId : Nat
  kind : Nat
  fresh : Bool
  more : Bool
  last : Bool
  /-- Byte 3: the batch sequence, or the segment number of a fresh report. -/
  number : Nat
  count : Nat
  state : List Byte
  items : List Byte
  deriving DecidableEq, Repr

/-- Reads a complete report: its length allows the header and the CRC, and the CRC is right. None
otherwise. A state length that runs past the report leaves the state cut short (log 13). -/
def readReport (bytes : List Byte) : Option Report :=
  let body := bytes.take (bytes.length - 2)
  match body with
  | id :: kind :: flags :: number :: count :: len :: rest =>
    if bytes.drop (bytes.length - 2) == fieldHalf (crc body) then
      some
        { physicalId := id.toNat, kind := kind.toNat, fresh := flags.getLsbD 0, more := flags.getLsbD 1,
          last := flags.getLsbD 2, number := number.toNat, count := count.toNat,
          state := rest.take len.toNat, items := rest.drop len.toNat }
    else none
  | _ => none

/-- The report from its kind byte to its last byte before the CRC (R44). A report that runs past Table 1-9
may make the reply's body longer than 253 bytes (log 43). -/
def reportForHost (bytes : List Byte) : List Byte := (bytes.take (bytes.length - 2)).drop 1

def readHead (b : Byte) : Option Head :=
  match b.toNat with
  | 0 => some .clear | 1 => some .alarm | 2 => some .fault | _ => none

def readHold (b : Byte) : Option Hold :=
  match b.toNat with
  | 0 => some .released | 1 => some .held | _ => none

def readValve (b : Byte) : Option Valve :=
  match b.toNat with
  | 0 => some .closed | 1 => some .discharged | _ => none

def readMode (b : Byte) : Option AirMode :=
  match b.toNat with
  | 0 => some .stop | 1 => some .hold | 2 => some .dry | 3 => some .wet | _ => none

def readDoor (b : Byte) : Option Door :=
  match b.toNat with
  | 0 => some .closed | 1 => some .opened | _ => none

def readLock (b : Byte) : Option Lock :=
  match b.toNat with
  | 0 => some .locked | 1 => some .unlocked | _ => none

def readPurge (b : Byte) : Option PurgeCmd :=
  match b.toNat with
  | 0 => some .stop | 1 => some .run | _ => none

/-- The state fields of a report of a kind; none where bytes are missing or a code is not listed
(log 13). A fault byte other than 0x00 is a fault flag that is set (log 44). -/
def readState : NodeKind → List Byte → Option NodeState
  | .probe, rh1 :: rh0 :: t1 :: t0 :: fault :: _ =>
    some (.probe { rh := read16 rh1 rh0, temp := readTemp t1 t0, fault := fault != 0 })
  | .fire, a :: b :: hold :: valve :: _ =>
    match readHead a, readHead b, readHold hold, readValve valve with
    | some a, some b, some h, some v => some (.fire a b h v)
    | _, _, _, _ => none
  | .air, mode :: _ => (readMode mode).map .air
  | .hatch, d1 :: d2 :: d3 :: l1 :: l2 :: l3 :: rh1 :: rh0 :: p :: _ =>
    match readDoor d1, readDoor d2, readDoor d3, readLock l1, readLock l2, readLock l3, readPurge p with
    | some room, some store, some exit, some rl, some sl, some el, some pc =>
      some (.hatch { room := room, store := store, exit := exit, roomLock := rl, storeLock := sl,
                     exitLock := el, rh := read16 rh1 rh0, purge := pc })
    | _, _, _, _, _, _, _ => none
  | .shelf, _ => some .none
  | .rack, _ => some .none
  | .terminal, _ => some .none
  | .probe, _ | .fire, _ | .air, _ | .hatch, _ => none

/-- One event of Table 1-9 and the bytes after it: `some none` for a code that belongs to no kind, which
Table 1-9 gives no data (log 13); none where the event is cut short. -/
def readEvent : List Byte → Option (Option FieldEvent × List Byte)
  | [] => none
  | code :: bs =>
    match code.toNat with
    | 0 => if bs.length < 10 then none
           else some (some (.inserted (readBytes (bs.take 2)) (readLabel ((bs.drop 2).take 8))), bs.drop 10)
    | 1 => if bs.length < 2 then none else some (some (.removed (readBytes (bs.take 2))), bs.drop 2)
    | 2 => if bs.length < 8 then none else some (some (.entered (readLabel (bs.take 8))), bs.drop 8)
    | 3 => if bs.length < 8 then none else some (some (.left (readLabel (bs.take 8))), bs.drop 8)
    | 4 => if bs.length < 6 then none
           else some (some (.token (readBytes (bs.take 2)) (readBytes ((bs.drop 2).take 3))
                        (readBytes ((bs.drop 5).take 1))), bs.drop 6)
    | 5 => some (some .confirm, bs)
    | 6 => some (some .cancel, bs)
    | _ => some (none, bs)

/-- The events of a batch, in the order the report lists them. One whose code belongs to no kind is
dropped (R34); the list ends at one that is cut short (log 13). -/
def readEvents : Nat → List Byte → List FieldEvent
  | 0, _ => []
  | n + 1, bs =>
    match readEvent bs with
    | none => []
    | some (e, rest) => e.toList ++ readEvents n rest

/-- The entries of a SHELF or RACK segment: place, occupied, label. An occupied byte other than 0x00 is set
(log 44); the list ends at an entry that is cut short (log 13). -/
def readEntries : Nat → List Byte → List SnapEntry
  | 0, _ => []
  | n + 1, bs =>
    if bs.length < 11 then []
    else
      { place := readBytes (bs.take 2), occupied := ((bs.drop 2).headD 0) != 0,
        label := readLabel ((bs.drop 3).take 8) } :: readEntries n (bs.drop 11)

/-- The entries of a HATCH segment: labels in order of entry. -/
def readHatchEntries : Nat → List Byte → List SnapEntry
  | 0, _ => []
  | n + 1, bs =>
    if bs.length < 8 then []
    else
      { place := 0, occupied := true, label := readLabel (bs.take 8) } :: readHatchEntries n (bs.drop 8)

/-- The items of a report: a batch of events, or a snapshot segment. -/
inductive Items where
  | events (es : List FieldEvent)
  | segment (es : List SnapEntry)
  deriving DecidableEq, Repr

/-- Whether a kind of node has snapshots (section 3.2). -/
def NodeKind.hasSnapshot : NodeKind → Bool
  | .shelf | .rack | .hatch => true
  | .probe | .fire | .air | .terminal => false

/-- The items of a report of a kind: a fresh SHELF, RACK or HATCH report carries a segment (R35), every
other report events (R33, R37). -/
def readItems (k : NodeKind) (r : Report) : Items :=
  if r.fresh && k.hasSnapshot then
    match k with
    | .hatch => .segment (readHatchEntries r.count r.items)
    | .probe | .fire | .air | .shelf | .rack | .terminal => .segment (readEntries r.count r.items)
  else .events (readEvents r.count r.items)

end Sys2Proof.Machine
end

