-- ==== Sys2Proof/Machine/Flags.lean ====
section
/-! DEFINITION. Flags: the conditions one block works out from the state: zones of slots and records
(R22), fire conditions (R111, R125, R126), the rack's pause (R101), readings and limits (R84 to R91),
door requests, exit holds and the wanted locks (R133, R134, R154), the pending purge (R139). -/

namespace Sys2Proof.Machine

/-- The store zones in ascending order. -/
def zoneIds : List (Fin 8) := [0, 1, 2, 3, 4, 5, 6, 7]

/-- The rack positions in ascending order. -/
def rackIds : List (Fin 12) := [0, 1, 2, 3, 4, 5, 6, 7, 8, 9, 10, 11]

namespace State

/-- The working value of a parameter. -/
def param (s : State) (p : Param) : Nat := s.settings.params.value p

/-- The rack zone (parameter 0x04). -/
def rackZone (s : State) : Fin 8 := Fin.ofNat 8 (s.param .rackZone)

/-- The hatch zone (parameter 0x05). -/
def hatchZone (s : State) : Fin 8 := Fin.ofNat 8 (s.param .hatchZone)

/-- The settings of a store zone. -/
def zone (s : State) (z : Fin 8) : ZoneSettings := s.settings.zones[z]

/-- The fire record of a store zone. -/
def zoneFire (s : State) (z : Fin 8) : ZoneFire := s.fire.zones[z]

/-- The control and excursion record of a store zone. -/
def zoneClimate (s : State) (z : Fin 8) : ZoneClimate := s.climate.zones[z]

/-- The reading record of a store zone or of ROOM. -/
def airAt (s : State) (z : Fin 9) : AirReading := s.climate.air[z]

/-- The record at a record place. -/
def record? (s : State) (i : Nat) : Option Record := s.custody.records.get? i

/-- The order in an order slot. -/
def order? (s : State) (k : Nat) : Option Order := s.orders.get? k

/-- The node bound at an index. -/
def node? (s : State) (i : Nat) : Option Node := s.nodes.get? i

/-- The context in a slot, LIVE or ENDED. -/
def context? (s : State) (c : Nat) : Option Context := s.handover.contexts.get? c

/-- The roster entry at a place. -/
def courierAt? (s : State) (i : Nat) : Option Courier := s.handover.roster.get? i

/-- The part has power and is not held by RST (R175). -/
def up (s : State) : Bool := s.device.powered && !s.device.rst && !s.device.powerOnPending

end State

/-! ## Zones (chapter 2) -/

/-- A slot as a reading point of ROOM's numbering: store zone z is reading point z. -/
def airZone (z : Fin 8) : Fin 9 := Fin.ofNat 9 z.val

/-- ROOM, reading point 8. -/
def roomPoint : Fin 9 := 8

/-- A window contains a slot (R17). -/
def windowHas (w : Option Window) (n : Nat) : Bool :=
  match w with
  | some w => decide (w.base ≤ n) && decide (n ≤ w.limit)
  | none => false

/-- A slot's zone in a zone table: the zone whose window contains it (R17). -/
def zoneOfSlotIn (zones : Vector ZoneSettings 8) (n : Nat) : Option (Fin 8) :=
  zoneIds.find? fun z => windowHas zones[z].window n

/-- A slot's zone in the working settings (R17). -/
def zoneOfSlot (s : State) (n : Nat) : Option (Fin 8) := zoneOfSlotIn s.settings.zones n

/-- The zone a location lies in (R22). -/
def zoneOfLocation (s : State) : Location → Option (Fin 8)
  | .slot n => zoneOfSlot s n
  | .rack _ => some s.rackZone
  | .hatch | .inHand | .courier _ | .unknown => none

/-- Walks a slot range through the windows: the first slot not yet covered, after at most fuel
windows, is beyond the limit. -/
def coveredFrom (zones : Vector ZoneSettings 8) : Nat → Nat → Nat → Bool
  | 0, pos, limit => decide (limit < pos)
  | fuel + 1, pos, limit =>
    if limit < pos then true
    else
      match zoneOfSlotIn zones pos with
      | none => false
      | some z =>
        match zones[z].window with
        | none => false
        | some w => coveredFrom zones fuel (w.limit + 1) limit

/-- Every slot from base to limit lies in some window (R24). -/
def rangeCovered (zones : Vector ZoneSettings 8) (base limit : Nat) : Bool :=
  coveredFrom zones 8 base limit

/-- Two ranges share a slot. -/
def rangesMeet (b1 l1 b2 l2 : Nat) : Bool := decide (b1 ≤ l2) && decide (b2 ≤ l1)

/-- Two windows share a slot. -/
def windowsMeet (a b : Option Window) : Bool :=
  match a, b with
  | some a, some b => rangesMeet a.base a.limit b.base b.limit
  | _, _ => false

/-! ## Nodes (chapter 2) -/

/-- A target's kind. -/
def Target.kind : Target → NodeKind
  | .probe _ => .probe | .fire _ => .fire | .air _ => .air | .shelf .. => .shelf
  | .rack => .rack | .hatch => .hatch | .terminal => .terminal

/-- A bound entry's kind. -/
def Node.kind (n : Node) : NodeKind := n.binding.target.kind

/-- A bound entry's zones (R24). -/
def targetZones (s : State) : Target → List (Fin 8)
  | .probe z => zoneIds.filter fun y => y.val == z.val
  | .fire z => [z]
  | .air z => [z]
  | .shelf base limit => zoneIds.filter fun z =>
      match (s.zone z).window with
      | some w => rangesMeet w.base w.limit base limit
      | none => false
  | .rack => [s.rackZone]
  | .hatch => [s.hatchZone]
  | .terminal => []

/-- The lowest index bound to a target. -/
def findNode (nodes : Table Node) (t : Target) : Option Nat :=
  (nodes.find? fun p => p.2.binding.target == t).map (·.1)

/-- The index of a node of the field command queue's use: not OFFLINE and not MISMATCH (R39). -/
def usableNode (s : State) (i : Nat) : Bool :=
  match s.node? i with
  | some n => n.health == .online || n.health == .suspect
  | none => false

/-! ## Fire (chapter 8) -/

/-- In fire: CONFIRMED or later (R111). -/
def FireState.inFire : FireState → Bool
  | .normal | .alert => false
  | .confirmed | .countdown | .paused | .releasing | .discharged => true

/-- COUNTDOWN, PAUSED, RELEASING or DISCHARGED (R89). -/
def FireState.suspends : FireState → Bool
  | .normal | .alert | .confirmed => false
  | .countdown | .paused | .releasing | .discharged => true

/-- Some zone is in fire. -/
def someFire (s : State) : Bool := zoneIds.any fun z => (s.zoneFire z).state.inFire

/-- The fire lockout: some zone is in fire and unacknowledged (R126). -/
def lockout (s : State) : Bool :=
  zoneIds.any fun z => (s.zoneFire z).state.inFire && !(s.zoneFire z).acknowledged

/-- The condition that drives ALARM OUT (R125). -/
def alarmWanted (s : State) : Bool :=
  zoneIds.any fun z =>
    (s.zoneFire z).state.inFire && !(s.zoneFire z).acknowledged && (s.zoneFire z).ackExpired

/-- A head as it is reported while the flag equipment lost stands (R113). -/
def shownHead (f : ZoneFire) (h : Head) : Head := if f.equipmentLost then .fault else h

/-- A zone's ZONE_FIRE notice (R130). -/
def zoneFireNotice (s : State) (z : Fin 8) : Notice :=
  let f := s.zoneFire z
  .zoneFire z f.state (shownHead f f.headA) (shownHead f f.headB) f.acknowledged f.drill

/-! ## Custody (chapter 4) -/

/-- The record places in ascending order. -/
def recordPlaces (s : State) : List Nat := s.custody.records.places

/-- The record that holds a label. -/
def findLabel (s : State) (l : Label) : Option Nat :=
  (s.custody.records.find? fun p => p.2.label == l).map (·.1)

/-- The record at a location; of two at one slot, the one in the lowest place alone (log 57). -/
def findAt (s : State) (loc : Location) : Option Nat :=
  (s.custody.records.find? fun p => p.2.location == loc).map (·.1)

/-- The record at a location other than a given one; of two, the one in the lowest place alone (log 57). -/
def findOtherAt (s : State) (loc : Location) (i : Nat) : Option Nat :=
  (s.custody.records.find? fun p => p.2.location == loc && p.1 != i).map (·.1)

/-- The records that meet a condition, in ascending order. -/
def recordsWhere (s : State) (p : Record → Bool) : List Nat :=
  (s.custody.records.filter fun q => p q.2).map (·.1)

/-- The number of records in a custody state, whatever its direction or reason. -/
def countState (s : State) (code : Nat) : Nat :=
  (s.custody.records.filter fun q => q.2.state.code == code).length

/-- BLOCKED, whatever the reason. -/
def CState.isBlocked : CState → Bool
  | .blocked _ => true
  | .shelved | .reserved | .picked | .conditioning _ | .ready _ | .staged | .out | .inbound
  | .received | .loose => false

/-- BLOCKED_CHANGED as it stands (R53). -/
def blockedNotice (s : State) : Notice :=
  .blockedChanged (countState s 10)
    (match s.custody.newestBlocked with
     | none => none
     | some i =>
       match s.record? i with
       | none => none
       | some r => r.state.reason.map fun b => (r.label, b))

/-! ## Orders (chapter 5) -/

/-- The handed count (R69). -/
def Order.handedCount (o : Order) : Nat := (o.entries.filter (·.handed)).length

/-- The records of an order's unhanded entries, in list order. -/
def Order.unhanded (o : Order) : List Nat := (o.entries.filter fun e => !e.handed).map (·.record)

/-- FINISHED. -/
def OrderState.isFinished : OrderState → Bool
  | .finished _ => true
  | .opened | .ready | .inHandover _ => false

/-- OPEN or READY: the states in which a deadline counts (R75). -/
def OrderState.isWaiting : OrderState → Bool
  | .opened | .ready => true
  | .inHandover _ | .finished _ => false

/-- A record is READY/OUTBOUND. -/
def isReadyOutbound (s : State) (i : Nat) : Bool :=
  match s.record? i with
  | some r => r.state == .ready .outbound
  | none => false

/-- OPEN or READY as the records call for (R72). -/
def workedOut (s : State) (o : Order) : OrderState :=
  if o.unhanded.all (isReadyOutbound s) then .ready else .opened

/-- An order's ORDER_STATE notice (R69). -/
def orderNotice (k : Nat) (o : Order) : Notice :=
  .orderState k o.tag o.state o.handedCount o.entries.length

/-- The slot of the order with a tag. -/
def findOrder (s : State) (tag : Nat) : Option Nat :=
  (s.orders.find? fun p => p.2.tag == tag).map (·.1)

/-- The courier has an order that is not FINISHED. -/
def courierHasOrder (s : State) (id : Nat) : Bool :=
  s.orders.any fun p => p.2.courier == id && !p.2.state.isFinished

/-- The courier has an unhanded READY/OUTBOUND entry in an order that is not FINISHED (R72). -/
def courierHasReady (s : State) (id : Nat) : Bool :=
  s.orders.any fun p =>
    p.2.courier == id && !p.2.state.isFinished && p.2.unhanded.any (isReadyOutbound s)

/-! ## Climate (chapter 6) -/

/-- A report's values lie in range (R83, R84). -/
def ProbeReport.inRange (r : ProbeReport) : Bool :=
  decide (r.rh ≤ 1000) && decide (-200 ≤ r.temp) && decide (r.temp ≤ 600)

/-- A probe's usable reading (R84): none while it is erased. -/
def usableReading (s : State) (i : Nat) : Option (Nat × Int) :=
  match s.climate.probes.get? i, s.node? i with
  | some p, some n =>
    match p.report with
    | none => none
    | some r =>
      if !r.fault && r.inRange && n.health == .online && p.age.isSome then some (r.rh, r.temp) else none
  | _, _ => none

/-- The probes bound to a zone or to ROOM, ascending: the first is the lead probe (R85). -/
def probesOf (nodes : Table Node) (z : Fin 9) : List Nat :=
  (nodes.filter fun p => p.2.binding.target == .probe z).map (·.1)

/-- The mean of two values, an odd sum rounded to the higher tenth (R85). -/
def meanRh (a b : Nat) : Nat := (a + b + 1) / 2

/-- The mean of two temperatures, an odd sum rounded to the higher tenth (R85). -/
def meanTemp (a b : Int) : Int := (a + b + 1) / 2

/-- The zone reading from the usable readings of the lead probe and the other (R85). -/
def combine (disagree : Bool) : Option (Nat × Int) → Option (Nat × Int) → Option (Nat × Int)
  | none, none => none
  | some a, none => some a
  | none, some b => some b
  | some a, some b =>
    if disagree then (if a.1 < b.1 then some b else some a)
    else some (meanRh a.1 b.1, meanTemp a.2 b.2)

/-- The zone reading as R85 works it out. -/
def workedReading (s : State) (z : Fin 9) : Option (Nat × Int) :=
  match probesOf s.nodes z with
  | [] => none
  | [a] => usableReading s a
  | a :: b :: _ => combine (s.airAt z).disagree (usableReading s a) (usableReading s b)

/-- R88, the rows for UNKNOWN or HOLDING. -/
def controlFromHolding (c : ClimateSettings) (rh : Nat) : Control :=
  if c.setpoint + c.deadband / 2 < rh then .drying
  else if rh < c.setpoint - c.deadband / 2 then .wetting
  else .holding

/-- R88: the control state after an evaluation. SUSPENDED is not evaluated. -/
def controlAfter (c : ClimateSettings) (before : Control) (reading : Option (Nat × Int)) : Control :=
  match before, reading with
  | .suspended, _ => .suspended
  | .unknown, none | .holding, none | .drying, none | .wetting, none => .unknown
  | .unknown, some r | .holding, some r => controlFromHolding c r.1
  | .drying, some r => if c.setpoint < r.1 then .drying else controlFromHolding c r.1
  | .wetting, some r => if r.1 < c.setpoint then .wetting else controlFromHolding c r.1

/-- The air mode a control state calls for (R90). -/
def Control.mode : Control → AirMode
  | .unknown => .hold | .holding => .hold | .drying => .dry | .wetting => .wet | .suspended => .stop

/-- A reading is in limits (section 6.4): a value equal to a limit is in limits. -/
def inLimits (c : ClimateSettings) (r : Nat × Int) : Bool :=
  decide (c.rhLow ≤ r.1) && decide (r.1 ≤ c.rhHigh) && decide (c.tempLow ≤ r.2) && decide (r.2 ≤ c.tempHigh)

/-- A zone's ZONE_CLIMATE notice (R96). -/
def zoneClimateNotice (s : State) (z : Fin 8) : Notice :=
  let c := s.zoneClimate z
  let a := s.airAt (airZone z)
  .zoneClimate z c.control c.excursion a.disagree a.reading c.minutes

/-! ## Rack (chapter 7) -/

/-- The rack's pause condition (R101). -/
def rackPauseWanted (s : State) : Bool :=
  let e := (s.zoneClimate s.rackZone).excursion
  e == .excursion || e == .exposing || (s.zoneFire s.rackZone).state.inFire

/-- The difference of two readings in whole percent, rounded up (R99). -/
def percentUp (a b : Nat) : Nat := ((if a < b then b - a else a - b) + 9) / 10

/-- A dwell's length in minutes (R99), from the readings of ROOM and of the home zone. -/
def dwellMinutes (s : State) (room home : Option (Nat × Int)) (exposed : Bool) : Nat :=
  let length :=
    match room, home with
    | some r, some h => s.param .dwellBase + s.param .dwellSlope * percentUp r.1 h.1
    | _, _ => s.param .dwellFallback
  min Config.longestDwell (if exposed then 2 * length else length)

/-- The reading of a slot's home zone. -/
def homeReading (s : State) (home : Nat) : Option (Nat × Int) :=
  match zoneOfSlot s home with
  | some z => (s.airAt (airZone z)).reading
  | none => none

/-! ## Handovers and hatch (chapters 9 and 10) -/

/-- A context is live while its slot is LIVE (R152). -/
def Context.live (c : Context) : Bool := c.finish.isNone

/-- The live context in a slot. -/
def liveContext? (s : State) (c : Nat) : Option Context :=
  match s.context? c with
  | some x => if x.live then some x else none
  | none => none

/-- Some context is live. -/
def someLive (s : State) : Bool := s.handover.contexts.any fun p => p.2.live

/-- The courier has a live context: its slot. -/
def courierContext (s : State) (id : Nat) : Option Nat :=
  (s.handover.contexts.find? fun p => p.2.live && p.2.courier == id).map (·.1)

/-- The roster place of a courier ID. -/
def findCourier (s : State) (id : Nat) : Option Nat :=
  (s.handover.roster.find? fun p => p.2.id == id).map (·.1)

/-- The doors a context can ask for (R133). -/
inductive DoorRequest where | none | store | room
  deriving DecidableEq, Repr

/-- The door request of a phase (R154). -/
def Phase.doorRequest : Phase → DoorRequest
  | .loading | .unloading => .store
  | .collecting | .recall | .loadingIn | .recallReturn => .room
  | .waitHatch | .awaitRelease | .waitDry | .ended => .none

/-- The sides of a phase (R154). -/
inductive Side where | store | room | closed
  deriving DecidableEq, Repr

def Phase.side : Phase → Side
  | .loading | .unloading => .store
  | .collecting | .recall | .loadingIn | .recallReturn => .room
  | .waitHatch | .awaitRelease | .waitDry | .ended => .closed

/-- AWAIT_RELEASE and WAIT_DRY are yieldable (R138). -/
def Phase.yieldable : Phase → Bool
  | .awaitRelease | .waitDry => true
  | .waitHatch | .loading | .collecting | .recall | .unloading | .loadingIn | .recallReturn
  | .ended => false

/-- A context places an exit hold: outbound in COLLECTING, AWAIT_RELEASE or RECALL (R134). -/
def Context.exitHold (c : Context) : Bool :=
  c.live && c.direction == .outbound &&
    (c.phase == .collecting || c.phase == .awaitRelease || c.phase == .recall)

/-- The door request in force: the owning context's, else none (R133). -/
def doorRequest (s : State) : DoorRequest :=
  match s.hatch.owner with
  | .context c =>
    match s.context? c with
    | some x => x.phase.doorRequest
    | none => .none
  | .nobody | .purge | .fire => .none

/-- A door as last reported, held OPEN before the first report (R132). -/
def roomDoor (s : State) : Door := (s.hatch.report.map (·.room)).getD .opened
def storeDoor (s : State) : Door := (s.hatch.report.map (·.store)).getD .opened
def exitDoor (s : State) : Door := (s.hatch.report.map (·.exit)).getD .opened

/-- The store lock the door request calls for. A door request names one door, so the room lock is
commanded LOCKED whenever the request is STORE (R133). -/
def storeLockWanted (s : State) : Lock :=
  if doorRequest s = .store ∧ s.hatch.air = .dry ∧ roomDoor s = .closed then .unlocked else .locked

/-- The room lock the door request calls for (R133). -/
def roomLockWanted (s : State) : Lock :=
  if doorRequest s = .room ∧ storeDoor s = .closed then .unlocked else .locked

/-- The exit lock: LOCKED while an exit hold is placed and no zone is in fire (R134). -/
def exitLockWanted (s : State) : Lock :=
  if (s.handover.contexts.any fun p => p.2.exitHold) && !someFire s then .locked else .unlocked

/-- A purge is pending (R139). -/
def purgePending (s : State) : Bool :=
  s.hatch.air == .wet && roomDoor s == .closed && storeDoor s == .closed && s.hatch.retry.isNone &&
  (!s.hatch.contents.isEmpty ||
    (s.hatch.waiting.any fun c =>
      match s.context? c with
      | some x => x.direction == .outbound
      | none => false) ||
    (match s.hatch.owner with
     | .context c =>
       (match s.context? c with
        | some x => x.phase == .waitDry
        | none => false)
     | .nobody | .purge | .fire => false))

/-- The purge completion test (R141). -/
def purgeTest (s : State) : Bool :=
  match s.hatch.purge, (s.airAt (airZone s.hatchZone)).reading, s.hatch.report with
  | some run, some r, some h => run.reportTaken && decide (h.rh ≤ r.1 + s.param .purgeMargin)
  | _, _, _ => false

/-- The wet-dwell condition (R144). -/
def wetDwellWanted (s : State) : Bool :=
  s.hatch.air == .wet && s.hatch.contents.any fun l => (findLabel s l).isSome

/-- The taken entries of a manifest. -/
def Context.takenEntries (c : Context) : Nat := (c.manifest.filter (·.taken)).length

/-- The taken count (R152). -/
def Context.takenCount (c : Context) : Nat :=
  match c.direction with
  | .outbound => c.takenEntries + c.accepted
  | .returning => c.accepted

/-- A record is in a context's manifest. -/
def Context.holds (c : Context) (i : Nat) : Bool := c.manifest.any fun e => e.record == i

/-- The manifest and the rejected list have room for one more (R152). -/
def Context.hasRoom (c : Context) : Bool :=
  decide (c.manifest.length + c.rejected.length < Config.hatchCapacity)

/-- A context's HANDOVER_STATE notice (R152, R168). -/
def handoverNotice (c : Nat) (x : Context) : Notice :=
  .handoverState c x.courier x.direction x.phase (x.finish.map (·.2)) (x.finish.map (·.1))
    x.manifest.length x.takenCount

/-- The OUT records of a courier: those not yet in a return manifest (Table 10-1, PLACE_ITEMS). -/
def outWith (s : State) (id : Nat) : Nat :=
  (recordsWhere s fun r => r.state == .out && r.custodian == some id).length

/-- The terminal context (R150): the owner, else the yielded context, else the head of the list. -/
def terminalContext (s : State) : Option Nat :=
  match s.hatch.owner with
  | .context c => some c
  | .nobody | .purge | .fire =>
    match s.hatch.yielded with
    | some c => some c
    | none => s.hatch.waiting.head?

/-- FLDE: asserted while the part transmits on the field link (Table 0-5), and held deasserted while the
part is held (R175). -/
def State.flde (s : State) : Bool :=
  s.up &&
    (match s.link.activity with
     | .broadcasting _ | .sending _ => true
     | .idle | .awaiting .. => false)

end Sys2Proof.Machine
end

