-- ==== Sys2Proof/Machine/Ops.lean ====
section
/-! DEFINITION. Ops: the shared operations. Posting a notice (R13) and a node command (R38), writing an
image (R171, R172), changing a record and telling the blocks that depend on it (R50 to R54), and the
Order Queue's part of that (R72 to R80), which the same event carries. -/

namespace Sys2Proof.Machine

/-! ## Notices and node commands -/

/-- R13: posts a notice under its key, replacing what waits there. -/
def post (n : Notice) (s : State) : State :=
  s.withNotices { s.notices with pending := s.notices.pending.put n.rank n }

/-- R38, new and existing key: the entry of a node and command goes to the tail with its latest data. -/
def postTo (node : Nat) (cmd : CmdKind) (data : List Byte) (s : State) : State :=
  s.withLink { s.link with
    queue := (s.link.queue.filter fun e => !(e.node == node && e.cmd == cmd)) ++
      [{ node := node, cmd := cmd, data := data, inFlight := false }] }

/-- R38: posts a command for the node bound to a target; dropped where none is bound. -/
def postCommand (t : Target) (cmd : CmdKind) (data : List Byte) (s : State) : State :=
  match findNode s.nodes t with
  | some i => postTo i cmd data s
  | none => s

/-- The queue holds an entry of a command for a target's node. -/
def hasEntry (s : State) (t : Target) (cmd : CmdKind) : Bool :=
  match findNode s.nodes t with
  | some i => s.link.queue.any fun e => e.node == i && e.cmd == cmd
  | none => false

/-- R90: posts MODE with the mode the zone's control state calls for. -/
def postMode (z : Fin 8) (s : State) : State :=
  postCommand (.air z) .mode [byteOf (s.zoneClimate z).control.mode.code] s

/-- R118: posts RELEASE for a zone's FIRE node. -/
def postRelease (z : Fin 8) (s : State) : State := postCommand (.fire z) .release [] s

/-- R150: posts a prompt with its 16-bit argument. -/
def postPrompt (p : Prompt) (arg : Nat) (s : State) : State :=
  postCommand .terminal .prompt (byteOf p.code :: field16 arg) s

/-- Posts SIGNAL_REJECT to the HATCH node. -/
def signalReject (s : State) : State := postCommand .hatch .signalReject [] s

/-! ## The retained store -/

/-- Whether the next write fails its comparison: as the medium's script says, else a free value (log 7). -/
def Store.nextFails (st : Store) : Bool :=
  match st.script with
  | b :: _ => b
  | [] => Config.writeFails st.writes

/-- The image after a write (R171): the copy that fails its check, or else the one with the lower
write number, takes the value with a number one above the other copy's. Where both copies fail their checks
it is the first (log 50). A write that fails leaves that copy failing its check (log 8). -/
def Image.written {α : Type} (img : Image α) (fails : Bool) (v : α) : Image α :=
  if !img.first.sound || (img.second.sound && decide (img.first.number ≤ img.second.number)) then
    { img with first := { number := img.second.number + 1, sound := !fails, value := v } }
  else
    { img with second := { number := img.first.number + 1, sound := !fails, value := v } }

/-- What is loaded from an image (R171): the sound copy with the higher write number; none where both
copies fail their checks. -/
def Image.loaded {α : Type} (img : Image α) : Option α :=
  let newer := if img.first.number < img.second.number then img.second else img.first
  let older := if img.first.number < img.second.number then img.first else img.second
  if newer.sound then some newer.value else if older.sound then some older.value else none

/-- R172: faults the store; STORE_FAULT is posted when the flag rises. -/
def faultStore (s : State) : State :=
  if s.device.storeFault then s
  else post .storeFault (s.withDevice { s.device with storeFault := true })

/-- What follows a write: nothing more where it was verified, else the store is faulted (R172). -/
def afterWrite (fails : Bool) (s : State) : State := if fails then faultStore s else s

/-- The retained fields of a record (R50). -/
def Record.retained (r : Record) : RecordData :=
  { label := r.label, home := r.home, state := r.state, location := r.location,
    custodian := r.custodian, exposed := r.exposed }

/-- Writes the image of a record place as the working copy holds it (R52, R171). -/
def writeRecord (i : Nat) (s : State) : State :=
  let st := s.store
  let old := st.records.get? i
  let img := (old.getD .factory).written st.nextFails ((s.record? i).map Record.retained)
  afterWrite st.nextFails
    (s.withStore { st with
      records := st.records.put i img, undo := .record i old :: st.undo,
      script := st.script.tail, writes := st.writes + 1 })

/-- Writes the image of a roster entry as the working copy holds it (R147, R171). -/
def writeCourier (i : Nat) (s : State) : State :=
  let st := s.store
  let old := st.roster.get? i
  let img := (old.getD .factory).written st.nextFails (s.courierAt? i)
  afterWrite st.nextFails
    (s.withStore { st with
      roster := st.roster.put i img, undo := .courier i old :: st.undo,
      script := st.script.tail, writes := st.writes + 1 })

/-- The contents of the settings image as the working copy stands (R171, R173). -/
def settingsData (s : State) : SettingsData :=
  { params := s.settings.params, zones := s.settings.zones,
    bindings := s.nodes.map fun p => (p.1, p.2.binding) }

/-- Writes the settings image (R173). -/
def writeSettings (s : State) : State :=
  let st := s.store
  afterWrite st.nextFails
    (s.withStore { st with
      settings := st.settings.written st.nextFails (some (settingsData s)),
      undo := .settings st.settings :: st.undo,
      script := st.script.tail, writes := st.writes + 1 })

/-- Takes back one image write that power loss overtook (R171). -/
def undoOne (u : Undo) (st : Store) : Store :=
  match u with
  | .settings old => { st with settings := old }
  | .record i old => { st with records := st.records.set i old }
  | .courier i old => { st with roster := st.roster.set i old }

/-- Takes back the last n writes of the event under way, the latest first. -/
def undoWrites (n : Nat) (st : Store) : Store :=
  { ((st.undo.take n).foldl (fun st u => undoOne u st) st) with undo := [] }

/-! ## Records -/

/-- Who claims a record change (R54); a handover claim names its context (R73). -/
inductive Claimant where
  | custody | orders | rack | climate | hatch | fire
  | handover (context : Nat)
  deriving DecidableEq, Repr

/-- R51: the custodian a record carries in its new state and place. It is kept when OUT or INBOUND, the
courier of the place when BLOCKED at COURIER, and dropped otherwise. -/
def custodianOf (r : Record) : Option Nat :=
  match r.state, r.location with
  | .out, _ => r.custodian
  | .inbound, _ => r.custodian
  | .blocked _, .courier id => some (r.custodian.getD id)
  | _, _ => none

/-- R50: the carry deadline is dropped out of READY/OUTBOUND at IN_HAND. -/
def carryOf (r : Record) : Option Carry :=
  match r.state, r.location with
  | .ready .outbound, .inHand => r.carry
  | _, _ => none

/-- A record with the fields dropped that its new state and place do not allow (R50, R51). -/
def normalise (r : Record) : Record := { r with custodian := custodianOf r, carry := carryOf r }

/-- Puts a record into the working copy. -/
def putRecord (i : Nat) (r : Record) (s : State) : State :=
  s.withCustody { s.custody with records := s.custody.records.put i r }

/-- Sets the newest-blocked reference. -/
def setNewest (n : Option Nat) (s : State) : State :=
  s.withCustody { s.custody with newestBlocked := n }

/-- R53: what entering or leaving BLOCKED does to the reference and the notice. A sweep posts once, at
its end (R55): `quiet`. -/
def blockedNote (quiet : Bool) (i : Nat) (before after : CState) (s : State) : State :=
  match before.isBlocked, after.isBlocked with
  | false, true =>
    let s := setNewest (some i) s
    if quiet then s else post (blockedNotice s) s
  | true, false =>
    let s := if s.custody.newestBlocked = some i then setNewest none s else s
    post (blockedNotice s) s
  | true, true => s
  | false, false => s

/-- R52: the change itself: the working copy, the image, the BLOCKED bookkeeping. -/
def basicChange (quiet : Bool) (i : Nat) (new : Record) (s : State) : State :=
  match s.record? i with
  | none => s
  | some old =>
    blockedNote quiet i old.state new.state (writeRecord i (putRecord i (normalise new) s))

/-- A field claim that drops a record's order slot (R74, R79, R80). -/
def dropOrderSlot (i : Nat) (s : State) : State :=
  match s.record? i with
  | none => s
  | some r => writeRecord i (putRecord i { r with orderSlot := none } s)

/-! ## Telling the rack, the handovers and the climate (R52) -/

/-- A position of the rack. -/
def State.position (s : State) (p : Fin 12) : Position := s.rack.positions[p]

/-- Sets a position of the rack. -/
def setPosition (p : Fin 12) (x : Position) (s : State) : State :=
  s.withRack { s.rack with positions := s.rack.positions.set p x }

/-- R109: posts RACK_POSITION for the position as it stands, naming the item the event concerns. -/
def postRack (p : Fin 12) (event : RackEvent) (item : Option Occupant) (s : State) : State :=
  let x := s.position p
  post
    (.rackPosition p event x.occupant.isSome x.paused
      (match item with
       | some (.record i) => some i
       | some (.foreign _) | none => none)
      (match item with
       | some (.foreign l) => some l
       | some (.record _) | none => none)
      x.dwell) s

/-- R98, R106: empties a position, discarding its dwell. -/
def emptyPosition (p : Fin 12) (s : State) : State :=
  let x := s.position p
  match x.occupant with
  | none => s
  | some o =>
    postRack p (if x.dwell.isSome then .interrupted else .removed) (some o)
      (setPosition p .empty s)

/-- R106: brings a position into line with a change another block made to its record. -/
def rackTold (i : Nat) (old : Record) (s : State) : State :=
  match old.location, s.record? i with
  | .rack p, some new =>
    let x := s.position p
    if x.occupant = some (.record i) then
      if new.location ≠ .rack p then emptyPosition p s
      else if new.state ≠ old.state ∧ x.dwell.isSome then
        postRack p .interrupted x.occupant
          (setPosition p { x with dwell := none, paused := false } s)
      else s
    else s
  | _, _ => s

/-- Sets a context slot. -/
def putContext (c : Nat) (x : Context) (s : State) : State :=
  s.withHandover { s.handover with contexts := s.handover.contexts.put c x }

/-- The prompt of a phase that shows the manifest or its taken entries (Table 10-1); the others show
none of it. -/
def manifestPrompt (c : Nat) (s : State) : State :=
  match s.context? c with
  | none => s
  | some x =>
    match x.phase with
    | .loading => postPrompt .loading x.manifest.length s
    | .collecting => postPrompt .collect x.manifest.length s
    | .loadingIn => postPrompt .placeItems (outWith s x.courier) s
    | .recall => postPrompt .returnItems x.takenEntries s
    | .recallReturn => postPrompt .takeBack x.manifest.length s
    | .waitHatch | .awaitRelease | .waitDry | .unloading | .ended => s

/-- Takes a record out of a context's manifest. -/
def dropManifest (c i : Nat) (s : State) : State :=
  match s.context? c with
  | none => s
  | some x => putContext c { x with manifest := x.manifest.filter fun e => e.record != i } s

/-- R152: a manifest record that another block took out of STAGED or INBOUND leaves the manifest, and
the manifest prompt is posted again. -/
def handoverTold (i : Nat) (old : Record) (s : State) : State :=
  match old.state, s.record? i with
  | .staged, some new | .inbound, some new =>
    if new.state = .staged ∨ new.state = .inbound then s
    else
      [0, 1].foldl (fun s c =>
        match liveContext? s c with
        | some x => if x.holds i then manifestPrompt c (dropManifest c i s) else s
        | none => s) s
  | _, _ => s

/-- Marks a record EXPOSED, by a claim or a sweep (R55, R93). -/
def expose (i : Nat) (s : State) : State :=
  match s.record? i with
  | none => s
  | some r =>
    if r.exposed then s else writeRecord i (putRecord i { r with exposed := true } s)

/-- R93: a record that becomes located in an EXPOSING zone is marked in the same event. -/
def climateTold (i : Nat) (old : Option Location) (s : State) : State :=
  match s.record? i with
  | none => s
  | some r =>
    if old = some r.location then s
    else
      match zoneOfLocation s r.location with
      | some z => if (s.zoneClimate z).excursion = .exposing then expose i s else s
      | none => s

/-- R52: tells the Handover Sequencer, the Rack Controller (each unless its own claim made the change)
and the Climate Controller. -/
def tellOthers (who : Claimant) (i : Nat) (old : Record) (s : State) : State :=
  let s := match who with
    | .handover _ => s
    | .custody | .orders | .rack | .climate | .hatch | .fire => handoverTold i old s
  let s := if who = .rack then s else rackTold i old s
  climateTold i (some old.location) s

/-! ## The Order Queue -/

/-- Sets an order slot. -/
def putOrder (k : Nat) (o : Order) (s : State) : State := s.withOrders (s.orders.put k o)

/-- Posts an order's ORDER_STATE as it stands (R69). -/
def postOrder (k : Nat) (s : State) : State :=
  match s.order? k with
  | some o => post (orderNotice k o) s
  | none => s

/-- R72: works OPEN or READY out afresh; a move posts ORDER_STATE. -/
def evaluateOrder (k : Nat) (s : State) : State :=
  match s.order? k with
  | none => s
  | some o =>
    if o.state.isWaiting && o.state != workedOut s o then
      postOrder k (putOrder k { o with state := workedOut s o } s)
    else s

/-- R80: what an entry's record is released to; none where no claim is made. -/
def releaseOf (r : Record) : Option Record :=
  match r.state, r.location with
  | .reserved, .slot n => if n = r.home then some { r with state := .shelved, orderSlot := none } else none
  | .picked, .inHand => some { r with state := .loose, orderSlot := none }
  | .picked, .hatch => some { r with state := .loose, orderSlot := none }
  | .conditioning .outbound, .rack _ => some { r with state := .loose, orderSlot := none }
  | .ready .outbound, .rack _ => some { r with state := .loose, orderSlot := none }
  | .ready .outbound, .inHand => some { r with state := .loose, orderSlot := none }
  | .staged, .hatch => some { r with state := .loose, orderSlot := none }
  | .staged, .courier id =>
    some { r with state := .blocked .handoverUnresolved, custodian := some id, orderSlot := none }
  | _, _ => none

/-- R80: releases one unhanded entry by claim; where no claim applies, the order slot alone is dropped.
The order slot is dropped in the change itself, so the Order Queue is not told of it again. -/
def releaseEntry (i : Nat) (s : State) : State :=
  match s.record? i with
  | none => s
  | some r =>
    match releaseOf r with
    | some new => tellOthers .orders i r (basicChange false i new s)
    | none => dropOrderSlot i s

/-- R76: finishes an order: state and outcome, deadline and context discarded, entries released,
ORDER_STATE posted. An order already FINISHED is not finished again (section 5.5). -/
def finishOrder (k : Nat) (outcome : OOutcome) (s : State) : State :=
  match s.order? k with
  | none => s
  | some o =>
    if o.state.isFinished then s
    else
      postOrder k
        (o.unhanded.foldl (fun s i => releaseEntry i s)
          (putOrder k { o with state := .finished outcome, deadline := none } s))

/-- R74: marks the entry of a record that became OUT as handed. -/
def markHanded (k i : Nat) (s : State) : State :=
  match s.order? k with
  | none => s
  | some o =>
    postOrder k
      (dropOrderSlot i
        (putOrder k { o with entries := o.entries.map fun e =>
          if e.record == i then { e with handed := true } else e } s))

/-- R72 to R74, R79: what the Order Queue does when told of a change of state of a record that carries
an order slot. -/
def orderTold (who : Claimant) (i : Nat) (s : State) : State :=
  match s.record? i with
  | none => s
  | some r =>
    match r.orderSlot with
    | none => s
    | some k =>
      match s.order? k with
      | none => s
      | some o =>
        if o.state.isFinished then s
        else
          match r.state with
          | .reserved | .picked | .conditioning .outbound | .ready .outbound => evaluateOrder k s
          | .staged =>
            match who with
            | .handover c =>
              if o.state.isWaiting then
                postOrder k (putOrder k { o with state := .inHandover c } s)
              else s
            | .custody | .orders | .rack | .climate | .hatch | .fire => s
          | .out => markHanded k i s
          | .blocked _ => finishOrder k .failedBlocked s
          | .shelved | .conditioning .returning | .ready .returning | .inbound | .received | .loose => s

/-! ## A whole change, and a claim -/

/-- R52: a change of one record as one event: the change, then the Order Queue is told of a change of
state, then the other blocks. -/
def changeRecord (who : Claimant) (quiet : Bool) (i : Nat) (new : Record) (s : State) : State :=
  match s.record? i with
  | none => s
  | some old =>
    let s := basicChange quiet i new s
    let s := if new.state ≠ old.state then orderTold who i s else s
    tellOthers who i old s

/-- R54: a claim: applied where the record is occupied and holds what is expected, else refused with
the record unchanged. -/
def claim (who : Claimant) (i : Nat) (expected : Record → Bool) (new : Record → Record) (s : State) :
    State :=
  match s.record? i with
  | none => s
  | some r => if expected r then changeRecord who false i (new r) s else s

/-- A record BLOCKED for a reason at a place; a record already BLOCKED keeps its reason. -/
def Record.blockedAt (r : Record) (reason : Reason) (loc : Location) : Record :=
  { r with state := (if r.state.isBlocked then r.state else .blocked reason), location := loc }

/-- R62, R63: a record that a snapshot does not show: BLOCKED MISSING at UNKNOWN, or its reason kept. -/
def markMissing (who : Claimant) (i : Nat) (s : State) : State :=
  claim who i (fun _ => true) (fun r => r.blockedAt .missing .unknown) s

/-- R55: an exposure sweep over the selected records. -/
def exposeAll (is : List Nat) (s : State) : State := is.foldl (fun s i => expose i s) s

/-- R55: the exposure sweep of a zone. -/
def zoneExposureSweep (z : Fin 8) (s : State) : State :=
  exposeAll (recordsWhere s fun r => zoneOfLocation s r.location == some z) s

/-- R55: the hatch exposure sweep. -/
def hatchExposureSweep (s : State) : State :=
  exposeAll (recordsWhere s fun r => r.location == .hatch) s

/-- R55, R129: the fire quarantine of a zone: every record located there that is not BLOCKED becomes
BLOCKED FIRE where it is; BLOCKED_CHANGED is posted once, after the last record. -/
def quarantine (z : Fin 8) (s : State) : State :=
  let hit := recordsWhere s fun r => zoneOfLocation s r.location == some z && !r.state.isBlocked
  let after := hit.foldl (fun s i =>
    match s.record? i with
    | some r => changeRecord .fire true i (r.blockedAt .fire r.location) s
    | none => s) s
  match hit.getLast? with
  | none => after
  | some top =>
    let after := setNewest (some top) after
    post (blockedNotice after) after

/-- R73: a context has ended: each order it engaged finishes DONE, or becomes OPEN or READY again. -/
def ordersContextEnded (c : Nat) (s : State) : State :=
  (s.orders.places).foldl (fun s k =>
    match s.order? k with
    | none => s
    | some o =>
      if o.state = .inHandover c then
        if o.unhanded.isEmpty then finishOrder k .done s
        else postOrder k (putOrder k { o with state := workedOut s o } s)
      else s) s

/-- R78: zone Z entered CONFIRMED: each order with an unhanded entry of home zone Z finishes. -/
def ordersFailFire (z : Fin 8) (s : State) : State :=
  (s.orders.places).foldl (fun s k =>
    match s.order? k with
    | none => s
    | some o =>
      if !o.state.isFinished && o.unhanded.any (fun i =>
        match s.record? i with
        | some r => zoneOfSlot s r.home == some z
        | none => false)
      then finishOrder k .failedFire s else s) s

end Sys2Proof.Machine
end

