-- ==== Sys2Proof/Machine/Rack.lean ====
section
/-! DEFINITION. Rack: departures from slots and positions (R56, R58, R59, R103), dwells (R99, R100, R104),
the pause (R101), rack insertions (R102) and snapshots (R107), carry expiry (R105). -/

namespace Sys2Proof.Machine

/-! ## Departures -/

/-- R58: a record taken from its slot. A state without a row is a conflict (section 4.2, log 19). -/
def Record.shelfDeparted (r : Record) : Record :=
  match r.state with
  | .shelved => { r with state := .blocked .unauthorisedMove, location := .inHand }
  | .reserved => { r with state := .picked, location := .inHand }
  | .loose => { r with location := .inHand }
  | .blocked _ | .picked | .conditioning _ | .ready _ | .staged | .out | .inbound | .received =>
    r.blockedAt .custodyConflict .inHand

/-- R58: the shelf departure of a record. -/
def shelfDepart (i : Nat) (s : State) : State :=
  claim .custody i (fun _ => true) Record.shelfDeparted s

/-- R58: a REMOVED event at a slot is applied to the record located there, if there is one. -/
def shelfRemoved (n : Nat) (s : State) : State :=
  match findAt s (.slot n) with
  | some i => shelfDepart i s
  | none => s

/-- R59, R103: a record taken from position p; `carry` is the carry window in ms. A RECEIVED occupant
becomes RECEIVED at IN_HAND; a state without a row is a conflict (section 4.2, log 19). -/
def Record.rackDeparted (r : Record) (p : Fin 12) (carry : Nat) : Record :=
  match r.state with
  | .conditioning .outbound => { r with state := .picked, location := .inHand }
  | .conditioning .returning => { r with state := .received, location := .inHand }
  | .ready .outbound => { r with location := .inHand, carry := some { left := carry, origin := some p } }
  | .ready .returning => { r with state := .loose, location := .inHand }
  | .loose | .received => { r with location := .inHand }
  | .blocked _ | .shelved | .reserved | .picked | .staged | .out | .inbound =>
    r.blockedAt .custodyConflict .inHand

/-- R103, R107: a record leaves position p. Where the position holds it, it is emptied; where another label
has taken the position in the same snapshot, that label stays, and the departure is posted: INTERRUPTED for a
CONDITIONING record, whose dwell is gone, else REMOVED (log 20). -/
def leavePosition (i : Nat) (p : Fin 12) (s : State) : State :=
  if (s.position p).occupant = some (.record i) then emptyPosition p s
  else
    match (s.record? i).map Record.state with
    | some (.conditioning _) => postRack p .interrupted (some (.record i)) s
    | _ => postRack p .removed (some (.record i)) s

/-- R103: the departure of a record from position p. -/
def rackDepart (i : Nat) (p : Fin 12) (s : State) : State :=
  let s := leavePosition i p s
  claim .rack i (fun _ => true) (fun r => r.rackDeparted p (s.param .carryWindow * 60000)) s

/-- R103: a REMOVED event at position p. -/
def rackRemoved (p : Fin 12) (s : State) : State :=
  match (s.position p).occupant with
  | none => s
  | some (.foreign _) => emptyPosition p s
  | some (.record i) => rackDepart i p s

/-- R56, step 2: the missed departure of a sighted record from a slot or rack position it has left. -/
def missedDeparture (i : Nat) (place : Location) (s : State) : State :=
  match s.record? i with
  | none => s
  | some r =>
    if r.location = place then s
    else
      match r.location with
      | .slot _ => shelfDepart i s
      | .rack q => rackDepart i q s
      | .hatch | .inHand | .courier _ | .unknown => s

/-! ## Dwells -/

/-- R104: a dwell completes: the record is claimed READY in its direction with EXPOSED cleared. Where the
claim is refused the dwell is discarded and nothing is posted. -/
def completeDwell (p : Fin 12) (s : State) : State :=
  let x := s.position p
  match x.occupant, x.dwell with
  | some (.record i), some _ =>
    let s := setPosition p { x with dwell := none, paused := false } s
    match s.record? i with
    | none => s
    | some r =>
      if r.location = .rack p then
        match r.state with
        | .conditioning d =>
          postRack p .completed (some (.record i))
            (changeRecord .rack false i { r with state := .ready d, exposed := false } s)
        | .shelved | .reserved | .picked | .ready _ | .staged | .out | .inbound | .received | .loose
        | .blocked _ => s
      else s
  | _, _ => s

/-- R99, R100: a dwell starts at position p for its record, paused if the rack is. A dwell of zero
length completes at once while the rack runs. -/
def startDwell (p : Fin 12) (i : Nat) (s : State) : State :=
  match s.record? i with
  | none => s
  | some r =>
    let minutes := dwellMinutes s (s.airAt roomPoint).reading (homeReading s r.home) r.exposed
    let s := postRack p .started (some (.record i))
      (setPosition p { s.position p with dwell := some (minutes * 60000), paused := s.rack.paused } s)
    if minutes = 0 ∧ s.rack.paused = false then completeDwell p s else s

/-- One position at a change of the pause condition (R101). -/
def pausePosition (paused : Bool) (p : Fin 12) (s : State) : State :=
  let x := s.position p
  match x.dwell with
  | none => s
  | some left =>
    if paused then postRack p .paused x.occupant (setPosition p { x with paused := true } s)
    else
      let s := setPosition p { x with paused := false } s
      if left = 0 then completeDwell p s else postRack p .resumed x.occupant s

/-- R101: the pause condition is worked out afresh; only a change has an effect. The positions are taken in
ascending order, so several dwells that stand at zero complete in that order at a resume (log 60). -/
def updateRackPause (s : State) : State :=
  let wanted := rackPauseWanted s
  if wanted = s.rack.paused then s
  else rackIds.foldl (fun s p => pausePosition wanted p s) (s.withRack { s.rack with paused := wanted })

/-! ## Insertions and snapshots -/

/-- R59: a record put into position p. -/
def Record.rackInserted (r : Record) (p : Fin 12) : Record :=
  match r.state, r.location with
  | .picked, _ => { r with state := .conditioning .outbound, location := .rack p }
  | .received, _ => { r with state := .conditioning .returning, location := .rack p }
  | .ready .outbound, .inHand => { r with location := .rack p }
  | .loose, _ => { r with location := .rack p }
  | _, _ => r.blockedAt .custodyConflict (.rack p)

/-- R102, step 4: the record's result is claimed, the position holds it, and a dwell starts or INSERTED
is posted. -/
def takeIntoRack (i : Nat) (p : Fin 12) (s : State) : State :=
  let s := setPosition p { occupant := some (.record i), dwell := none, paused := false } s
  let s := claim .rack i (fun _ => true) (fun r => r.rackInserted p) s
  match s.record? i with
  | none => s
  | some r =>
    match r.state with
    | .conditioning _ => startDwell p i s
    | .shelved | .reserved | .picked | .ready _ | .staged | .out | .inbound | .received | .loose
    | .blocked _ => postRack p .inserted (some (.record i)) s

/-- R102: an INSERTED event at position p. In a snapshot an occupant is not taken as departed (R62, R107):
the second pass settles it. A foreign label that the position already holds changes nothing there
(log 21). -/
def rackInserted (snapshot : Bool) (p : Fin 12) (l : Label) (s : State) : State :=
  match findLabel s l with
  | none =>
    let s := post (.foreignLabel l (.rack p)) s
    if snapshot ∧ (s.position p).occupant = some (.foreign l) then s
    else
      postRack p .inserted (some (.foreign l))
        (setPosition p { occupant := some (.foreign l), dwell := none, paused := false }
          (if snapshot then s else rackRemoved p s))
  | some i =>
    match s.record? i with
    | none => s
    | some r =>
      if r.location = .rack p then
        if r.state = .received then takeIntoRack i p s else s
      else
        let s := missedDeparture i (.rack p) s
        let s := if snapshot then s else rackRemoved p s
        takeIntoRack i p s

/-- What a RACK snapshot shows at a position: its first occupied entry there; a position without one is shown
empty (log 54). -/
def shownAt (entries : List SnapEntry) (n : Nat) : Option Label :=
  (entries.find? fun e => e.place == n && e.occupied).map (·.label)

/-- R107, second pass, at position p: records located there and not shown leave it and are marked MISSING, and
a foreign label at a position shown empty is removed. -/
def rackUnshown (entries : List SnapEntry) (p : Fin 12) (s : State) : State :=
  let gone := recordsWhere s fun r =>
    r.location == .rack p && some r.label != shownAt entries p.val
  let s := gone.foldl (fun s i => markMissing .rack i (leavePosition i p s)) s
  match (s.position p).occupant, shownAt entries p.val with
  | some (.foreign _), none => emptyPosition p s
  | _, _ => s

/-- R62, R107: a completed RACK snapshot, in its two passes. -/
def rackSnapshot (entries : List SnapEntry) (s : State) : State :=
  let s := rackIds.foldl (fun s p =>
    match shownAt entries p.val with
    | some l => rackInserted true p l s
    | none => s) s
  rackIds.foldl (fun s p => rackUnshown entries p s) s

/-- R60, R105: a carry window runs out: READY/OUTBOUND at IN_HAND becomes PICKED, and CARRY_EXPIRED is
posted under its origin. -/
def carryExpired (i : Nat) (s : State) : State :=
  match s.record? i with
  | none => s
  | some r =>
    match r.carry with
    | none => s
    | some c =>
      if r.state = .ready .outbound ∧ r.location = .inHand then
        let s := changeRecord .rack false i { r with state := .picked } s
        match c.origin with
        | some p => postRack p .carryExpired (some (.record i)) s
        | none => s
      else s

end Sys2Proof.Machine
end

