-- ==== Sys2Proof/Machine/Custody.lean ====
section
/-! DEFINITION. Custody: shelf sightings (R56, R57), the hatch tables of an unowned hatch (R61) and the
snapshots of shelves and of an unowned hatch (R62, R63). -/

namespace Sys2Proof.Machine

/-- R57: a record sighted at slot n. -/
def Record.shelfSighted (r : Record) (n : Nat) : Record :=
  match r.state with
  | .loose =>
    if n = r.home then { r with state := .shelved, location := .slot n }
    else { r with state := .blocked .misplaced, location := .slot n }
  | .picked =>
    if n = r.home then { r with state := .reserved, location := .slot n }
    else { r with state := .blocked .misplaced, location := .slot n }
  | .received => { r with state := .blocked .skippedConditioning, location := .slot n }
  | .blocked _ | .shelved | .reserved | .conditioning _ | .ready _ | .staged | .out | .inbound =>
    r.blockedAt .custodyConflict (.slot n)

/-- R56, R57: an INSERTED event at slot n. Step 3 is left out for a snapshot's entries. -/
def shelfInserted (snapshot : Bool) (n : Nat) (l : Label) (s : State) : State :=
  match findLabel s l with
  | none => post (.foreignLabel l (.slot n)) s
  | some i =>
    let s := missedDeparture i (.slot n) s
    let s :=
      if snapshot then s
      else
        match findOtherAt s (.slot n) i with
        | some j => shelfDepart j s
        | none => s
    claim .custody i (fun r => r.location != .slot n) (fun r => r.shelfSighted n) s

/-- R61: an ENTERED event while no context owns the hatch. -/
def hatchSighted (l : Label) (s : State) : State :=
  match findLabel s l with
  | none => post (.foreignLabel l .hatch) s
  | some i =>
    claim .custody i (fun r => r.location != .hatch) (fun r => r.blockedAt .custodyConflict .hatch)
      (missedDeparture i .hatch s)

/-- R61: a record taken out of the hatch while no context owns it. A state without a row is a conflict
(section 4.2, log 19). -/
def Record.hatchDeparted (r : Record) : Record :=
  match r.state with
  | .picked | .received | .loose => { r with location := .inHand }
  | .blocked _ | .staged | .inbound | .shelved | .reserved | .conditioning _ | .ready _ | .out =>
    r.blockedAt .custodyConflict .inHand

/-- R61: a LEFT event while no context owns the hatch. -/
def hatchDeparted (l : Label) (s : State) : State :=
  match findLabel s l with
  | none => s
  | some i => claim .custody i (fun r => r.location == .hatch) Record.hatchDeparted s

/-- Puts an item into a list in rising order of its key, after its equals. -/
def insertBy {α : Type} (key : α → Nat) (x : α) : List α → List α
  | [] => [x]
  | y :: ys => if key x < key y then x :: y :: ys else y :: insertBy key x ys

/-- A list in rising order of its key, equals in their order. -/
def sortBy {α : Type} (key : α → Nat) (xs : List α) : List α :=
  xs.foldl (fun acc x => insertBy key x acc) []

/-- The slot of a location, 0 for the others. -/
def Location.slotNumber : Location → Nat
  | .slot n => n
  | .rack _ | .hatch | .inHand | .courier _ | .unknown => 0

/-- A record's slot, for the order of a second pass. -/
def slotOfRecord (s : State) (i : Nat) : Nat :=
  match s.record? i with
  | some r => r.location.slotNumber
  | none => 0

/-- R62: a completed SHELF snapshot of the slots base to limit, in its two passes. Each occupied entry is taken,
also where two name one slot (log 54). -/
def shelfSnapshot (base limit : Nat) (entries : List SnapEntry) (s : State) : State :=
  let shown := sortBy SnapEntry.place (entries.filter (·.occupied))
  let s := shown.foldl (fun s e => shelfInserted true e.place e.label s) s
  let gone := recordsWhere s fun r =>
    match r.location with
    | .slot n => decide (base ≤ n) && decide (n ≤ limit) &&
        !(shown.any fun e => e.place == n && e.label == r.label)
    | .rack _ | .hatch | .inHand | .courier _ | .unknown => false
  (sortBy (slotOfRecord s) gone).foldl (fun s i => markMissing .custody i s) s

/-- R63: a completed HATCH snapshot while no context owns the hatch, in its two passes. -/
def hatchSnapshotUnowned (labels : List Label) (s : State) : State :=
  let s := labels.foldl (fun s l => hatchSighted l s) s
  let gone := recordsWhere s fun r => r.location == .hatch && !labels.contains r.label
  gone.foldl (fun s i => markMissing .custody i s) s

end Sys2Proof.Machine
end

