-- ==== Sys2Proof/Machine/Climate.lean ====
section
/-! DEFINITION. Climate: zone readings (R83 to R85), the probe-agreement test (R86, R87), control states
and air modes (R88 to R90), excursions and exposure (the withdrawn rule of section 6.4, R91 to R93). -/

namespace Sys2Proof.Machine

/-- One minute in ms. -/
def minuteMs : Nat := 60000

/-- Sets the reading record of a store zone or of ROOM. -/
def setAir (z : Fin 9) (a : AirReading) (s : State) : State :=
  s.withClimate { s.climate with air := s.climate.air.set z a }

/-- Sets the control and excursion record of a store zone. -/
def setZoneClimate (z : Fin 8) (c : ZoneClimate) (s : State) : State :=
  s.withClimate { s.climate with zones := s.climate.zones.set z c }

/-- Sets a probe's reading, or removes it. -/
def setProbe (i : Nat) (p : Option Probe) (s : State) : State :=
  s.withClimate { s.climate with probes := s.climate.probes.set i p }

/-- The store zone of a reading point; none for ROOM. -/
def storeZone? (z : Fin 9) : Option (Fin 8) := if h : z.val < 8 then some ⟨z.val, h⟩ else none

/-- Posts ZONE_CLIMATE for a store zone (R96). -/
def postZoneClimate (z : Fin 8) (s : State) : State := post (zoneClimateNotice s z) s

/-! ## Control and excursion -/

/-- The record after the table of section 6.4, for a known reading (log 12). A grace time of 0 is followed
at once by the grace expiry of R91. -/
def excursionAfter (limits : ClimateSettings) (graceMinutes : Nat) (r : Nat × Int) (c : ZoneClimate) :
    ZoneClimate :=
  if inLimits limits r then
    match c.excursion with
    | .inLimits => c
    | .outGrace | .excursion | .exposing =>
      { c with excursion := .inLimits, grace := none, minutes := 0, minuteTimer := none }
  else
    match c.excursion with
    | .inLimits =>
      if graceMinutes = 0 then
        { c with excursion := .excursion, grace := none, minutes := 0, minuteTimer := some minuteMs }
      else { c with excursion := .outGrace, grace := some (graceMinutes * minuteMs) }
    | .outGrace | .excursion | .exposing => c

/-- A zone's record after both evaluations (R88, section 6.4); an unknown reading freezes the excursion
(R92). -/
def climateAfter (s : State) (z : Fin 8) : ZoneClimate :=
  let reading := (s.airAt (airZone z)).reading
  let c := s.zoneClimate z
  let c := { c with control := controlAfter (s.zone z).climate c.control reading }
  match reading with
  | some r => excursionAfter (s.zone z).climate (s.param .graceTime) r c
  | none => c

/-- Takes a new record for a store zone: what its changes post and whom they tell (R88, R90, R95, R96).
`passed`: the reading passed between known and unknown. -/
def takeZoneClimate (z : Fin 8) (new : ZoneClimate) (passed : Bool) (s : State) : State :=
  let old := s.zoneClimate z
  let s := setZoneClimate z new s
  let s := if new.control ≠ old.control then postMode z s else s
  let s :=
    if new.control ≠ old.control ∨ new.excursion ≠ old.excursion ∨
        (passed ∧ old.control = .suspended) then postZoneClimate z s
    else s
  if new.excursion ≠ old.excursion ∧ z = s.rackZone then updateRackPause s else s

/-- Evaluates a store zone (R88, section 6.4): after its reading changed, or after SET_ZONE (R21). -/
def evaluateZone (z : Fin 8) (passed : Bool) (s : State) : State :=
  takeZoneClimate z (climateAfter s z) passed s

/-- R85: works a zone reading out again; a result that differs is held and evaluated. -/
def refreshReading (z : Fin 9) (s : State) : State :=
  let held := (s.airAt z).reading
  let new := workedReading s z
  if new = held then s
  else
    let s := setAir z { s.airAt z with reading := new } s
    match storeZone? z with
    | some y => evaluateZone y (held.isSome != new.isSome) s
    | none => s

/-! ## Probe agreement -/

/-- R87: sets PROBES_DISAGREE; a change works the reading out again and, for a store zone, is posted. -/
def setDisagree (z : Fin 9) (flag : Bool) (s : State) : State :=
  let a := s.airAt z
  if a.disagree = flag then s
  else
    let s := refreshReading z (setAir z { a with disagree := flag } s)
    match storeZone? z with
    | some y => postZoneClimate y s
    | none => s

/-- A new agreement window, where two probes are bound (R86). -/
def newAgreement (s : State) (z : Fin 9) : Option Agreement :=
  if 2 ≤ (probesOf s.nodes z).length then
    some { samples := 0, disagreements := 0, length := s.param .agreementWindow }
  else none

/-- R87: a PROBE was bound to or unbound from the zone: the running window is discarded, PROBES_DISAGREE
is cleared, and a window begins where two probes are bound. -/
def resetAgreement (z : Fin 9) (s : State) : State :=
  setDisagree z false (setAir z { s.airAt z with window := newAgreement s z } s)

/-- The absolute difference of two RH values. -/
def rhDifference (a b : Nat) : Nat := if a < b then b - a else a - b

/-- R86, R87: a report from the lead probe forms a paired sample where both readings are usable; a window
that reaches its length ends. -/
def takeSample (z : Fin 9) (i : Nat) (s : State) : State :=
  match probesOf s.nodes z, (s.airAt z).window with
  | lead :: other :: _, some w =>
    if lead = i then
      match usableReading s lead, usableReading s other with
      | some a, some b =>
        let differ := decide (s.param .agreementTolerance < rhDifference a.1 b.1)
        let w := { w with samples := w.samples + 1,
                          disagreements := w.disagreements + (if differ then 1 else 0) }
        if w.samples < w.length then setAir z { s.airAt z with window := some w } s
        else
          setDisagree z (decide (s.param .disagreementCount ≤ w.disagreements))
            (setAir z { s.airAt z with window := newAgreement s z } s)
      | _, _ => s
    else s
  | _, _ => s

/-- R83: a PROBE's report is taken: the reading, the age timer, the zone reading, the sample (log 17). -/
def takeProbe (i : Nat) (z : Fin 9) (r : ProbeReport) (s : State) : State :=
  takeSample z i
    (refreshReading z (setProbe i (some { report := some r, age := some Config.probeAge }) s))

/-- R84: a probe's age timer expires; the reading is erased until the next report. -/
def probeAgeExpired (i : Nat) (s : State) : State :=
  match s.climate.probes.get? i, s.node? i with
  | some p, some n =>
    match p.age, n.binding.target with
    | some _, .probe z => refreshReading z (setProbe i (some { p with age := none }) s)
    | _, _ => s
  | _, _ => s

/-! ## Air handler -/

/-- R90: an AIR report shows a mode in effect; it is compared where its transaction carried no MODE and
no MODE waits. -/
def takeAir (z : Fin 8) (mode : AirMode) (carried : Nat) (s : State) : State :=
  if mode ≠ (s.zoneClimate z).control.mode ∧ carried ≠ CmdKind.mode.code ∧
      hasEntry s (.air z) .mode = false then postMode z s
  else s

/-- The control state derived at NORMAL: the rows of R88 for UNKNOWN or HOLDING. -/
def derivedControl (s : State) (z : Fin 8) : Control :=
  controlAfter (s.zone z).climate .holding (s.airAt (airZone z)).reading

/-- A control state taken under R89: it is posted with its air mode. -/
def takeControl (z : Fin 8) (c : Control) (s : State) : State :=
  postZoneClimate z (postMode z (setZoneClimate z { s.zoneClimate z with control := c } s))

/-- R89: the Fire Controller tells of a change of a zone's fire state. The derivation at NORMAL is made
from SUSPENDED (log 18). -/
def climateFireTold (z : Fin 8) (old new : FireState) (s : State) : State :=
  let c := (s.zoneClimate z).control
  if new.suspends ∧ ¬ old.suspends ∧ c ≠ .suspended then takeControl z .suspended s
  else if new = .normal ∧ c = .suspended then takeControl z (derivedControl s z) s
  else s

/-! ## Timers of the excursion -/

/-- R91: the grace timer expires. A frozen timer does not (R92). -/
def graceExpired (z : Fin 8) (s : State) : State :=
  let c := s.zoneClimate z
  if c.excursion = .outGrace ∧ c.grace.isSome ∧ (s.airAt (airZone z)).reading.isSome then
    takeZoneClimate z
      { c with excursion := .excursion, grace := none, minutes := 0, minuteTimer := some minuteMs }
      false s
  else s

/-- R91: the minute timer expires. A frozen timer does not (R92). At entry into EXPOSING the zone is
swept. -/
def minuteExpired (z : Fin 8) (s : State) : State :=
  let c := s.zoneClimate z
  if c.minuteTimer.isSome ∧ (s.airAt (airZone z)).reading.isSome then
    let c := { c with minutes := min 65535 (c.minutes + 1), minuteTimer := some minuteMs }
    if c.excursion = .excursion ∧ s.param .exposureLimit ≤ c.minutes then
      takeZoneClimate z { c with excursion := .exposing } false
        (zoneExposureSweep z (setZoneClimate z c s))
    else setZoneClimate z c s
  else s

end Sys2Proof.Machine
end

