-- ==== Sys2Proof/Machine/Hatch.lean ====
section
/-! DEFINITION. Hatch: locks (R133, R134), air and wet dwell (R135, R144), ownership (R138 to R140), the
phases and the end of a context as the hatch sees them (R154, R160 to R162, R168), purges (R141, R142),
the HATCH report (R132) and the dry override (R143). -/

namespace Sys2Proof.Machine

/-! ## Locks and air -/

/-- Sets the commanded room lock; a change is posted (R132). -/
def commandRoom (l : Lock) (s : State) : State :=
  if s.hatch.roomLock = l then s
  else postCommand .hatch .roomLock [byteOf l.code] (s.withHatch { s.hatch with roomLock := l })

/-- Sets the commanded store lock; a change is posted (R132). -/
def commandStore (l : Lock) (s : State) : State :=
  if s.hatch.storeLock = l then s
  else postCommand .hatch .storeLock [byteOf l.code] (s.withHatch { s.hatch with storeLock := l })

/-- Sets the commanded exit lock; a change is posted (R132). -/
def commandExit (l : Lock) (s : State) : State :=
  if s.hatch.exitLock = l then s
  else postCommand .hatch .exitLock [byteOf l.code] (s.withHatch { s.hatch with exitLock := l })

/-- Sets the commanded purge; a change is posted (R132). -/
def commandPurge (p : PurgeCmd) (s : State) : State :=
  if s.hatch.purgeCmd = p then s
  else postCommand .hatch .purge [byteOf p.code] (s.withHatch { s.hatch with purgeCmd := p })

/-- Applies those of three wanted lock values that are l, the store lock first, then the room and the exit
lock (log 46). -/
def commandAll (l room store exit : Lock) (s : State) : State :=
  let s := if store = l then commandStore l s else s
  let s := if room = l then commandRoom l s else s
  if exit = l then commandExit l s else s

/-- R133, R134: the three locks worked out afresh; every LOCKED is posted before any UNLOCKED. -/
def updateLocks (s : State) : State :=
  let room := roomLockWanted s
  let store := storeLockWanted s
  let exit := exitLockWanted s
  commandAll .unlocked room store exit (commandAll .locked room store exit s)

/-- R134: the exit lock alone, at a change of an exit hold. -/
def updateExit (s : State) : State := commandExit (exitLockWanted s) s

/-- Posts the four commanded values, for a restart and a binding (R146): the room lock, the store lock, the
exit lock, the purge, in that order (log 58). -/
def postHatchCommands (s : State) : State :=
  let h := s.hatch
  postCommand .hatch .purge [byteOf h.purgeCmd.code]
    (postCommand .hatch .exitLock [byteOf h.exitLock.code]
      (postCommand .hatch .storeLock [byteOf h.storeLock.code]
        (postCommand .hatch .roomLock [byteOf h.roomLock.code] s)))

/-- Posts HATCH_AIR (R145). -/
def postHatchAir (e : HatchEvent) (s : State) : State :=
  post (.hatchAir e s.hatch.air (s.hatch.report.map (·.rh))) s

/-- R144: the wet-dwell timer starts or is discarded as its condition begins or ceases to hold. -/
def updateWetDwell (s : State) : State :=
  if wetDwellWanted s then
    match s.hatch.wetDwell with
    | some _ => s
    | none => s.withHatch { s.hatch with wetDwell := some (s.param .wetDwell * minuteMs) }
  else s.withHatch { s.hatch with wetDwell := none }

/-- The air state and, with it, the retry delay: DRY discards it (R142). -/
def setAirField (a : Air) (s : State) : State :=
  s.withHatch { s.hatch with
    air := a,
    retry := match a with
      | .dry => none
      | .wet => s.hatch.retry }

/-- A change of air state (R135): the locks follow in the same event (R133), the event is posted, and the
wet dwell is worked out. -/
def setHatchAir (a : Air) (e : HatchEvent) (s : State) : State :=
  updateWetDwell (postHatchAir e (updateLocks (setAirField a s)))

/-! ## Phases -/

/-- The limit of a phase in ms (R154). -/
def phaseLimit (s : State) : Phase → Option Nat
  | .waitHatch => some (s.param .hatchWait * minuteMs)
  | .loading | .loadingIn => some (s.param .loadingLimit * minuteMs)
  | .collecting => some (s.param .collectingLimit * minuteMs)
  | .awaitRelease => some (s.param .releaseWait * 1000)
  | .recall | .recallReturn => some (s.param .recallLimit * minuteMs)
  | .waitDry | .unloading | .ended => none

/-- Posts a context's HANDOVER_STATE as it stands. -/
def postHandover (c : Nat) (s : State) : State :=
  match s.context? c with
  | some x => post (handoverNotice c x) s
  | none => s

/-- Posts PROMPT CLOSED with the pending outcome of a context. -/
def promptClosed (c : Nat) (s : State) : State :=
  match s.context? c with
  | some x => postPrompt .closed (outcomeCode x.pendingOutcome) s
  | none => s

/-- A context's change of phase: the phase, its limit, HANDOVER_STATE (R152, R154). -/
def setPhase (c : Nat) (ph : Phase) (s : State) : State :=
  match s.context? c with
  | none => s
  | some x => postHandover c (putContext c { x with phase := ph, timer := phaseLimit s ph } s)

/-- Posts REMOVE_ITEMS with the rejected count. -/
def promptRemove (c : Nat) (s : State) : State :=
  match s.context? c with
  | some x => postPrompt .removeItems x.rejected.length s
  | none => s

/-- A BLOCKED record whose label lies in the hatch has its location set to HATCH, reason kept (R153,
R154). -/
def blockedToHatch (c : Nat) (l : Label) (s : State) : State :=
  match findLabel s l with
  | some i =>
    claim (.handover c) i (fun r => r.state.isBlocked && r.location != .hatch)
      (fun r => { r with location := .hatch }) s
  | none => s

/-- The first working phase of a direction (R153). -/
def Direction.firstPhase : Direction → Phase
  | .outbound => .loading
  | .returning => .loadingIn

/-- R153: a context is granted the hatch: its first working phase; the labels in the hatch are rejected,
as far as there is room. -/
def grantContext (c : Nat) (s : State) : State :=
  let s := s.withHatch
    { s.hatch with owner := .context c, waiting := s.hatch.waiting.filter (· != c) }
  match s.context? c with
  | none => s
  | some x =>
    let added := s.hatch.contents.take (Config.hatchCapacity - (x.manifest.length + x.rejected.length))
    let s := putContext c { x with rejected := x.rejected ++ added } s
    let s := manifestPrompt c (updateLocks (setPhase c x.direction.firstPhase s))
    let s := added.foldl (fun s l => blockedToHatch c l s) s
    if added.isEmpty then s
    else if x.direction = .returning then promptRemove c (signalReject s)
    else signalReject s

/-- R141: a purge run starts; a context that owned the hatch is marked yielded (R140, step 2). -/
def startPurge (s : State) : State :=
  let yielded := match s.hatch.owner with
    | .context c => some c
    | .nobody | .purge | .fire => s.hatch.yielded
  let s := s.withHatch { s.hatch with
    owner := .purge, yielded := yielded,
    purge := some { minTimer := some (s.param .minPurge * 1000), maxTimer := s.param .maxPurge * 1000,
                    reportTaken := false } }
  postHatchAir .purgeStarted (updateLocks (commandPurge .run s))

/-- A purge may take the hatch: the owner is none or a context in a yieldable phase (R140, step 2). -/
def purgeMayTake (s : State) : Bool :=
  match s.hatch.owner with
  | .nobody => true
  | .context c =>
    (match s.context? c with
     | some x => x.phase.yieldable
     | none => false)
  | .purge | .fire => false

/-- R140: the grant evaluation; the first step that applies. While the hatch zone is in fire the hatch is
FIRE's (R138), so a context that ends at the confirmation leaves it to FIRE (R127; log 45). -/
def grantEval (s : State) : State :=
  if s.hatch.owner = .fire ∨ (s.zoneFire s.hatchZone).state.inFire then s
  else if purgePending s ∧ purgeMayTake s then startPurge s
  else
    match s.hatch.owner, s.hatch.waiting with
    | .nobody, c :: _ =>
      (match s.context? c with
       | some x => if x.direction = .outbound ∧ s.hatch.air = .wet then s else grantContext c s
       | none => s)
    | _, _ => s

/-- R138: a release, a withdrawal or the loss of the yielded mark of an ending context, each with its
lock commands and grant evaluation (at a confirmation: log 45). -/
def leaveHatch (c : Nat) (s : State) : State :=
  let h := s.hatch
  let owner := if h.owner = .context c then .nobody else h.owner
  let yielded := if h.yielded = some c then none else h.yielded
  grantEval (updateLocks
    (s.withHatch { h with owner := owner, yielded := yielded, waiting := h.waiting.filter (· != c) }))

/-- R168: the last prompt of a context. -/
def promptEnd (c : Nat) (o : HOutcome) (s : State) : State :=
  match o with
  | .accepted =>
    (match s.context? c with
     | some x => postPrompt .done x.takenCount s
     | none => s)
  | .disputed | .cancelled | .nothingLoaded | .timedOut | .fireAbort | .hostAbort =>
    postPrompt .closed o.code s

/-- R168: a live context reaches END with an outcome: its exit hold goes, then its hold on the hatch
(the order is log 24). -/
def endContext (c : Nat) (o : HOutcome) (s : State) : State :=
  match liveContext? s c with
  | none => s
  | some x =>
    let s := putContext c { x with phase := .ended, timer := none, finish := some (x.phase, o) } s
    promptEnd c o (postHandover c (ordersContextEnded c (leaveHatch c (updateExit s))))

/-- An entry into a phase: the phase, the locks, and, while the context owns the hatch, the grant
evaluation of the phase change (R138, R154). -/
def enterPhase (c : Nat) (ph : Phase) (s : State) : State :=
  let s := updateLocks (setPhase c ph s)
  if s.hatch.owner = .context c then grantEval s else s

/-! ## End conditions of the phases -/

/-- R162: UNLOADING ends on an empty hatch with the store door CLOSED. -/
def testUnloading (c : Nat) (s : State) : State :=
  match liveContext? s c with
  | none => s
  | some x =>
    match x.pendingOutcome with
    | none => s
    | some o =>
      if x.phase = .unloading ∧ s.hatch.contents = [] ∧ storeDoor s = .closed then endContext c o s
      else s

/-- R161: WAIT_DRY passes on to UNLOADING when the context owns a DRY hatch. -/
def testWaitDry (c : Nat) (s : State) : State :=
  match liveContext? s c with
  | none => s
  | some x =>
    if x.phase = .waitDry ∧ s.hatch.owner = .context c ∧ s.hatch.air = .dry then
      testUnloading c (enterPhase c .unloading s)
    else s

/-- Entry into WAIT_DRY; PROMPT CLOSED is posted unless the entry is by acceptance (R161). -/
def enterWaitDry (accepted : Bool) (c : Nat) (s : State) : State :=
  let s := setPhase c .waitDry s
  let s := updateLocks (if accepted then s else promptClosed c s)
  testWaitDry c (if s.hatch.owner = .context c then grantEval s else s)

/-- Claims the picked manifest records, in manifest order, and takes them out of the manifest; a record
that an earlier claim has taken out is passed over (R160, R167). -/
def resolveManifest (c : Nat) (pick : ManifestEntry → Bool) (new : ManifestEntry → Record → Record)
    (s : State) : State :=
  match s.context? c with
  | none => s
  | some x =>
    (x.manifest.filter pick).foldl (fun s e =>
      match s.context? c with
      | none => s
      | some y =>
        if y.holds e.record then
          claim (.handover c) e.record (fun _ => true) (new e) (dropManifest c e.record s)
        else s) s

/-- BLOCKED HANDOVER_UNRESOLVED with the courier (R160, R167). -/
def Record.unresolvedAtCourier (r : Record) (id : Nat) : Record :=
  { r.blockedAt .handoverUnresolved (.courier id) with custodian := some id }

/-- R160: the taken manifest records of a context are blocked with its courier. -/
def resolveTaken (c : Nat) (x : Context) (s : State) : State :=
  resolveManifest c (·.taken) (fun _ r => r.unresolvedAtCourier x.courier) s

/-- R160: RECALL ends when no taken entries remain and the room door is CLOSED; once its limit has expired,
on the room door alone, and a record taken again since is blocked as at the expiry (log 40). -/
def testRecall (c : Nat) (s : State) : State :=
  match liveContext? s c with
  | none => s
  | some x =>
    if x.phase = .recall ∧ roomDoor s = .closed then
      if x.timer.isNone then enterWaitDry false c (resolveTaken c x s)
      else if x.takenEntries = 0 then enterWaitDry false c s
      else s
    else s

/-- R164: RECALL_RETURN ends on an empty hatch with the room door CLOSED, or, its limit expired, passes
on to WAIT_DRY with the room door CLOSED (log 30). -/
def testRecallReturn (c : Nat) (s : State) : State :=
  match liveContext? s c with
  | none => s
  | some x =>
    if x.phase = .recallReturn ∧ roomDoor s = .closed then
      match s.hatch.contents, x.pendingOutcome with
      | [], some o => endContext c o s
      | _, _ => if x.timer.isNone then enterWaitDry false c s else s
    else s

/-- The end conditions of the phase a context holds. -/
def testPhase (c : Nat) (s : State) : State :=
  match liveContext? s c with
  | none => s
  | some x =>
    match x.phase with
    | .waitDry => testWaitDry c s
    | .unloading => testUnloading c s
    | .recall => testRecall c s
    | .recallReturn => testRecallReturn c s
    | .waitHatch | .loading | .collecting | .awaitRelease | .loadingIn | .ended => s

/-- Tests the end conditions of the owning context, if one owns the hatch. -/
def testOwner (s : State) : State :=
  match s.hatch.owner with
  | .context c => testPhase c s
  | .nobody | .purge | .fire => s

/-! ## The end of a purge run -/

/-- R140: the hatch returns to the yielded context, or to none. -/
def returnHatch (s : State) : State :=
  let owner := match s.hatch.yielded with
    | some c => .context c
    | none => .nobody
  grantEval (testOwner (updateLocks (s.withHatch { s.hatch with owner := owner, yielded := none })))

/-- The run stops: PURGE STOP is posted, the timers are discarded. -/
def stopRun (s : State) : State :=
  let s := commandPurge .stop s
  s.withHatch { s.hatch with purge := none }

/-- R141: the purge completes. -/
def purgeComplete (s : State) : State := returnHatch (setHatchAir .dry .wentDry (stopRun s))

/-- R142: the purge fails. -/
def purgeFail (s : State) : State :=
  let s := stopRun s
  returnHatch (postHatchAir .purgeFailed
    (s.withHatch { s.hatch with retry := some (s.param .retryDelay * 1000) }))

/-- R141: the minimum timer expires and the completion test is made. -/
def purgeMinExpired (s : State) : State :=
  match s.hatch.purge with
  | none => s
  | some run =>
    match run.minTimer with
    | none => s
    | some _ =>
      let s := s.withHatch { s.hatch with purge := some { run with minTimer := none } }
      if purgeTest s then purgeComplete s else s

/-- R141: the maximum timer expires: the purge completes where the test is met or the hatch zone cannot be
read, else it fails. -/
def purgeMaxExpired (s : State) : State :=
  match s.hatch.purge with
  | none => s
  | some _ =>
    if purgeTest s ∨ (s.airAt (airZone s.hatchZone)).reading = none then purgeComplete s
    else purgeFail s

/-- R142: the retry delay expires and the grant evaluation is made. -/
def retryExpired (s : State) : State :=
  match s.hatch.retry with
  | none => s
  | some _ => grantEval (s.withHatch { s.hatch with retry := none })

/-- R144: the wet-dwell timer expires: the hatch is swept, WET_DWELL is posted, the timer starts again. -/
def wetDwellExpired (s : State) : State :=
  match s.hatch.wetDwell with
  | none => s
  | some _ =>
    let s := postHatchAir .wetDwell (hatchExposureSweep s)
    s.withHatch { s.hatch with wetDwell := some (s.param .wetDwell * minuteMs) }

/-! ## The HATCH report -/

/-- R132: a lock or the purge that a report shows otherwise than commanded is commanded again, where the
queue holds no entry of that command. -/
def repost (cmd : CmdKind) (commanded reported : Nat) (s : State) : State :=
  if commanded ≠ reported ∧ hasEntry s .hatch cmd = false then
    postCommand .hatch cmd [byteOf commanded] s
  else s

/-- A transaction carried no hatch lock or purge command (R132). -/
def carriedNoHatch (code : Nat) : Bool :=
  code != CmdKind.roomLock.code && code != CmdKind.storeLock.code && code != CmdKind.exitLock.code &&
    code != CmdKind.purge.code

/-- R132: the check of a report against the commanded values (log 33). -/
def checkCommanded (code : Nat) (r : HatchReport) (s : State) : State :=
  if carriedNoHatch code then
    repost .purge s.hatch.purgeCmd.code r.purge.code
      (repost .exitLock s.hatch.exitLock.code r.exitLock.code
        (repost .storeLock s.hatch.storeLock.code r.storeLock.code
          (repost .roomLock s.hatch.roomLock.code r.roomLock.code s)))
  else s

/-- R154: the owning context is told of a change of the reported room or store door: the store door that
closes in LOADING (R156), and the end conditions that are tested at each door change. -/
def doorTold (c : Nat) (roomBefore storeBefore : Door) (s : State) : State :=
  match liveContext? s c with
  | none => s
  | some x =>
    if s.hatch.owner = .context c then
      if x.phase = .loading then
        if storeBefore = .opened ∧ storeDoor s = .closed then
          if x.rejected ≠ [] then signalReject s
          else if x.manifest ≠ [] then manifestPrompt c (enterPhase c .collecting s)
          else endContext c .nothingLoaded s
        else s
      else if roomBefore ≠ roomDoor s ∨ storeBefore ≠ storeDoor s then testPhase c s
      else s
    else s

/-- The doors as told to the context that owned the hatch when the report came. -/
def ownerDoors (owner : Owner) (roomBefore storeBefore : Door) (s : State) : State :=
  match owner with
  | .context c => doorTold c roomBefore storeBefore s
  | .nobody | .purge | .fire => s

/-- R141, R142: a HATCH report taken during a purge run. -/
def purgeReport (s : State) : State :=
  match s.hatch.purge with
  | none => s
  | some run =>
    if roomDoor s = .opened then purgeFail s
    else
      let s := s.withHatch { s.hatch with purge := some { run with reportTaken := true } }
      if run.minTimer.isNone ∧ purgeTest s then purgeComplete s else s

/-- R132: the state fields of a HATCH report are taken, in the order air, locks, purge, grant; `code` is
the command the transaction carried (log 23, log 33). -/
def takeHatch (r : HatchReport) (code : Nat) (s : State) : State :=
  let room := roomDoor s
  let store := storeDoor s
  let owner := s.hatch.owner
  let s := s.withHatch { s.hatch with report := some r }
  let s := if r.room = .opened ∧ s.hatch.air = .dry then setHatchAir .wet .wentWet s else s
  let s := checkCommanded code r (updateLocks s)
  let s := ownerDoors owner room store s
  -- a run that a door change started has not had this report taken during it
  let s := if owner = .purge then purgeReport s else s
  grantEval s

/-- R146: a HATCH node is bound. -/
def bindHatch (s : State) : State :=
  let s := s.withHatch { s.hatch with report := none }
  let s := if s.hatch.air = .dry then setHatchAir .wet .wentWet s else s
  grantEval (postHatchCommands (updateLocks s))

/-- R146: the HATCH node is unbound. -/
def unbindHatch (s : State) : State := s.withHatch { s.hatch with report := none }

/-- R138: fire in zone z, or its return to NORMAL, as the arbiter is told of it; the exit lock follows
(R134). -/
def hatchFireTold (z : Fin 8) (s : State) : State :=
  if z = s.hatchZone then
    if (s.zoneFire z).state.inFire then
      if s.hatch.owner = .fire then updateLocks s
      else
        let s := if s.hatch.purge.isSome then stopRun s else s
        updateLocks (s.withHatch { s.hatch with owner := .fire, waiting := [], yielded := none })
    else if s.hatch.owner = .fire then
      grantEval (updateLocks (s.withHatch { s.hatch with owner := .nobody }))
    else updateLocks s
  else updateLocks s

/-- R143: the override, its checks passed. -/
def hatchDryOverrideEffect (s : State) : State :=
  let run := s.hatch.purge.isSome
  let s := if run then stopRun s else s
  let s := updateWetDwell (postHatchAir .override (hatchExposureSweep (setAirField .dry s)))
  if run then returnHatch s else grantEval (testOwner (updateLocks s))

end Sys2Proof.Machine
end

