-- ==== Sys2Proof/Machine/Handover.lean ====
section
/-! DEFINITION. Handover: the courier terminal (R150, R151, R157, R163, R165), the opening of a context
(R153), reader events by phase (R154 to R164), snapshots (R155), phase limits, host decisions (R158,
R159, R165), fire (R167), and the contents list that hands the reader events on (R136, R137). -/

namespace Sys2Proof.Machine

/-! ## Lists of a context -/

/-- The record of a label, where it stands in a context's manifest. -/
def manifestRecord (s : State) (x : Context) (l : Label) : Option Nat :=
  match findLabel s l with
  | some i => if x.holds i then some i else none
  | none => none

/-- A manifest record is marked taken. -/
def Context.isTaken (x : Context) (i : Nat) : Bool := x.manifest.any fun e => e.record == i && e.taken

/-- Marks a manifest entry taken or untaken. -/
def markTaken (c i : Nat) (taken : Bool) (s : State) : State :=
  match s.context? c with
  | none => s
  | some x =>
    putContext c { x with manifest := x.manifest.map fun e =>
      if e.record == i then { e with taken := taken } else e } s

/-- A record joins the manifest, untaken. -/
def addManifest (c i : Nat) (s : State) : State :=
  match s.context? c with
  | none => s
  | some x => putContext c { x with manifest := x.manifest ++ [{ record := i, taken := false }] } s

/-- A label joins the rejected list. -/
def addRejected (c : Nat) (l : Label) (s : State) : State :=
  match s.context? c with
  | none => s
  | some x => putContext c { x with rejected := x.rejected ++ [l] } s

/-- A label leaves the rejected list. -/
def dropRejected (c : Nat) (l : Label) (s : State) : State :=
  match s.context? c with
  | none => s
  | some x => putContext c { x with rejected := x.rejected.filter (· != l) } s

/-- The prompt of a change of the manifest or of its taken entries; COLLECTING has none (Table 10-1). -/
def changePrompt (c : Nat) (s : State) : State :=
  match s.context? c with
  | none => s
  | some x => if x.phase = .collecting then s else manifestPrompt c s

/-- Sets a context's pending outcome. -/
def setOutcome (c : Nat) (o : HOutcome) (s : State) : State :=
  match s.context? c with
  | none => s
  | some x => putContext c { x with pendingOutcome := some o } s

/-! ## The records of a handover -/

/-- BLOCKED HANDOVER_UNRESOLVED in the hatch (R164, R167). -/
def Record.unresolvedAtHatch (r : Record) : Record := r.blockedAt .handoverUnresolved .hatch

/-- PICKED in the hatch (R156, R167). -/
def Record.pickedAtHatch (r : Record) : Record := { r with state := .picked, location := .hatch }

/-- OUT with the courier (R158, R163, R164). -/
def Record.outWithCourier (r : Record) (id : Nat) : Record :=
  { r with state := .out, location := .courier id, custodian := some id }

/-- BLOCKED at the courier, its reason kept if it was BLOCKED (R154). -/
def Record.conflictAtCourier (r : Record) (id : Nat) : Record :=
  { r.blockedAt .custodyConflict (.courier id) with custodian := some id }

/-- The record may be staged by the courier (R156): READY/OUTBOUND and an unhanded entry of an order of
the courier that is not FINISHED. -/
def stageable (s : State) (courier i : Nat) : Bool :=
  match s.record? i with
  | none => false
  | some r =>
    r.state == .ready .outbound &&
      (match r.orderSlot with
       | none => false
       | some k =>
         (match s.order? k with
          | none => false
          | some o => o.courier == courier && !o.state.isFinished && o.unhanded.contains i))

/-- The record is OUT with the courier (R163). -/
def outWithCourier (s : State) (courier i : Nat) : Bool :=
  match s.record? i with
  | none => false
  | some r => r.state == .out && r.location == .courier courier && r.custodian == some courier

/-! ## Reader events that the phase does not name (R154) -/

/-- ENTERED with both lists full: SIGNAL_REJECT, and a sighting at HATCH. -/
def enteredFull (l : Label) (s : State) : State := hatchSighted l (signalReject s)

/-- ENTERED of a label, by the rule of R154. One that stands in the manifest or the rejected list changes
nothing (log 56). -/
def unnamedEntered (c : Nat) (l : Label) (s : State) : State :=
  match s.context? c with
  | none => s
  | some x =>
    if x.rejected.contains l ∨ (manifestRecord s x l).isSome then s
    else if x.hasRoom then
      let s := blockedToHatch c l (signalReject (addRejected c l s))
      let s := match findLabel s l with
        | some _ => s
        | none => post (.foreignLabel l .hatch) s
      if x.phase.side = .room then promptRemove c s else s
    else enteredFull l s

/-- A record at HATCH departs: by the table of R61 on the store or a closed side, into the courier's hands
on the room side. -/
def departHatch (c : Nat) (l : Label) (s : State) : State :=
  match s.context? c, findLabel s l with
  | some x, some i =>
    claim (.handover c) i (fun r => r.location == .hatch)
      (fun r => match x.phase.side with
        | .room => r.conflictAtCourier x.courier
        | .store | .closed => r.hatchDeparted) s
  | _, _ => s

/-- LEFT of a label, by the rule of R154. -/
def unnamedLeft (c : Nat) (l : Label) (s : State) : State :=
  match s.context? c with
  | none => s
  | some x =>
    if x.rejected.contains l then departHatch c l (dropRejected c l s)
    else
      match manifestRecord s x l with
      | none => departHatch c l s
      | some i =>
        changePrompt c
          (claim (.handover c) i (fun _ => true)
            (fun r => match x.phase.side with
              | .room => { r with state := .blocked .custodyConflict, location := .courier x.courier,
                                  custodian := some x.courier }
              | .store | .closed => { r with state := .blocked .custodyConflict, location := .inHand })
            (dropManifest c i s))

/-! ## Reader events by phase -/

/-- R156: a record is staged; missed departures come first (R56, step 2). -/
def stage (c i : Nat) (s : State) : State :=
  changePrompt c
    (addManifest c i
      (claim (.handover c) i (fun _ => true) (fun r => { r with state := .staged, location := .hatch })
        (missedDeparture i .hatch s)))

/-- ENTERED in LOADING (R156). A label that already stands in the rejected list and whose record the first row
names is staged, and stays rejected (log 62). -/
def enteredLoading (c : Nat) (x : Context) (l : Label) (s : State) : State :=
  match findLabel s l with
  | none => unnamedEntered c l s
  | some i =>
    if stageable s x.courier i then
      if x.hasRoom then stage c i s else enteredFull l s
    else unnamedEntered c l s

/-- ENTERED in LOADING_IN (R163). A label that already stands in the rejected list and whose record is OUT with
the courier joins the manifest, and stays rejected (log 62). -/
def enteredLoadingIn (c : Nat) (x : Context) (l : Label) (s : State) : State :=
  match findLabel s l with
  | none => unnamedEntered c l s
  | some i =>
    if outWithCourier s x.courier i then
      if x.hasRoom then
        changePrompt c
          (addManifest c i
            (claim (.handover c) i (fun _ => true)
              (fun r => { r with state := .inbound, location := .hatch }) s))
      else enteredFull l s
    else unnamedEntered c l s

/-- ENTERED of a taken manifest record (R157, R160). -/
def putBack (c i : Nat) (s : State) : State :=
  changePrompt c
    (claim (.handover c) i (fun _ => true) (fun r => { r with state := .staged, location := .hatch })
      (markTaken c i false s))

/-- ENTERED in COLLECTING and RECALL; of a manifest record that is not taken it changes nothing (log 56). -/
def enteredTaken (c : Nat) (x : Context) (l : Label) (s : State) : State :=
  match manifestRecord s x l with
  | some i => if x.isTaken i then putBack c i s else s
  | none => unnamedEntered c l s

/-- An ENTERED event handed to the owning context (R154 to R164). -/
def contextEntered (c : Nat) (l : Label) (s : State) : State :=
  match liveContext? s c with
  | none => s
  | some x =>
    match x.phase with
    | .loading => enteredLoading c x l s
    | .loadingIn => enteredLoadingIn c x l s
    | .collecting => enteredTaken c x l s
    | .recall => testRecall c (enteredTaken c x l s)
    | .waitHatch | .awaitRelease | .waitDry | .unloading | .recallReturn | .ended =>
      unnamedEntered c l s

/-- LEFT of an untaken manifest record in COLLECTING or RECALL (R157, R160). -/
def takeOut (c i courier : Nat) (s : State) : State :=
  changePrompt c
    (claim (.handover c) i (fun _ => true)
      (fun r => { r with state := .staged, location := .courier courier }) (markTaken c i true s))

/-- LEFT of a manifest record whose phase claims a new record value: it leaves the manifest. -/
def leftManifest (c i : Nat) (new : Record → Record) (s : State) : State :=
  changePrompt c (claim (.handover c) i (fun _ => true) new (dropManifest c i s))

/-- What a LEFT event does in the phase of the owning context (R154 to R164). -/
def leftEffect (c : Nat) (l : Label) (s : State) : State :=
  match liveContext? s c with
  | none => s
  | some x =>
    match x.phase, manifestRecord s x l with
    | .loading, some i =>
      leftManifest c i (fun r =>
        { r with state := .ready .outbound, location := .inHand,
                 carry := some { left := s.param .carryWindow * minuteMs, origin := none } }) s
    | .collecting, some i => if x.isTaken i then unnamedLeft c l s else takeOut c i x.courier s
    | .recall, some i => if x.isTaken i then unnamedLeft c l s else takeOut c i x.courier s
    | .unloading, some i =>
      leftManifest c i (fun r => { r with state := .picked, location := .inHand }) s
    | .loadingIn, some i => leftManifest c i (fun r => r.outWithCourier x.courier) s
    | .recallReturn, some i => leftManifest c i (fun r => r.outWithCourier x.courier) s
    | .loading, none | .collecting, none | .recall, none | .loadingIn, none | .unloading, none
    | .recallReturn, none | .waitHatch, _ | .awaitRelease, _ | .waitDry, _ | .ended, _ =>
      unnamedLeft c l s

/-- A LEFT event handed to the owning context; UNLOADING and RECALL_RETURN test their end conditions at
each LEFT (R162, R164). -/
def contextLeft (c : Nat) (l : Label) (s : State) : State :=
  testRecallReturn c (testUnloading c (leftEffect c l s))

/-- One label of a snapshot handed to the owning context (R155, first pass). -/
def snapshotShown (c : Nat) (l : Label) (s : State) : State :=
  match s.context? c with
  | none => s
  | some x =>
    match manifestRecord s x l with
    | some i => if x.isTaken i then putBack c i s else s
    | none => unnamedEntered c l s

/-- A record's label. -/
def labelOf (s : State) (i : Nat) : Option Label := (s.record? i).map (·.label)

/-- R155: a completed snapshot handed to the owning context, then the end conditions of the phase. The
manifest records not shown are selected once: one that an earlier LEFT has taken out of the manifest is
taken as a LEFT all the same (log 49). -/
def contextSnapshot (c : Nat) (labels : List Label) (s : State) : State :=
  let s := labels.foldl (fun s l => snapshotShown c l s) s
  match liveContext? s c with
  | none => s
  | some x =>
    let gone := x.manifest.filterMap fun e =>
      match s.record? e.record with
      | some r => if r.location = .hatch ∧ !labels.contains r.label then some r.label else none
      | none => none
    let s := (gone ++ x.rejected.filter fun l => !labels.contains l).foldl
      (fun s l => leftEffect c l s) s
    let inLists (i : Nat) (l : Label) : Bool :=
      match s.context? c with
      | some y => y.holds i || y.rejected.contains l
      | none => false
    let missing := (recordsWhere s fun r => r.location == .hatch && !labels.contains r.label).filter
      fun i => match labelOf s i with
        | some l => !inLists i l
        | none => false
    testPhase c (missing.foldl (fun s i => markMissing (.handover c) i s) s)

/-! ## Contents list -/

/-- R136, R137: passes a reader event on: to the context that owns the hatch, else to the Custody Table. -/
def passEvent (toContext : Nat → State → State) (toCustody : State → State) (s : State) : State :=
  match s.hatch.owner with
  | .context c => toContext c s
  | .nobody | .purge | .fire => toCustody s

/-- R136: an ENTERED event (log 22). -/
def hatchEntered (l : Label) (s : State) : State :=
  let contents :=
    if s.hatch.contents.contains l ∨ Config.hatchCapacity ≤ s.hatch.contents.length then s.hatch.contents
    else s.hatch.contents ++ [l]
  grantEval (updateWetDwell
    (passEvent (fun c => contextEntered c l) (hatchSighted l)
      (s.withHatch { s.hatch with contents := contents })))

/-- R136: a LEFT event (log 22). -/
def hatchLeft (l : Label) (s : State) : State :=
  grantEval (updateWetDwell
    (passEvent (fun c => contextLeft c l) (hatchDeparted l)
      (s.withHatch { s.hatch with contents := s.hatch.contents.filter (· != l) })))

/-- The labels without repeats, in their order. -/
def withoutRepeats (ls : List Label) : List Label :=
  ls.foldl (fun acc l => if acc.contains l then acc else acc ++ [l]) []

/-- R137: a completed HATCH snapshot. -/
def hatchSnapshot (labels : List Label) (s : State) : State :=
  grantEval (updateWetDwell
    (passEvent (fun c => contextSnapshot c labels) (hatchSnapshotUnowned labels)
      (s.withHatch { s.hatch with contents := (withoutRepeats labels).take Config.hatchCapacity })))

/-! ## Terminal -/

/-- Sets a roster entry and writes its image (R147). -/
def putCourier (i : Nat) (x : Courier) (s : State) : State :=
  writeCourier i (s.withHandover { s.handover with roster := s.handover.roster.put i x })

/-- Changes a roster entry; an entry that does not change is not written. -/
def changeCourier (i : Nat) (old new : Courier) (s : State) : State :=
  if new = old then s else putCourier i new s

/-- The lowest FREE context slot (R152). -/
def freeContext (s : State) : Option Nat :=
  if (s.context? 0).isNone then some 0 else if (s.context? 1).isNone then some 1 else none

/-- R153: a context opens in a free slot and asks for the hatch. -/
def openContext (c courier : Nat) (d : Direction) (s : State) : State :=
  let s := putContext c
    { courier := courier, direction := d, phase := .waitHatch, manifest := [], rejected := [],
      timer := phaseLimit s .waitHatch, pendingOutcome := none, accepted := 0, finish := none } s
  let s := s.withHatch { s.hatch with waiting := s.hatch.waiting ++ [c] }
  grantEval (postHandover c (postPrompt .wait c s))

/-- The direction of a token (Table 1-7). -/
def tokenDirection : Nat → Option Direction
  | 1 => some .outbound
  | 2 => some .returning
  | _ => none

/-- R151, check 1. -/
def serviceAvailable (s : State) : Bool :=
  s.device.condition == .running && !s.device.storeFault && !someFire s &&
    (findNode s.nodes .hatch).isSome

/-- R151, checks 5 to 9, for a token with the right code. -/
def tokenAccepted (x : Courier) (d : Direction) (s : State) : State :=
  if x.state = .revoked ∧ d = .outbound then postPrompt .revoked 0 s
  else
    match courierContext s x.id with
    | some c => postPrompt .alreadyActive c s
    | none =>
      match freeContext s with
      | none => postPrompt .busy 0 s
      | some c =>
        match d with
        | .outbound =>
          if courierHasReady s x.id then openContext c x.id d s else postPrompt .nothingReady 0 s
        | .returning =>
          if outWith s x.id = 0 then postPrompt .nothingDue 0 s else openContext c x.id d s

/-- R151, check 4: a wrong code. An entry that holds 3 failed attempts keeps 3 and becomes LOCKED (log 48). -/
def tokenWrong (i : Nat) (x : Courier) (s : State) : State :=
  if 3 ≤ x.failed + 1 then
    postPrompt .locked 0 (putCourier i { x with failed := 3, state := .locked } s)
  else postPrompt .wrongCode (3 - (x.failed + 1)) (putCourier i { x with failed := x.failed + 1 } s)

/-- R151: a TOKEN event. -/
def takeToken (courier code direction : Nat) (s : State) : State :=
  if serviceAvailable s = false then postPrompt .service 0 s
  else
    match tokenDirection direction, findCourier s courier with
    | some d, some i =>
      match s.courierAt? i with
      | none => postPrompt .unknown 0 s
      | some x =>
        if courier = 0 ∨ 65000 < courier ∨ 999999 < code then postPrompt .unknown 0 s
        else if x.state = .locked then postPrompt .locked 0 s
        else if x.code ≠ code then tokenWrong i x s
        else tokenAccepted { x with failed := 0 } d (changeCourier i x { x with failed := 0 } s)
    | _, _ => postPrompt .unknown 0 s

/-- The phase's own prompt, posted again for a CONFIRM or CANCEL that the phase does not name (log 25). -/
def phasePrompt (c : Nat) (s : State) : State :=
  match s.context? c with
  | none => s
  | some x =>
    match x.phase with
    | .waitHatch => postPrompt .wait c s
    | .awaitRelease => postPrompt .hold c s
    | .waitDry | .unloading =>
      if x.pendingOutcome = some .accepted then postPrompt .done x.takenCount s else promptClosed c s
    | .loading | .collecting | .recall | .loadingIn | .recallReturn => manifestPrompt c s
    | .ended => s

/-- Entry into AWAIT_RELEASE (R157, R158, R163). -/
def enterAwait (c : Nat) (s : State) : State :=
  let s := postPrompt .hold c (updateLocks (setPhase c .awaitRelease s))
  if s.hatch.owner = .context c then grantEval s else s

/-- CONFIRM in COLLECTING or LOADING_IN (R157, R163). With the room door OPEN and a label rejected,
CLOSE_DOOR is posted (log 47). -/
def confirmRoomSide (c : Nat) (x : Context) (s : State) : State :=
  if roomDoor s = .opened then postPrompt .closeDoor 0 s
  else if x.rejected ≠ [] then promptRemove c s
  else if x.phase = .loadingIn ∧ x.manifest = [] then endContext c .nothingLoaded s
  else enterAwait c s

/-- A CONFIRM event, taken by the terminal context (R150). -/
def takeConfirm (s : State) : State :=
  match terminalContext s with
  | none => s
  | some c =>
    match liveContext? s c with
    | none => s
    | some x =>
      match x.phase with
      | .collecting | .loadingIn => confirmRoomSide c x s
      | .waitHatch | .loading | .awaitRelease | .recall | .waitDry | .unloading | .recallReturn
      | .ended => phasePrompt c s

/-! ## Ways out of a phase -/

/-- LOADING is broken off (R156): every manifest record is PICKED at HATCH. -/
def abandonLoading (c : Nat) (o : HOutcome) (s : State) : State :=
  enterWaitDry false c
    (setOutcome c o (resolveManifest c (fun _ => true) (fun _ r => r.pickedAtHatch) s))

/-- RECALL is entered (R160); its end condition is tested at entry. -/
def enterRecall (c : Nat) (o : HOutcome) (s : State) : State :=
  testRecall c (manifestPrompt c (enterPhase c .recall (setOutcome c o s)))

/-- RECALL_RETURN is entered (R164); its end condition is tested at entry. -/
def enterRecallReturn (c : Nat) (o : HOutcome) (s : State) : State :=
  testRecallReturn c (manifestPrompt c (enterPhase c .recallReturn (setOutcome c o s)))

/-- The recall of a direction. -/
def enterRecallOf (d : Direction) (c : Nat) (o : HOutcome) (s : State) : State :=
  match d with
  | .outbound => enterRecall c o s
  | .returning => enterRecallReturn c o s

/-- A CANCEL event, taken by the terminal context (R156, R157, R163, R165). -/
def takeCancel (s : State) : State :=
  match terminalContext s with
  | none => s
  | some c =>
    match liveContext? s c with
    | none => s
    | some x =>
      match x.phase with
      | .waitHatch => endContext c .cancelled s
      | .loading => abandonLoading c .cancelled s
      | .collecting => enterRecall c .cancelled s
      | .loadingIn => enterRecallReturn c .cancelled s
      | .awaitRelease | .recall | .waitDry | .unloading | .recallReturn | .ended => phasePrompt c s

/-! ## Phase limits -/

/-- A context in a phase whose limit is running. -/
def inLimit (s : State) (c : Nat) (ph : Phase) : Bool :=
  match liveContext? s c with
  | some x => x.phase == ph && x.timer.isSome
  | none => false

/-- R153: the hatch wait limit expires. -/
def waitLimitExpired (c : Nat) (s : State) : State :=
  if inLimit s c .waitHatch then endContext c .timedOut s else s

/-- R156, R163: the loading limit expires, in LOADING or LOADING_IN. -/
def loadingLimitExpired (c : Nat) (s : State) : State :=
  if inLimit s c .loading then abandonLoading c .timedOut s
  else if inLimit s c .loadingIn then enterRecallReturn c .timedOut s
  else s

/-- R157: the collecting limit expires. -/
def collectingLimitExpired (c : Nat) (s : State) : State :=
  if inLimit s c .collecting then enterRecall c .timedOut s else s

/-- R159: the effect of a dispute. -/
def disputeEffect (c : Nat) (s : State) : State :=
  match liveContext? s c with
  | some x => enterRecallOf x.direction c .disputed s
  | none => s

/-- R159: the release wait limit expires, with the effect of a dispute. -/
def releaseLimitExpired (c : Nat) (s : State) : State :=
  if inLimit s c .awaitRelease then disputeEffect c s else s

/-- Stops a context's phase timer. -/
def stopPhaseTimer (c : Nat) (s : State) : State :=
  match s.context? c with
  | none => s
  | some x => putContext c { x with timer := none } s

/-- R160, R164: the recall limit expires, in RECALL or RECALL_RETURN; the prompt is posted where the
entries it shows change. -/
def recallLimitExpired (c : Nat) (s : State) : State :=
  match liveContext? s c with
  | none => s
  | some x =>
    if inLimit s c .recall then
      let t := resolveTaken c x (stopPhaseTimer c s)
      testRecall c (if x.takenEntries = 0 then t else manifestPrompt c t)
    else if inLimit s c .recallReturn then
      let t := resolveManifest c (fun _ => true) (fun _ r => r.unresolvedAtHatch) (stopPhaseTimer c s)
      testRecallReturn c (if x.manifest = [] then t else manifestPrompt c t)
    else s

/-! ## Host decisions -/

/-- One record accepted: it leaves the manifest and is counted (R158). -/
def acceptOne (c i : Nat) (new : Record → Record) (s : State) : State :=
  match s.context? c with
  | none => s
  | some x =>
    if x.holds i then
      claim (.handover c) i (fun _ => true) new
        (putContext c { x with manifest := x.manifest.filter fun e => e.record != i,
                               accepted := x.accepted + 1 } s)
    else s

/-- Posts PROMPT DONE with the taken count. -/
def promptDone (c : Nat) (s : State) : State :=
  match s.context? c with
  | some x => postPrompt .done x.takenCount s
  | none => s

/-- R158: an accepted handover. -/
def acceptEffect (c : Nat) (s : State) : State :=
  match liveContext? s c with
  | none => s
  | some x =>
    match x.direction with
    | .outbound =>
      let taken := (x.manifest.filter (·.taken)).map (·.record)
      let s := taken.foldl (fun s i => acceptOne c i (fun r => r.outWithCourier x.courier) s) s
      match liveContext? s c with
      | none => s
      | some y =>
        if y.manifest.isEmpty then endContext c .accepted (promptDone c s)
        else enterWaitDry true c (promptDone c (setOutcome c .accepted s))
    | .returning =>
      let s := (x.manifest.map (·.record)).foldl (fun s i =>
        acceptOne c i (fun r => { r with state := .received, location := .hatch }) s) s
      enterWaitDry true c (promptDone c (setOutcome c .accepted s))

/-- R165: an abort of a live context by its phase; none where the phase refuses it. -/
def abortEffect (c : Nat) (x : Context) : Option (State → State) :=
  match x.phase with
  | .waitHatch => some (endContext c .hostAbort)
  | .loading => some (abandonLoading c .hostAbort)
  | .collecting => some (enterRecall c .hostAbort)
  | .awaitRelease => some (enterRecallOf x.direction c .hostAbort)
  | .loadingIn => some (enterRecallReturn c .hostAbort)
  | .recall | .recallReturn | .waitDry | .unloading | .ended => none

/-! ## Fire -/

/-- R167: the manifest records of a context at a fire, by its phase. -/
def fireResolve (c : Nat) (x : Context) (s : State) : State :=
  match x.phase, x.direction with
  | .waitHatch, _ | .ended, _ => s
  | .loading, _ => resolveManifest c (fun _ => true) (fun _ r => r.pickedAtHatch) s
  | .collecting, _ | .recall, _ | .awaitRelease, .outbound =>
    resolveManifest c (fun _ => true)
      (fun e r => if e.taken then r.unresolvedAtCourier x.courier else r.unresolvedAtHatch) s
  | .loadingIn, _ | .recallReturn, _ | .awaitRelease, .returning =>
    resolveManifest c (fun _ => true) (fun _ r => r.unresolvedAtHatch) s
  | .waitDry, _ | .unloading, _ =>
    resolveManifest c
      (fun e => match s.record? e.record with
        | some r => r.state == .staged
        | none => false)
      (fun _ r => r.pickedAtHatch) s

/-- R167: a live context ends FIRE_ABORT. -/
def fireAbortOne (c : Nat) (s : State) : State :=
  match liveContext? s c with
  | none => s
  | some x => endContext c .fireAbort (fireResolve c x s)

/-- R167: every live context ends, in ascending number. -/
def fireAbort (s : State) : State := fireAbortOne 1 (fireAbortOne 0 s)

end Sys2Proof.Machine
end

