-- ==== Sys2Proof/Machine/Fire.lean ====
section
/-! DEFINITION. Fire: the zone fire records and their notices (R111 to R113, R130), detection and
confirmation (R114, R115, R127), countdown, release and discharge (R116 to R119, R129), drills (R120,
R121), the fire requests' effects (R122 to R124) and ALARM OUT (R125); and the refusals of the Host Link
Controller that a confirmation makes (R3). -/

namespace Sys2Proof.Machine

/-! ## Refusal places -/

/-- The refusal places in use. -/
def refusals (s : State) : Nat := (s.host.replies.filter fun r => r.place == .refusal).length

/-- A refusal by the Host Link Controller on its own account (R2, R3): it takes a refusal place, or the
frame is dropped and the frames-discarded flag set. -/
def refuseFrame (f : Frame) (st : Status) (s : State) : State :=
  if refusals s < Config.refusalPlaces then
    s.withHost { s.host with replies := s.host.replies ++
      [{ place := .refusal, tag := f.tag, code := f.code, status := st, data := [] }] }
  else s.withHost { s.host with framesDiscarded := true }

/-- R3: a confirmation answers the frame waiting in the receive buffer FIRE_PREEMPTED. -/
def preempt (s : State) : State :=
  match s.host.buffer with
  | none => s
  | some f => refuseFrame f .firePreempted (s.withHost { s.host with buffer := none })

/-! ## Records and notices -/

/-- Sets a zone fire record. -/
def setZoneFire (z : Fin 8) (f : ZoneFire) (s : State) : State :=
  s.withFire { s.fire with zones := s.fire.zones.set z f }

/-- Posts ZONE_FIRE (R130). -/
def postZoneFire (z : Fin 8) (s : State) : State := post (zoneFireNotice s z) s

/-- R125: ALARM OUT worked out afresh; a change of the line is posted. -/
def updateAlarm (s : State) : State :=
  let wanted := alarmWanted s
  if wanted = s.fire.alarmOut then s
  else post (.alarmOut wanted) (s.withFire { s.fire with alarmOut := wanted })

/-- The changes that post ZONE_FIRE (R130). -/
def fireNoticeDue (old new : ZoneFire) : Bool :=
  old.state != new.state || old.headA != new.headA || old.headB != new.headB ||
    old.acknowledged != new.acknowledged || old.drill != new.drill ||
    old.equipmentLost != new.equipmentLost

/-- Takes a new zone fire record: ZONE_FIRE where R130 asks for it, and ALARM OUT. -/
def putFire (z : Fin 8) (new : ZoneFire) (s : State) : State :=
  let old := s.zoneFire z
  let s := setZoneFire z new s
  updateAlarm (if fireNoticeDue old new then postZoneFire z s else s)

/-- R128: the Climate Controller, the Rack Controller and the Hatch Arbiter are told of a change of a
zone's state. The Handover Sequencer reads "some zone in fire" when it needs it. -/
def tellFire (z : Fin 8) (old : FireState) (s : State) : State :=
  hatchFireTold z (updateRackPause (climateFireTold z old (s.zoneFire z).state s))

/-- A change of a zone's record that is not a confirmation, with what R128 tells. -/
def changeFire (z : Fin 8) (new : ZoneFire) (s : State) : State :=
  let old := (s.zoneFire z).state
  let s := putFire z new s
  if new.state = old then s else tellFire z old s

/-! ## Confirmation and countdown -/

/-- R116: the countdown test of a CONFIRMED zone. -/
def countdownTest (z : Fin 8) (s : State) : State :=
  let f := s.zoneFire z
  if f.state = .confirmed ∧ (s.zone z).armed ∧ f.hold = .released then
    changeFire z { f with state := .countdown, countdownTimer := some (s.param .countdownTime * 1000) } s
  else s

/-- R115: the record of a zone at its confirmation. -/
def ZoneFire.confirmed (f : ZoneFire) (ackMs : Nat) : ZoneFire :=
  { f with state := .confirmed, alertTimer := none, countdownTimer := none, acknowledged := false,
           ackExpired := false, ackTimer := some ackMs }

/-- R115, R127: a confirmation, from the record given, in the order of R127. The countdown test is the
caller's. -/
def confirm (z : Fin 8) (f : ZoneFire) (s : State) : State :=
  let old := (s.zoneFire z).state
  let s := putFire z (f.confirmed (s.param .ackTime * 1000)) s
  let s := hatchFireTold z (fireAbort (preempt s))
  climateFireTold z old .confirmed (updateRackPause (ordersFailFire z s))

/-- A confirmation followed by the countdown test. -/
def confirmAndCount (z : Fin 8) (f : ZoneFire) (s : State) : State := countdownTest z (confirm z f s)

/-! ## Heads, hold switch, valve -/

/-- A head is in ALARM. -/
def Head.isAlarm : Head → Bool
  | .alarm => true
  | .clear | .fault => false

/-- A head has passed to ALARM. -/
def passedToAlarm (old new : Head) : Bool := new.isAlarm && !old.isAlarm

/-- R112, step 1: the heads of a report. -/
def takeHeads (z : Fin 8) (a b : Head) (s : State) : State :=
  let old := s.zoneFire z
  let passed := passedToAlarm old.headA a || passedToAlarm old.headB b
  let f := { old with headA := a, headB := b }
  if passed ∧ old.drill then
    -- R121
    if old.state = .discharged then confirmAndCount z { f with drill := false } s
    else putFire z { f with drill := false } s
  else
    -- R114
    match old.state with
    | .normal =>
      if passed then
        if a.isAlarm ∧ b.isAlarm then confirmAndCount z f s
        else changeFire z { f with state := .alert, alertTimer := some (s.param .alertTime * 1000) } s
      else putFire z f s
    | .alert =>
      if passed then confirmAndCount z f s
      else if ¬ a.isAlarm ∧ ¬ b.isAlarm then
        changeFire z { f with state := .normal, alertTimer := none } s
      else putFire z f s
    | .confirmed | .countdown | .paused | .releasing | .discharged => putFire z f s

/-- R112, step 2: the hold switch of a report (R116, R117). -/
def takeHold (z : Fin 8) (h : Hold) (s : State) : State :=
  let old := s.zoneFire z
  let f := { old with hold := h }
  if h = old.hold then s
  else
    match old.state with
    | .confirmed => countdownTest z (putFire z f s)
    | .countdown =>
      if h = .held then changeFire z { f with state := .paused, countdownTimer := none } s
      else putFire z f s
    | .paused =>
      if h = .released then
        changeFire z
          { f with state := .countdown, countdownTimer := some (s.param .countdownTime * 1000) } s
      else putFire z f s
    | .normal | .alert | .releasing | .discharged => putFire z f s

/-- R119, R129: a discharge. -/
def discharge (z : Fin 8) (s : State) : State :=
  let s := match (s.zoneFire z).state with
    | .normal | .alert => confirm z (s.zoneFire z) s
    | .confirmed | .countdown | .paused | .releasing | .discharged => s
  let old := s.zoneFire z
  let s := changeFire z { old with state := .discharged, countdownTimer := none, drill := false } s
  if old.state = .discharged ∧ ¬ old.drill then s else quarantine z s

/-- R118: a report of a RELEASING zone that shows the valve CLOSED commands RELEASE again, where its
transaction carried none and none waits. -/
def releaseAgain (z : Fin 8) (v : Valve) (code : Nat) (s : State) : State :=
  if (s.zoneFire z).state = .releasing ∧ v = .closed ∧ code ≠ CmdKind.release.code ∧
      hasEntry s (.fire z) .release = false then postRelease z s
  else s

/-- R112, step 3: the valve of a report. -/
def takeValve (z : Fin 8) (v : Valve) (code : Nat) (s : State) : State :=
  let old := s.zoneFire z
  let s := setZoneFire z { old with valve := v } s
  if v = .discharged ∧ (old.state = .releasing ∨ old.valve ≠ .discharged) then discharge z s
  else releaseAgain z v code s

/-- R112: the state fields of a FIRE report; `code` is the command its transaction carried. -/
def takeFire (z : Fin 8) (a b : Head) (h : Hold) (v : Valve) (code : Nat) (s : State) : State :=
  takeValve z v code (takeHold z h (takeHeads z a b s))

/-- R113: the equipment-lost flag. -/
def setEquipmentLost (z : Fin 8) (lost : Bool) (s : State) : State :=
  putFire z { s.zoneFire z with equipmentLost := lost } s

/-- R111: the values of a zone without a FIRE node, taken at binding and unbinding. -/
def unboundFire (z : Fin 8) (s : State) : State :=
  putFire z
    { s.zoneFire z with headA := .clear, headB := .clear, hold := .released, valve := .notReported,
                        equipmentLost := false } s

/-! ## Timers -/

/-- R114: the alert timer expires and the zone is confirmed. -/
def alertExpired (z : Fin 8) (s : State) : State :=
  let f := s.zoneFire z
  if f.state = .alert ∧ f.alertTimer.isSome then confirmAndCount z f s else s

/-- R117, R118: the countdown expires, into RELEASING or, in a drill, into DISCHARGED. -/
def countdownExpired (z : Fin 8) (s : State) : State :=
  let f := s.zoneFire z
  if f.state = .countdown ∧ f.countdownTimer.isSome then
    if f.drill then changeFire z { f with state := .discharged, countdownTimer := none } s
    else postRelease z (changeFire z { f with state := .releasing, countdownTimer := none } s)
  else s

/-- R125: the acknowledgement timer expires. -/
def ackExpired (z : Fin 8) (s : State) : State :=
  let f := s.zoneFire z
  match f.ackTimer with
  | none => s
  | some _ => putFire z { f with ackTimer := none, ackExpired := true } s

/-! ## Requests -/

/-- R123: the return to NORMAL. -/
def returnToNormal (z : Fin 8) (s : State) : State :=
  changeFire z
    { s.zoneFire z with state := .normal, drill := false, acknowledged := false, ackExpired := false,
                        countdownTimer := none, ackTimer := none, alertTimer := none } s

/-- R122: acknowledges a zone in fire. -/
def acknowledge (z : Fin 8) (s : State) : State :=
  putFire z { s.zoneFire z with acknowledged := true, ackTimer := none } s

/-- R124: what a change of the armed flag does to the zone's state. -/
def armedChanged (z : Fin 8) (s : State) : State :=
  let f := s.zoneFire z
  if (s.zone z).armed then countdownTest z s
  else
    match f.state with
    | .countdown | .paused => changeFire z { f with state := .confirmed, countdownTimer := none } s
    | .normal | .alert | .confirmed | .releasing | .discharged => s

/-- R124: sets the armed flag in the working copy; a flag already as given has no effect. -/
def setArmedFlag (z : Fin 8) (armed : Bool) (s : State) : State :=
  let zone := s.zone z
  if zone.armed = armed then s
  else
    armedChanged z
      (s.withSettings { s.settings with zones := s.settings.zones.set z { zone with armed := armed } })

end Sys2Proof.Machine
end

