-- ==== Sys2Proof/Machine/Link.lean ====
section
/-! DEFINITION. Link: the field link. The arbiter (R40 to R42, R48), the end of a transaction (R31 to
R37, R44), the link-quality window and the rates (R45 to R48), binding and unbinding (R27, R29). -/

namespace Sys2Proof.Machine

/-! ## Nodes -/

/-- Sets a node table entry. -/
def putNode (i : Nat) (n : Node) (s : State) : State := s.withNodes (s.nodes.put i n)

/-- Changes a bound entry. -/
def modifyNode (i : Nat) (f : Node → Node) (s : State) : State :=
  match s.node? i with
  | some n => putNode i (f n) s
  | none => s

/-- The next of some rising indices after i, wrapping to the lowest. -/
def nextAfter (is : List Nat) (i : Nat) : Option Nat :=
  match is.find? fun j => decide (i < j) with
  | some j => some j
  | none => is.head?

/-- A rate correction is owed (R48). -/
def owesCorrection (s : State) (n : Node) : Bool := n.health != .offline && n.rate != s.link.rate

/-- R35: the poll asks for the snapshot. -/
def Node.wantsSnapshot (n : Node) : Bool := n.kind.hasSnapshot && n.accepted.isNone

/-- The command code of a poll without a command (R35). -/
def Node.plainCode (n : Node) : Nat := if n.wantsSnapshot then snapshotCode else pollCode

/-! ## Beginning a transaction -/

/-- The queued command a transaction delivers. -/
def Origin.delivers : Origin → Option CmdKind
  | .command c => some c
  | .hunting c => c
  | .firePoll | .forwarded | .routine | .correction => none

/-- Sets the in-flight mark of an entry. -/
def markInFlight (i : Nat) (cmd : CmdKind) (s : State) : State :=
  s.withLink { s.link with queue := s.link.queue.map fun e =>
    if e.node == i && e.cmd == cmd then { e with inFlight := true } else e }

/-- R31, R41: an addressed transaction begins (log 16). -/
def beginAddressed (i : Nat) (origin : Origin) (code : Nat) (data : List Byte) (s : State) : State :=
  match s.node? i with
  | none => s
  | some n =>
    let t : Transaction :=
      { node := some i, physicalId := n.binding.physicalId, origin := origin, code := code,
        data := data, ack := n.accepted.getD 0, rate := n.rate,
        counted := n.rate == s.link.rate && n.health != .offline }
    let l :=
      if n.kind = .fire then { s.link with fireCount := 0, fireRotation := some i }
      else { s.link with fireCount := min 4 (s.link.fireCount + 1) }
    let s := s.withLink { l with activity := .sending t }
    match origin.delivers with
    | some c => markInFlight i c s
    | none => s

/-- Delivers a queued entry (R40). -/
def deliver (e : QueueEntry) (s : State) : State :=
  beginAddressed e.node (.command e.cmd) e.cmd.code e.data s

/-! ## The arbiter -/

/-- The places of queued commands in the order of R40: RELEASE, the hatch commands, the rest. -/
def CmdKind.rank : CmdKind → Nat
  | .release => 1
  | .roomLock | .storeLock | .exitLock | .purge => 2
  | .mode | .signalReject | .prompt => 4

/-- The oldest deliverable entry of a rank (R39, R40). -/
def oldestOf (s : State) (rank : Nat) : Option QueueEntry :=
  s.link.queue.find? fun e => e.cmd.rank == rank && usableNode s e.node

/-- The FIRE nodes that are neither OFFLINE nor MISMATCH, ascending. -/
def fireNodes (s : State) : List Nat :=
  (s.nodes.filter fun p => p.2.kind == .fire && usableNode s p.1).map (·.1)

/-- R41: the FIRE node that is due for a poll. -/
def fireDue (s : State) : Option Nat :=
  if s.link.fireCount = 4 then
    match s.link.fireRotation with
    | some i => nextAfter (fireNodes s) i
    | none => (fireNodes s).head?
  else none

/-- The highest-ranked entry of an OFFLINE node (R48). -/
def huntingEntry (s : State) (i : Nat) : Option QueueEntry :=
  let own (rank : Nat) := s.link.queue.find? fun e => e.node == i && e.cmd.rank == rank
  (own 1).orElse fun _ => (own 2).orElse fun _ => own 4

/-- R42, R48: a routine poll of a node. -/
def routinePoll (i : Nat) (s : State) : State :=
  match s.node? i with
  | none => s
  | some n =>
    if n.health = .offline then
      match huntingEntry s i with
      | some e => beginAddressed i (.hunting (some e.cmd)) e.cmd.code e.data s
      | none => beginAddressed i (.hunting none) n.plainCode [] s
    else if owesCorrection s n then
      beginAddressed i .routine rateCode [byteOf s.link.rate.val] s
    else beginAddressed i .routine n.plainCode [] s

/-- R42: the poll at the cursor; the cursor advances. -/
def cursorPoll (s : State) : State :=
  match s.link.cursor with
  | none => s
  | some i =>
    routinePoll i
      (s.withLink { s.link with cursor := nextAfter s.nodes.places i, lastWasFollowUp := false })

/-- A follow-up still holds: its node is bound and, when the follow-up is taken, not OFFLINE (R42; log 52). -/
def followUpHolds (s : State) (i : Nat) : Bool :=
  match s.node? i with
  | some n => n.health != .offline
  | none => false

/-- R42: the routine poll. -/
def chooseRoutine (s : State) : State :=
  match s.link.followUp with
  | some i =>
    if s.link.lastWasFollowUp then cursorPoll s
    else
      let s := s.withLink { s.link with followUp := none }
      if followUpHolds s i then routinePoll i (s.withLink { s.link with lastWasFollowUp := true })
      else cursorPoll s
  | none => cursorPoll s

/-- R40, the numbered list. -/
def chooseWork (s : State) : State :=
  match oldestOf s 1, oldestOf s 2, fireDue s, oldestOf s 4, s.link.forward with
  | some e, _, _, _, _ => deliver e s
  | none, some e, _, _, _ => deliver e s
  | none, none, some i, _, _ => beginAddressed i .firePoll pollCode [] s
  | none, none, none, some e, _ => deliver e s
  | none, none, none, none, some f => beginAddressed f.node .forwarded f.code f.data s
  | none, none, none, none, none => chooseRoutine s

/-- R40: the next transaction; `found` is the node of a hunting poll that has just found it. A broadcast
stays pending until its last byte has been sent (R46). -/
def chooseTransaction (found : Option Nat) (s : State) : State :=
  match s.link.pendingBroadcast with
  | some b => s.withLink { s.link with activity := .broadcasting b }
  | none =>
    match found with
    | none => chooseWork s
    | some i =>
      match s.node? i with
      | none => chooseWork s
      | some n =>
        if owesCorrection s n then beginAddressed i .correction rateCode [byteOf s.link.rate.val] s
        else chooseWork s

/-- The arbiter's choice where the link is idle (log 11). -/
def settleField (s : State) : State :=
  match s.link.activity with
  | .idle => chooseTransaction none s
  | .broadcasting _ | .sending _ | .awaiting .. => s

/-! ## Start-up (R181) -/

/-- The device becomes RUNNING where it waits for no node. -/
def settleStartup (s : State) : State :=
  if s.device.condition = .starting ∧ s.device.startupSet = [] then
    s.withDevice { s.device with condition := .running }
  else s

/-- A node leaves the start-up set. -/
def leaveStartup (i : Nat) (s : State) : State :=
  settleStartup
    (s.withDevice { s.device with startupSet := s.device.startupSet.filter (· != i) })

/-! ## Health (R32) -/

/-- The FORWARD in execution ends with a reply in the kept place (R44); the slot empties. -/
def endForward (st : Status) (data : List Byte) (s : State) : State :=
  match s.host.executing with
  | none => s.withLink { s.link with forward := none }
  | some tag =>
    (s.withLink { s.link with forward := none }).withHost
      { s.host with
        executing := none,
        replies := s.host.replies ++
          [{ place := .kept, tag := tag, code := 0x23, status := st, data := data }] }

/-- A FORWARD that waits for a node that is no longer usable ends (R44). -/
def dropForward (i : Nat) (s : State) : State :=
  match s.link.forward with
  | some f => if f.node = i ∧ usableNode s i = false then endForward .nodeOffline [] s else s
  | none => s

/-- Posts NODE_HEALTH for an entry as it stands (R32). -/
def postHealth (i : Nat) (s : State) : State :=
  match s.node? i with
  | some n => post (.nodeHealth i n.health n.misses n.binding.physicalId) s
  | none => s

/-- What follows a change of health: NODE_HEALTH, equipment lost (R113), the erasure of a probe reading
(R84; a node that returns to ONLINE has its report taken next, R83), the start-up set (R181). -/
def healthChanged (i : Nat) (before : Health) (s : State) : State :=
  match s.node? i with
  | none => s
  | some n =>
    if n.health = before then s
    else
      let s := postHealth i s
      let s := match n.binding.target with
        | .fire z => setEquipmentLost z (n.health == .offline) s
        | .probe z => if n.health = .online then s else refreshReading z s
        | .air _ | .shelf .. | .rack | .hatch | .terminal => s
      if n.health = .offline then leaveStartup i s else s

/-- The health after a miss, for a miss count (R32). -/
def Health.afterMiss (h : Health) (misses : Nat) : Health :=
  match h with
  | .online => if 2 ≤ misses then .suspect else .online
  | .suspect => if 5 ≤ misses then .offline else .suspect
  | .mismatch => if 5 ≤ misses then .offline else .mismatch
  | .offline => .offline
  | .unbound => .unbound

/-- A node after a miss: the count, the health, and the believed rate, which an entry into OFFLINE sets to
the link rate (R32) and a hunting poll that misses advances (R48). -/
def Node.missed (n : Node) (linkRate : Fin 4) (hunting : Bool) : Node :=
  let misses := min 255 (n.misses + 1)
  let health := n.health.afterMiss misses
  let rate :=
    if health = .offline ∧ n.health ≠ .offline then linkRate
    else if hunting then n.rate + 1 else n.rate
  { n with misses := misses, health := health, rate := rate }

/-! ## Batches and snapshots (R33 to R37) -/

/-- R34: the state fields of a report go to their block. Fields that could not be read are not taken
(log 13); the zone reading of a PROBE is worked out again, for its health may have changed (R84). -/
def handState (i : Nat) (n : Node) (code : Nat) (st : NodeState) (s : State) : State :=
  match n.binding.target, st with
  | .probe z, .probe r => takeProbe i z r s
  | .probe z, .none => refreshReading z s
  | .fire z, .fire a b h v => takeFire z a b h v code s
  | .air z, .air m => takeAir z m code s
  | .hatch, .hatch r => takeHatch r code s
  | _, _ => s

/-- R34: an event goes to its block; one that does not belong to the kind, or names a place outside it,
is dropped. -/
def handEvent (target : Target) (e : FieldEvent) (s : State) : State :=
  match target, e with
  | .shelf base limit, .inserted n l =>
    if base ≤ n ∧ n ≤ limit then shelfInserted false n l s else s
  | .shelf base limit, .removed n => if base ≤ n ∧ n ≤ limit then shelfRemoved n s else s
  | .rack, .inserted p l => if h : p < 12 then rackInserted false ⟨p, h⟩ l s else s
  | .rack, .removed p => if h : p < 12 then rackRemoved ⟨p, h⟩ s else s
  | .hatch, .entered l => hatchEntered l s
  | .hatch, .left l => hatchLeft l s
  | .terminal, .token courier code direction => takeToken courier code direction s
  | .terminal, .confirm => takeConfirm s
  | .terminal, .cancel => takeCancel s
  | _, _ => s

/-- A batch accepted: the sequence, then the events in their order (R33). -/
def acceptBatch (i : Nat) (n : Node) (number : Nat) (es : List FieldEvent) (s : State) : State :=
  es.foldl (fun s e => handEvent n.binding.target e s)
    (modifyNode i (fun n => { n with accepted := some number }) s)

/-- Sets an assembly and an accepted sequence. -/
def setAssembly (i : Nat) (a : Option Assembly) (accepted : Option Nat) (s : State) : State :=
  modifyNode i (fun n => { n with assembly := a, accepted := accepted }) s

/-- R33, R35: a non-fresh batch. -/
def takeBatch (i : Nat) (n : Node) (number : Nat) (es : List FieldEvent) (s : State) : State :=
  if n.assembly.isSome then setAssembly i none none s
  else if n.wantsSnapshot then s
  else if n.accepted = some number then s
  else acceptBatch i n number es s

/-- The entries of a segment that name a place of the node (R35). -/
def entriesOf (target : Target) (es : List SnapEntry) : List SnapEntry :=
  match target with
  | .shelf base limit => es.filter fun e => decide (base ≤ e.place) && decide (e.place ≤ limit)
  | .rack => es.filter fun e => decide (e.place ≤ 11)
  | .probe _ | .fire _ | .air _ | .hatch | .terminal => es

/-- R36: a completed snapshot goes to its block. -/
def handSnapshot (target : Target) (es : List SnapEntry) (s : State) : State :=
  match target with
  | .shelf base limit => shelfSnapshot base limit es s
  | .rack => rackSnapshot es s
  | .hatch => hatchSnapshot (es.map (·.label)) s
  | .probe _ | .fire _ | .air _ | .terminal => s

/-- A segment added to an open assembly; the last one completes the snapshot (R36). -/
def addSegment (i : Nat) (n : Node) (held : List SnapEntry) (number : Nat) (last : Bool)
    (es : List SnapEntry) (s : State) : State :=
  let all := held ++ entriesOf n.binding.target es
  if last then handSnapshot n.binding.target all (setAssembly i none (some (number % 16)) s)
  else setAssembly i (some { entries := all, expected := number + 1 }) (some (number % 16)) s

/-- R35: a snapshot segment. Segment 0 opens anew by the first row of the table, also where an open assembly
expects segment 1 and the row of a repeat would fit too (log 59). -/
def takeSegment (i : Nat) (n : Node) (number : Nat) (last : Bool) (es : List SnapEntry) (s : State) :
    State :=
  if number = 0 then addSegment i n [] 0 last es s
  else
    match n.assembly with
    | none => setAssembly i none none s
    | some a =>
      if number = a.expected then addSegment i n a.entries number last es s
      else if number + 1 = a.expected then s
      else setAssembly i none none s

/-- The items of a valid answer of its kind (R33, R35, R37; log 34). -/
def takeItems (i : Nat) (r : Report) (items : Items) (s : State) : State :=
  match s.node? i with
  | none => s
  | some n =>
    match items with
    | .segment es => takeSegment i n r.number r.last es s
    | .events es =>
      if r.fresh then acceptBatch i n (r.number % 16) es s else takeBatch i n (r.number % 16) es s

/-! ## The end of a transaction -/

/-- How an addressed transaction ended (R31, R32). -/
inductive Ending where
  | miss
  | otherKind (r : Report)
  | valid (r : Report) (st : NodeState) (items : Items)
  deriving DecidableEq, Repr

/-- R31, R32: how a report ends a transaction with a node. A report whose content Table 1-9 does not allow
is an answer all the same (log 13). -/
def judge (t : Transaction) (n : Node) (bytes : List Byte) : Ending :=
  match readReport bytes with
  | none => .miss
  | some r =>
    if r.physicalId ≠ t.physicalId then .miss
    else if r.kind ≠ n.kind.code then .otherKind r
    else .valid r ((readState n.kind r.state).getD .none) (readItems n.kind r)

/-- R38: the in-flight entry of a transaction leaves the queue at a valid answer of its kind, and loses its
mark otherwise. -/
def endDelivery (delivered : Bool) (s : State) : State :=
  if delivered then s.withLink { s.link with queue := s.link.queue.filter fun e => !e.inFlight }
  else s.withLink { s.link with queue := s.link.queue.map fun e => { e with inFlight := false } }

/-- R45: a counted transaction goes to the link-quality window; at its end R46 may call for a step-down. -/
def countTransaction (counted missed : Bool) (s : State) : State :=
  if counted then
    let l := { s.link with transactions := s.link.transactions + 1,
                           errors := s.link.errors + (if missed then 1 else 0) }
    if l.transactions < l.windowLength then s.withLink l
    else
      let pending :=
        if h : s.param .errorThreshold ≤ l.errors ∧ l.rate.val < 3 ∧ l.pendingBroadcast = none then
          some { target := ⟨l.rate.val + 1, by omega⟩, sendRate := l.rate, event := .stepDown }
        else l.pendingBroadcast
      s.withLink { l with transactions := 0, errors := 0, windowLength := s.param .qualityWindow,
                          pendingBroadcast := pending }
  else s

/-- A valid answer's more-events flag sets the follow-up (R42). -/
def noteMore (i : Nat) (more : Bool) (s : State) : State :=
  if more then s.withLink { s.link with followUp := some i } else s

/-- R44: the reply of a forwarded transaction. -/
def forwardReply (origin : Origin) (st : Status) (data : List Byte) (s : State) : State :=
  match origin with
  | .forwarded => endForward st data s
  | .command _ | .firePoll | .routine | .hunting _ | .correction => s

/-- A miss (R32, R38, R44, R48). -/
def takeMiss (i : Nat) (n : Node) (t : Transaction) (s : State) : State :=
  let hunting := match t.origin with
    | .hunting _ => true
    | .command _ | .firePoll | .forwarded | .routine | .correction => false
  let s := putNode i (n.missed s.link.rate hunting) (endDelivery false s)
  dropForward i (forwardReply t.origin .nodeTimeout [] (healthChanged i n.health s))

/-- R32: the miss count after a valid answer of another kind. A node that stays MISMATCH keeps it
(log 42). -/
def Node.missesAfterOther (n : Node) : Nat := if n.health = .mismatch then n.misses else 0

/-- A valid answer of another kind (R32, R44). -/
def takeOtherKind (i : Nat) (n : Node) (t : Transaction) (r : Report) (s : State) : State :=
  let s := putNode i { n with health := .mismatch, misses := n.missesAfterOther } (endDelivery false s)
  dropForward i
    (forwardReply t.origin .nodeOffline [] (noteMore i r.more (healthChanged i n.health s)))

/-- A valid answer of its kind (R32 to R37, R44, R48): health, then state, then items. The data of a FORWARD
reply is queued whole, whatever its length (log 43). -/
def takeValid (i : Nat) (n : Node) (t : Transaction) (bytes : List Byte) (r : Report) (st : NodeState)
    (items : Items) (s : State) : State :=
  let rate := if t.code = rateCode then s.link.rate else n.rate
  let s := putNode i { n with health := .online, misses := 0, rate := rate } (endDelivery true s)
  let s := leaveStartup i (healthChanged i n.health s)
  let s := takeItems i r items (handState i n t.code st s)
  forwardReply t.origin .ok (reportForHost bytes) (noteMore i r.more s)

/-- R40, R48: the node a hunting poll has found, by a valid answer of its kind or of another (log 41). -/
def foundBy (i : Nat) (t : Transaction) : Option Nat :=
  match t.origin with
  | .hunting _ => some i
  | .command _ | .firePoll | .forwarded | .routine | .correction => none

/-- A report fails its CRC or carries another physical ID than the one polled (R31). -/
def reportMisses (t : Transaction) (bytes : List Byte) : Bool :=
  match readReport bytes with
  | none => true
  | some r => r.physicalId != t.physicalId

/-- A transaction whose node was unbound ends with nothing but its count (log 14). -/
def endOrphan (t : Transaction) (missed : Bool) (s : State) : State :=
  chooseTransaction none (countTransaction t.counted missed (endDelivery false s))

/-- R31: an addressed transaction ends, with a complete report or with none. -/
def endTransaction (t : Transaction) (bytes : Option (List Byte)) (s : State) : State :=
  let s := s.withLink { s.link with activity := .idle }
  match t.node.bind fun i => (s.node? i).map fun n => (i, n) with
  | none => endOrphan t ((bytes.map (reportMisses t)).getD true) s
  | some (i, n) =>
    match bytes with
    | none => chooseTransaction none (countTransaction t.counted true (takeMiss i n t s))
    | some bs =>
      match judge t n bs with
      | .miss => chooseTransaction none (countTransaction t.counted true (takeMiss i n t s))
      | .otherKind r =>
        chooseTransaction (foundBy i t)
          (countTransaction t.counted false (takeOtherKind i n t r s))
      | .valid r st items =>
        chooseTransaction (foundBy i t)
          (countTransaction t.counted false (takeValid i n t bs r st items s))

/-- R31: the last byte of a poll is sent; the reply timer starts. -/
def pollEnds (s : State) : State :=
  match s.link.activity with
  | .sending t => s.withLink { s.link with activity := .awaiting t (s.param .replyWindow) }
  | .idle | .broadcasting _ | .awaiting .. => s

/-- R31: a complete report arrives; bytes that no transaction waits for are ignored. -/
def reportArrives (bytes : List Byte) (s : State) : State :=
  match s.link.activity with
  | .awaiting t _ => endTransaction t (some bytes) s
  | .idle | .broadcasting _ | .sending _ => s

/-- R31: the reply timer expires. -/
def replyWindowEnds (s : State) : State :=
  match s.link.activity with
  | .awaiting t _ => endTransaction t none s
  | .idle | .broadcasting _ | .sending _ => s

/-! ## Rates (R46, R47) -/

/-- A node hears a broadcast: not OFFLINE, and believed at the send rate. -/
def Node.takesBroadcast (n : Node) (b : Broadcast) : Node :=
  if n.health ≠ .offline ∧ n.rate = b.sendRate then { n with rate := b.target } else n

/-- R46: the last byte of a rate broadcast is sent. -/
def broadcastEnds (s : State) : State :=
  match s.link.activity with
  | .broadcasting b =>
    post (.linkRate b.target b.event)
      ((s.withNodes (s.nodes.map fun p => (p.1, p.2.takesBroadcast b))).withLink
        { s.link with rate := b.target, transactions := 0, errors := 0,
                      windowLength := s.param .qualityWindow, pendingBroadcast := none,
                      activity := .idle })
  | .idle | .sending _ | .awaiting .. => s

/-- The rate the link is going to (R47). -/
def goingTo (s : State) : Fin 4 :=
  match s.link.pendingBroadcast with
  | some b => b.target
  | none => s.link.rate

/-- A broadcast on the wire that is replaced or withdrawn is broken off: its last byte is not sent
(log 15). -/
def breakOff : Activity → Activity
  | .broadcasting _ => .idle
  | .idle => .idle
  | .sending t => .sending t
  | .awaiting t left => .awaiting t left

/-- R47: the effect of RESTORE_LINK_RATE. -/
def restoreRate (s : State) : State :=
  let activity := breakOff s.link.activity
  if s.link.rate = 0 then
    post (.linkRate 0 .restored)
      (s.withLink { s.link with pendingBroadcast := none, activity := activity })
  else
    s.withLink { s.link with
      pendingBroadcast := some { target := 0, sendRate := s.link.rate, event := .restored },
      activity := activity }

/-! ## Binding and unbinding -/

/-- R27: the binding is handed to the owning block. -/
def bindTold (i : Nat) (t : Target) (s : State) : State :=
  match t with
  | .probe z => refreshReading z (resetAgreement z (setProbe i (some { report := none, age := none }) s))
  | .fire z => unboundFire z s
  | .air z => postMode z s
  | .hatch => bindHatch s
  | .shelf .. | .rack | .terminal => s

/-- R27: a node is bound. -/
def bindNodeEffect (i : Nat) (b : Binding) (s : State) : State :=
  let s := putNode i
    { binding := b, health := .online, misses := 0, accepted := none, rate := s.link.rate,
      assembly := none } s
  let s := match s.link.cursor with
    | some _ => s
    | none => s.withLink { s.link with cursor := some i }
  let s :=
    if s.device.condition = .starting then
      s.withDevice { s.device with startupSet := s.device.startupSet ++ [i] }
    else s
  bindTold i b.target (postHealth i s)

/-- R29: the owning block is told that a node is gone. -/
def unbindTold (i : Nat) (t : Target) (s : State) : State :=
  match t with
  | .probe z => refreshReading z (resetAgreement z (setProbe i none s))
  | .fire z => unboundFire z s
  | .hatch => unbindHatch s
  | .air _ | .shelf .. | .rack | .terminal => s

/-- A transaction with node i goes on without it (log 14). -/
def orphan (i : Nat) : Activity → Activity
  | .sending t => .sending (if t.node = some i then { t with node := none } else t)
  | .awaiting t left => .awaiting (if t.node = some i then { t with node := none } else t) left
  | .idle => .idle
  | .broadcasting b => .broadcasting b

/-- R29: a node is unbound. -/
def unbindNodeEffect (i : Nat) (n : Node) (s : State) : State :=
  let s := s.withNodes (s.nodes.erase i)
  let l := s.link
  let s := s.withLink { l with
    queue := l.queue.filter fun e => e.node != i,
    cursor := if l.cursor = some i then nextAfter s.nodes.places i else l.cursor,
    followUp := if l.followUp = some i then none else l.followUp,
    activity := orphan i l.activity }
  let s := post (.nodeHealth i .unbound 0 n.binding.physicalId) s
  leaveStartup i (unbindTold i n.binding.target s)

end Sys2Proof.Machine
end

