-- ==== Sys2Proof/Machine/Restart.lean ====
section
/-! DEFINITION. Restart: the rules that settings obey (R19, R24, R178), the loading, repair and
resolution of the retained state (R177 to R180), the restart itself (R176, R181) and the lines (R175). -/

namespace Sys2Proof.Machine

/-! ## Rules of the settings -/

/-- R19, checks 4 to 6. -/
def ClimateSettings.ok (c : ClimateSettings) : Bool :=
  decide (100 ≤ c.setpoint) && decide (c.setpoint ≤ 900) && decide (10 ≤ c.deadband) &&
  decide (c.deadband ≤ 200) && decide (c.rhLow < c.rhHigh) && decide (c.rhHigh ≤ 1000) &&
  decide (-200 ≤ c.tempLow) && decide (c.tempLow < c.tempHigh) && decide (c.tempHigh ≤ 600)

/-- R17: a window lies in 0 to 4095, base no greater than limit. -/
def windowOk : Option Window → Bool
  | some w => decide (w.base ≤ w.limit) && decide (w.limit ≤ 4095)
  | none => true

/-- No two zones share a slot. -/
def windowsDisjoint (zones : Vector ZoneSettings 8) : Bool :=
  zoneIds.all fun a => zoneIds.all fun b =>
    a == b || !windowsMeet zones[a].window zones[b].window

/-- R24: the physical ID is that of no other binding. -/
def idFree (others : Table Binding) (id : Nat) : Bool := others.all fun p => p.2.physicalId != id

/-- R24: the limits on kinds per zone and in the whole table. -/
def kindRoom (others : Table Binding) (t : Target) : Bool :=
  match t with
  | .probe _ => decide ((others.filter fun p => p.2.target == t).length < 2)
  | .shelf .. => true
  | .fire _ | .air _ | .rack | .hatch | .terminal => others.all fun p => p.2.target != t

/-- R24: a SHELF range lies wholly inside windows and shares no slot with another SHELF node's. -/
def shelfFits (zones : Vector ZoneSettings 8) (others : Table Binding) (t : Target) : Bool :=
  match t with
  | .shelf base limit =>
    rangeCovered zones base limit &&
      others.all fun p =>
        match p.2.target with
        | .shelf b l => !rangesMeet base limit b l
        | .probe _ | .fire _ | .air _ | .rack | .hatch | .terminal => true
  | .probe _ | .fire _ | .air _ | .rack | .hatch | .terminal => true

/-- A target's own operands lie in range (R26). -/
def Target.ok : Target → Bool
  | .shelf base limit => decide (base ≤ limit) && decide (limit ≤ 4095)
  | .probe _ | .fire _ | .air _ | .rack | .hatch | .terminal => true

/-- R24 for a table of bindings: each one beside those before it. -/
def bindingsOk (zones : Vector ZoneSettings 8) : Table Binding → Table Binding → Bool
  | _, [] => true
  | before, (i, b) :: rest =>
    decide (1 ≤ b.physicalId) && decide (b.physicalId ≤ 126) && b.target.ok &&
      idFree before b.physicalId && kindRoom before b.target && shelfFits zones before b.target &&
      bindingsOk zones (before ++ [(i, b)]) rest

/-- R178: saved settings are usable. -/
def SettingsData.usable (d : SettingsData) : Bool :=
  (Param.all.all fun p => p.valueOk (d.params.value p)) &&
  decide (d.params.value .disagreementCount ≤ d.params.value .agreementWindow) &&
  (zoneIds.all fun z => windowOk d.zones[z].window && d.zones[z].climate.ok) &&
  windowsDisjoint d.zones && d.bindings.wf Config.nodeEntries && bindingsOk d.zones [] d.bindings

/-- The full defaults (R178). -/
def SettingsData.defaults : SettingsData :=
  { params := .defaults, zones := Vector.replicate 8 .defaults, bindings := [] }

/-! ## Loading and repair (R177) -/

/-- The state at step 1 of R176: every volatile value at its restart value; the retained store, the
lines and the waiting commands stand. -/
def cleared (cause : Cause) (s : State) : State :=
  { device := { s.device with
      powerOnPending := false, condition := .starting, cause := cause, settingsDefaulted := false,
      storeFault := false, startupSet := [] },
    host := .restarted s.device.hrateStrap,
    notices := .restarted,
    link := .restarted (Params.defaults.value .qualityWindow) none,
    nodes := [],
    settings := .defaults,
    climate := .restarted,
    rack := .restarted,
    fire := .restarted,
    custody := { records := [], newestBlocked := none },
    orders := [],
    hatch := .restarted,
    handover := { roster := [], contexts := [] },
    store := { s.store with undo := [] },
    pending := s.pending }

/-- A record as loaded: no order slot, no carry deadline (R176, step 1). -/
def RecordData.toRecord (d : RecordData) : Record :=
  { label := d.label, home := d.home, state := d.state, location := d.location,
    custodian := d.custodian, exposed := d.exposed, orderSlot := none, carry := none }

/-- Loads one record place; both copies failing their checks leave it free and fault the store. -/
def loadRecord (i : Nat) (img : Image (Option RecordData)) (s : State) : State :=
  match img.loaded with
  | some (some d) => putRecord i d.toRecord s
  | some none => s
  | none => faultStore s

/-- Loads one roster entry. -/
def loadCourier (i : Nat) (img : Image (Option Courier)) (s : State) : State :=
  match img.loaded with
  | some (some c) => s.withHandover { s.handover with roster := s.handover.roster.put i c }
  | some none => s
  | none => faultStore s

/-- Loads every image that was ever written; the others are free (log 2). -/
def loadImages (s : State) : State :=
  let s := s.store.records.foldl (fun s p => loadRecord p.1 p.2 s) s
  s.store.roster.foldl (fun s p => loadCourier p.1 p.2 s) s

/-- A repeated label or home slot: the place is taken as free, written and faulted (log 27). -/
def repairRecord (i : Nat) (s : State) : State :=
  match s.record? i with
  | none => s
  | some r =>
    if s.custody.records.any fun p => decide (p.1 < i) && (p.2.label == r.label || p.2.home == r.home) then
      faultStore
        (writeRecord i (s.withCustody { s.custody with records := s.custody.records.erase i }))
    else s

/-- A repeated courier ID. -/
def repairCourier (i : Nat) (s : State) : State :=
  match s.courierAt? i with
  | none => s
  | some c =>
    if s.handover.roster.any fun p => decide (p.1 < i) && p.2.id == c.id then
      faultStore
        (writeCourier i (s.withHandover { s.handover with roster := s.handover.roster.erase i }))
    else s

/-- The courier a record names: its custodian, or the courier of a STAGED record's place. -/
def Record.namesCourier (r : Record) : Option Nat :=
  match r.custodian, r.state, r.location with
  | some id, _, _ => some id
  | none, .staged, .courier id => some id
  | none, _, _ => none

/-- A missing custodian: an entry is made for the ID in the lowest free place. -/
def repairCustodian (i : Nat) (s : State) : State :=
  match (s.record? i).bind Record.namesCourier with
  | none => s
  | some id =>
    if (findCourier s id).isSome then s
    else
      let k := s.handover.roster.lowestFree
      if k < Config.rosterEntries then
        faultStore (putCourier k { id := id, code := 0, state := .revoked, failed := 0 } s)
      else s

/-- R177: the repairs, in their order. -/
def repairImages (s : State) : State :=
  let s := (recordPlaces s).foldl (fun s i => repairRecord i s) s
  let s := s.handover.roster.places.foldl (fun s i => repairCourier i s) s
  (recordPlaces s).foldl (fun s i => repairCustodian i s) s

/-! ## Settings (R178) -/

/-- The settings that are loaded, and whether they were defaulted. -/
def loadedSettings (s : State) : SettingsData × Bool :=
  match s.store.settings.loaded with
  | some (some d) => if d.usable then (d, false) else (.defaults, true)
  | some none => (.defaults, true)
  | none => (.defaults, true)

/-- The slots that must lie in a window: homes, and slots at which records are located. -/
def heldSlots (s : State) : List Nat :=
  s.custody.records.flatMap fun p =>
    match p.2.location with
    | .slot n => [p.2.home, n]
    | .rack _ | .hatch | .inHand | .courier _ | .unknown => [p.2.home]

/-- R178: the zone table is recovered where a held slot lies in no window. -/
def recovered (held : List Nat) (d : SettingsData) : SettingsData :=
  let low := held.foldl min 4095
  let high := held.foldl max 0
  let zones := (Vector.map (fun (z : ZoneSettings) => { z with window := none }) d.zones)
  { d with
    zones := zones.set (0 : Fin 8) { zones[(0 : Fin 8)] with window := some { base := low, limit := high } },
    bindings := d.bindings.filter fun p =>
      match p.2.target with
      | .shelf base limit => decide (low ≤ base) && decide (limit ≤ high)
      | .probe _ | .fire _ | .air _ | .rack | .hatch | .terminal => true }

/-- A bound node after a restart (R49). -/
def Binding.restarted (b : Binding) : Node :=
  { binding := b, health := .online, misses := 0, accepted := none, rate := 0, assembly := none }

/-- The starting reading of each bound PROBE (R97). -/
def startProbes (bindings : Table Binding) : Table Probe :=
  (bindings.filter fun p => match p.2.target with
    | .probe _ => true
    | .fire _ | .air _ | .shelf .. | .rack | .hatch | .terminal => false).map
    fun p => (p.1, { report := none, age := none })

/-- R178, R49, R97: the working settings, the node table, and what follows from them. -/
def takeSettings (d : SettingsData) (defaulted : Bool) (s : State) : State :=
  let s := s.withSettings { params := d.params, zones := d.zones }
  let s := s.withNodes (d.bindings.map fun p => (p.1, p.2.restarted))
  let s := s.withDevice { s.device with settingsDefaulted := defaulted }
  let s := s.withLink (.restarted (s.param .qualityWindow) s.nodes.places.head?)
  s.withClimate { s.climate with
    probes := startProbes d.bindings,
    air := Vector.ofFn fun z => { AirReading.restarted with window := newAgreement s z } }

/-- R178. -/
def loadSettings (s : State) : State :=
  let (d, defaulted) := loadedSettings s
  let held := heldSlots s
  if held.all fun n => (zoneOfSlotIn d.zones n).isSome then takeSettings d defaulted s
  else takeSettings (recovered held d) true s

/-! ## Records (R179, R180) -/

/-- Counts a block that the restart made (R179, R180). -/
def noteRestartBlock (i : Nat) (s : State) : State :=
  setNewest (some (max i (s.custody.newestBlocked.getD 0))) s

/-- R179: a record resolved. -/
def Record.resolved (r : Record) : Record :=
  match r.state with
  | .reserved => { r with state := .shelved, custodian := none }
  | .picked | .conditioning .outbound | .ready _ => { r with state := .loose, custodian := none }
  | .conditioning .returning => { r with state := .received, custodian := none }
  | .staged =>
    { r with state := .blocked .powerLoss,
             custodian := match r.location with
               | .courier id => some id
               | .slot _ | .rack _ | .hatch | .inHand | .unknown => none }
  | .inbound => { r with state := .blocked .powerLoss, custodian := none }
  | .shelved | .out | .received | .loose | .blocked _ => r

/-- R179, R180: a record changed by the restart: written, and counted where it became BLOCKED. -/
def restartRecord (i : Nat) (old new : Record) (s : State) : State :=
  let s := writeRecord i (putRecord i new s)
  if new.state.isBlocked ∧ ¬ old.state.isBlocked then noteRestartBlock i s else s

/-- R179 for one place. -/
def resolveRecord (i : Nat) (s : State) : State :=
  match s.record? i with
  | none => s
  | some r => if r.resolved = r then s else restartRecord i r r.resolved s

/-- R180 for one record: its position takes it, or it becomes BLOCKED MISSING at UNKNOWN. -/
def rebuildRecord (i : Nat) (s : State) : State :=
  match s.record? i with
  | none => s
  | some r =>
    match r.location with
    | .rack p =>
      (match (s.position p).occupant with
       | none => setPosition p { occupant := some (.record i), dwell := none, paused := false } s
       | some _ => restartRecord i r (normalise (r.blockedAt .missing .unknown)) s)
    | .slot _ | .hatch | .inHand | .courier _ | .unknown => s

/-! ## The restart (R176) -/

/-- R176, step 6. The MODE commands are posted in ascending zone number (log 53). -/
def postOutputs (s : State) : State := postHatchCommands (zoneIds.foldl (fun s z => postMode z s) s)

/-- R176, step 7; STORE_FAULT was posted when the flag rose. -/
def postRestarted (s : State) : State :=
  let s := post (.restarted s.device.cause s.device.settingsDefaulted) s
  if s.custody.newestBlocked.isSome then post (blockedNotice s) s else s

/-- R176, step 8, R181. -/
def formStartupSet (s : State) : State :=
  settleStartup (s.withDevice { s.device with startupSet := s.nodes.places })

/-- R176: a restart, in its eight steps. -/
def restart (cause : Cause) (s : State) : State :=
  let s := loadSettings (repairImages (loadImages (cleared cause s)))
  let s := (recordPlaces s).foldl (fun s i => resolveRecord i s) s
  let s := (recordPlaces s).foldl (fun s i => rebuildRecord i s) s
  formStartupSet (postRestarted (postOutputs s))

/-! ## Lines (R175) -/

/-- R175: what stops when the part is held or loses power: nothing is taken or sent, ALARM OUT is
released (log 31). The other volatile state stands until the restart gives it its values. -/
def quiesce (s : State) : State :=
  let s := s.withHost { HostLink.restarted s.device.hrateStrap with
    rate := s.host.rate, framesDiscarded := s.host.framesDiscarded }
  let s := s.withLink { s.link with activity := .idle, forward := none }
  s.withFire { s.fire with alarmOut := false }

/-- Power is applied (R175). While RST is asserted the restart waits for its release. -/
def powerApplied (hrate : Bool) (s : State) : State :=
  if s.device.powered then s
  else
    let s := s.withDevice { s.device with powered := true, hrateStrap := hrate }
    if s.device.rst then s.withDevice { s.device with powerOnPending := true }
    else restart .powerOn s

/-- Power is lost (R171, R175); `unmade` image writes of the last event were not made (log 10). -/
def powerLost (unmade : Nat) (s : State) : State :=
  if s.device.powered then
    let s := quiesce (s.withStore (undoWrites unmade s.store))
    s.withDevice { s.device with powered := false, powerOnPending := false }
  else s

/-- RST is asserted (R175). The image writes of the event before stand: an assertion leaves none unmade
(log 63). -/
def rstAsserted (s : State) : State :=
  let s := s.withDevice { s.device with rst := true }
  if s.device.powered then quiesce s else s

/-- RST is released (R175). -/
def rstReleased (s : State) : State :=
  if s.device.rst then
    let s := s.withDevice { s.device with rst := false }
    if s.device.powered then restart (if s.device.powerOnPending then .powerOn else .resetLine) s
    else s
  else s

end Sys2Proof.Machine
end

