-- ==== Sys2Proof/Machine/Requests.lean ====
section
/-! DEFINITION. Requests: what each request of Table 1-3 answers and does once its length has been checked
(R5): general and parameter requests (R9 to R12), zones and nodes (R18 to R30), the field link (R43, R47)
and fire (R122 to R124). -/

namespace Sys2Proof.Machine

/-- What a block makes of a request: a reply with its status and data, or, for an accepted FORWARD, no
reply yet (R5). -/
inductive Answer where
  | reply (status : Status) (data : List Byte) (s : State)
  | held (s : State)
  deriving DecidableEq, Repr

/-- A refusal without data, which has no effect (R5). -/
def refuse (st : Status) (s : State) : Answer := .reply st [] s

/-- OK with data. -/
def okWith (data : List Byte) (s : State) : Answer := .reply .ok data s

/-- OK without data. -/
def okPlain (s : State) : Answer := .reply .ok [] s

/-- The first failing check of a list decides the reply (the tables of checks). -/
def firstFailure : List (Bool × Status) → Option Status
  | [] => none
  | (true, _) :: rest => firstFailure rest
  | (false, st) :: _ => some st

/-- A request with a table of checks. -/
def checked (checks : List (Bool × Status)) (s : State) (carry : Answer) : Answer :=
  match firstFailure checks with
  | some st => refuse st s
  | none => carry

/-! ## General requests -/

/-- The flags of STATUS (Table 1-5). -/
def statusFlags (s : State) : Byte :=
  let bit (b : Bool) (n : Nat) : Nat := if b then n else 0
  byteOf (bit s.device.settingsDefaulted 1 + bit s.host.framesDiscarded 2 + bit s.device.storeFault 4 +
    bit (lockout s) 8 + bit s.fire.alarmOut 16)

/-- STATUS data (Table 1-5). -/
def statusData (s : State) : List Byte :=
  [byteOf s.device.condition.code, byteOf s.device.cause.code, statusFlags s, byteOf s.link.rate.val] ++
  zoneIds.map (fun z => byteOf (s.zoneFire z).state.code) ++
  (List.range 11).flatMap (fun k => field16 (countState s k)) ++ [s.notices.mask, byteOf Config.revision]

/-- STATUS (R9): the frames-discarded flag is reported and cleared. -/
def statusRequest (s : State) : Answer :=
  okWith (statusData s) (s.withHost { s.host with framesDiscarded := false })

/-- SET_NOTICE_MASK (R10). -/
def setNoticeMaskRequest (mask : Byte) (s : State) : Answer :=
  if mask &&& 0xF1 ≠ 0 then refuse .badOperand s
  else okWith [mask] (s.withNotices { s.notices with mask := mask })

/-- RESTART (R11): the restart follows when its reply has been sent. -/
def restartRequest (s : State) : Answer := .reply .accepted [] s

/-- GET_PARAM (R12). -/
def getParamRequest (number : Byte) (s : State) : Answer :=
  match Param.ofNumber number.toNat with
  | none => refuse .badOperand s
  | some p => okWith (number :: field16 (s.param p)) s

/-- R12, check 3. -/
def agreementPairOk (s : State) (p : Param) (v : Nat) : Bool :=
  match p with
  | .agreementWindow => decide (s.param .disagreementCount ≤ v)
  | .disagreementCount => decide (v ≤ s.param .agreementWindow)
  | _ => true

/-- R23: the checks of a new rack zone or hatch zone. -/
def placementChecks (s : State) (p : Param) (v : Nat) : List (Bool × Status) :=
  match p with
  | .rackZone =>
    if v = s.param .rackZone then []
    else
      [((s.zoneFire s.rackZone).state == .normal && (s.zoneFire (Fin.ofNat 8 v)).state == .normal,
          .wrongState),
       (rackIds.all fun q => (s.position q).occupant.isNone, .inUse)]
  | .hatchZone =>
    if v = s.param .hatchZone then []
    else
      [((s.zoneFire s.hatchZone).state == .normal && (s.zoneFire (Fin.ofNat 8 v)).state == .normal,
          .wrongState),
       (s.hatch.owner == .nobody && s.hatch.waiting.isEmpty && s.hatch.contents.isEmpty && !someLive s,
          .inUse)]
  | _ => []

/-- Sets a parameter; a new rack zone reaches the Rack Controller (R23, R95). -/
def setParamEffect (p : Param) (v : Nat) (s : State) : State :=
  updateRackPause (s.withSettings { s.settings with params := s.settings.params.change p v })

/-- SET_PARAM (R12, R23). -/
def setParamRequest (number : Byte) (value : Half) (s : State) : Answer :=
  match Param.ofNumber number.toNat with
  | none => refuse .badOperand s
  | some p =>
    checked
      ([(p.valueOk value.toNat, .badOperand), (agreementPairOk s p value.toNat, .badOperand)] ++
        placementChecks s p value.toNat) s
      (okWith (number :: fieldHalf value) (setParamEffect p value.toNat s))

/-! ## Zones -/

/-- A zone operand of a store zone. -/
def zoneOperand (b : Byte) : Option (Fin 8) := if h : b.toNat < 8 then some ⟨b.toNat, h⟩ else none

/-- The layout of GET_ZONE (R18). -/
def zoneData (s : State) (z : Fin 8) : List Byte :=
  let e := s.zone z
  let c := e.climate
  [byteOf z.val, flagByte e.window.isSome] ++ field16OrAbsent (e.window.map (·.base)) ++
  field16OrAbsent (e.window.map (·.limit)) ++ field16 c.setpoint ++ field16 c.deadband ++
  field16 c.rhLow ++ field16 c.rhHigh ++ fieldTemp c.tempLow ++ fieldTemp c.tempHigh ++
  [flagByte e.armed]

/-- GET_ZONE (R18). -/
def getZoneRequest (zone : Byte) (s : State) : Answer :=
  match zoneOperand zone with
  | none => refuse .badOperand s
  | some z => okWith (zoneData s z) s

/-- R19, checks 2 and 3: the window-present byte and the window; none for a failing operand. -/
def windowOperand (present : Byte) (base limit : Half) : Option (Option Window) :=
  if present = 1 then
    if base.toNat ≤ limit.toNat ∧ limit.toNat ≤ 4095 then
      some (some { base := base.toNat, limit := limit.toNat })
    else none
  else if present = 0 ∧ base = 0xFFFF ∧ limit = 0xFFFF then some none
  else none

/-- The zone table with an entry replaced. -/
def zonesWith (s : State) (z : Fin 8) (w : Option Window) (c : ClimateSettings) :
    Vector ZoneSettings 8 :=
  s.settings.zones.set z { s.zone z with window := w, climate := c }

/-- A slot leaves a window. -/
def leavesWindow (old new : Option Window) (n : Nat) : Bool := windowHas old n && !windowHas new n

/-- R20: the placement checks of a SET_ZONE. -/
def setZoneChecks (s : State) (z : Fin 8) (w : Option Window) (c : ClimateSettings) :
    List (Bool × Status) :=
  let old := (s.zone z).window
  let zones := zonesWith s z w c
  [(w == old || (s.zoneFire z).state == .normal, .wrongState),
   (zoneIds.all fun y => y == z || !windowsMeet w (s.zone y).window, .conflict),
   (s.nodes.all fun p =>
      match p.2.binding.target with
      | .shelf base limit => rangeCovered zones base limit
      | .probe _ | .fire _ | .air _ | .rack | .hatch | .terminal => true, .conflict),
   (s.custody.records.all fun p => !leavesWindow old w p.2.home, .inUse),
   (s.custody.records.all fun p =>
      match p.2.location with
      | .slot n => !leavesWindow old w n
      | .rack _ | .hatch | .inHand | .courier _ | .unknown => true, .inUse)]

/-- SET_ZONE (R19 to R21). -/
def setZoneRequest (zone present : Byte)
    (base limit setpoint deadband rhLow rhHigh tempLow tempHigh : Half) (s : State) : Answer :=
  let c : ClimateSettings :=
    { setpoint := setpoint.toNat, deadband := deadband.toNat, rhLow := rhLow.toNat,
      rhHigh := rhHigh.toNat, tempLow := tempLow.toInt, tempHigh := tempHigh.toInt }
  match zoneOperand zone, windowOperand present base limit with
  | some z, some w =>
    if c.ok then
      let after := evaluateZone z false (s.withSettings { s.settings with zones := zonesWith s z w c })
      checked (setZoneChecks s z w c) s (okWith (zoneData after z) after)
    else refuse .badOperand s
  | _, _ => refuse .badOperand s

/-! ## Settings -/

/-- SAVE_SETTINGS (R173). -/
def saveSettingsRequest (s : State) : Answer :=
  if s.store.nextFails then .reply .storeFault [] (writeSettings s)
  else
    let s := writeSettings s
    okPlain (s.withDevice { s.device with settingsDefaulted := false })

/-- The parameters that LOAD_DEFAULTS leaves: the rack zone and the hatch zone are kept (R174). -/
def defaultedParams (ps : Params) : Params :=
  (Params.defaults.change .rackZone (ps.value .rackZone)).change .hatchZone (ps.value .hatchZone)

/-- R174 for one zone, all values set: an evaluation after changed climate settings, and a changed armed
flag taken as under SET_ARMED (log 26). -/
def zoneDefaulted (before : Vector ZoneSettings 8) (z : Fin 8) (s : State) : State :=
  let s := if before[z].climate = .defaults then s else evaluateZone z false s
  if before[z].armed then s else armedChanged z s

/-- LOAD_DEFAULTS (R174). -/
def loadDefaultsRequest (s : State) : Answer :=
  let before := s.settings.zones
  let s := s.withSettings
    { params := defaultedParams s.settings.params,
      zones := Vector.map (fun (z : ZoneSettings) => { z with climate := .defaults, armed := true })
        before }
  okPlain (zoneIds.foldl (fun s z => zoneDefaulted before z s) s)

/-! ## Nodes -/

/-- The zone byte of a target, 0xFF for kinds without one (R30). -/
def Target.zoneByte : Target → Byte
  | .probe z => byteOf z.val
  | .fire z => byteOf z.val
  | .air z => byteOf z.val
  | .shelf .. | .rack | .hatch | .terminal => 0xFF

/-- The slot range of a target, absent but for a SHELF (R30). -/
def Target.rangeData : Target → List Byte
  | .shelf base limit => field16 base ++ field16 limit
  | .probe _ | .fire _ | .air _ | .rack | .hatch | .terminal => [0xFF, 0xFF, 0xFF, 0xFF]

/-- The layout of GET_NODE (R30). -/
def nodeData (index : Byte) (n : Option Node) : List Byte :=
  match n with
  | none => [index, 0, 0, 0xFF, 0xFF, 0xFF, 0xFF, 0xFF, byteOf Health.unbound.code, 0, 0xFF, 0xFF]
  | some n =>
    let t := n.binding.target
    [index, byteOf t.kind.code, byteOf n.binding.physicalId, t.zoneByte] ++ t.rangeData ++
    [byteOf n.health.code, byteOf n.misses, byteOf (n.accepted.getD 0xFF), byteOf n.rate.val]

/-- A node table index operand is 0 to 31. -/
def indexOk (index : Byte) : Bool := decide (index.toNat < Config.nodeEntries)

/-- GET_NODE (R30). -/
def getNodeRequest (index : Byte) (s : State) : Answer :=
  if indexOk index then okWith (nodeData index (s.node? index.toNat)) s else refuse .badOperand s

/-- R26, the checks of zone and slots for a kind: the target, or none for operands out of form. -/
def targetOperand (k : NodeKind) (zone : Byte) (base limit : Half) : Option Target :=
  let absent := decide (base = 0xFFFF) && decide (limit = 0xFFFF)
  match k with
  | .probe => if h : zone.toNat < 9 then (if absent then some (.probe ⟨zone.toNat, h⟩) else none) else none
  | .fire => if h : zone.toNat < 8 then (if absent then some (.fire ⟨zone.toNat, h⟩) else none) else none
  | .air => if h : zone.toNat < 8 then (if absent then some (.air ⟨zone.toNat, h⟩) else none) else none
  | .shelf =>
    if zone = 0xFF ∧ base.toNat ≤ limit.toNat ∧ limit.toNat ≤ 4095 then
      some (.shelf base.toNat limit.toNat)
    else none
  | .rack => if zone = 0xFF ∧ absent then some .rack else none
  | .hatch => if zone = 0xFF ∧ absent then some .hatch else none
  | .terminal => if zone = 0xFF ∧ absent then some .terminal else none

/-- The settings fields of the bound entries. -/
def bindingsOf (s : State) : Table Binding := s.nodes.map fun p => (p.1, p.2.binding)

/-- R26, the last check: a FIRE node's zone is NORMAL. -/
def fireBindOk (s : State) : Target → Bool
  | .fire z => (s.zoneFire z).state == .normal
  | .probe _ | .air _ | .shelf .. | .rack | .hatch | .terminal => true

/-- R26: the checks after the operands. -/
def bindChecks (s : State) (i id : Nat) (t : Target) : List (Bool × Status) :=
  let others := bindingsOf s
  [((s.node? i).isNone, .inUse), (idFree others id, .conflict), (kindRoom others t, .conflict),
   (shelfFits s.settings.zones others t, .conflict), (fireBindOk s t, .wrongState)]

/-- BIND_NODE (R26, R27). -/
def bindNodeRequest (index physicalId kind zone : Byte) (base limit : Half) (s : State) : Answer :=
  let id := physicalId.toNat
  if indexOk index ∧ 1 ≤ id ∧ id ≤ 126 then
    match (NodeKind.ofCode kind.toNat).bind fun k => targetOperand k zone base limit with
    | none => refuse .badOperand s
    | some t =>
      checked (bindChecks s index.toNat id t) s
        (okPlain (bindNodeEffect index.toNat { physicalId := id, target := t } s))
  else refuse .badOperand s

/-- R28: the checks of a bound entry. -/
def unbindChecks (s : State) (n : Node) : List (Bool × Status) :=
  let t := n.binding.target
  [((targetZones s t).all fun z => (s.zoneFire z).state == .normal, .wrongState),
   (t != .rack || rackIds.all fun q => (s.position q).occupant.isNone, .inUse),
   (t != .hatch ||
      (s.hatch.owner == .nobody && s.hatch.waiting.isEmpty && s.hatch.contents.isEmpty), .inUse),
   ((t != .hatch && t != .terminal) || !someLive s, .inUse)]

/-- UNBIND_NODE (R28, R29). -/
def unbindNodeRequest (index : Byte) (s : State) : Answer :=
  if indexOk index then
    match s.node? index.toNat with
    | none => refuse .wrongState s
    | some n => checked (unbindChecks s n) s (okPlain (unbindNodeEffect index.toNat n s))
  else refuse .badOperand s

/-! ## Field link requests -/

/-- R43: the node command is of a class that may not be forwarded to the kind. -/
def forwardAllowed (n : Option Node) (code : Nat) : Bool :=
  code != rateCode &&
    match n with
    | some n => (n.kind != .fire && n.kind != .hatch) || decide (code ≤ 0x3F)
    | none => true

/-- FORWARD (R43): accepted, it holds execution until the node answers (R5, R44). -/
def forwardRequest (tag index command : Byte) (data : List Byte) (s : State) : Answer :=
  checked
    [(!lockout s, .fireUnacknowledged), (indexOk index, .badOperand),
     (usableNode s index.toNat, .nodeOffline),
     (forwardAllowed (s.node? index.toNat) command.toNat, .protectedCommand)] s
    (.held ((s.withHost { s.host with executing := some tag }).withLink
      { s.link with
        forward := some { node := index.toNat, code := command.toNat, data := data } }))

/-- RESTORE_LINK_RATE (R47). -/
def restoreLinkRateRequest (s : State) : Answer :=
  if goingTo s = 0 then refuse .wrongState s else okPlain (restoreRate s)

/-! ## Fire requests -/

/-- The reply of a fire request that succeeds: the zone's ZONE_FIRE content (R122). -/
def fireReply (z : Fin 8) (s : State) : Answer := okWith (zoneFireNotice s z).content s

/-- ACK_FIRE (R122). -/
def ackFireRequest (zone : Byte) (s : State) : Answer :=
  match zoneOperand zone with
  | none => refuse .badOperand s
  | some z =>
    let f := s.zoneFire z
    if f.state.inFire then
      if f.acknowledged then fireReply z s else fireReply z (acknowledge z s)
    else refuse .wrongState s

/-- R123: the conditions of FIRE_RESET. -/
def resetAllowed (f : ZoneFire) : Bool :=
  (f.state == .confirmed || f.state == .paused || f.state == .discharged) && !f.headA.isAlarm &&
    !f.headB.isAlarm && f.acknowledged

/-- FIRE_RESET (R123). -/
def fireResetRequest (zone : Byte) (s : State) : Answer :=
  match zoneOperand zone with
  | none => refuse .badOperand s
  | some z =>
    if resetAllowed (s.zoneFire z) then fireReply z (returnToNormal z s) else refuse .wrongState s

/-- A flag operand is 0 or 1. -/
def flagOperand (b : Byte) : Option Bool := if b = 0 then some false else if b = 1 then some true else none

/-- SET_ARMED (R122, R124). -/
def setArmedRequest (zone armed : Byte) (s : State) : Answer :=
  match zoneOperand zone, flagOperand armed with
  | some z, some a => fireReply z (setArmedFlag z a s)
  | _, _ => refuse .badOperand s

/-- SET_DRILL (R120, R122). -/
def setDrillRequest (zone start : Byte) (s : State) : Answer :=
  match zoneOperand zone, flagOperand start with
  | some z, some true =>
    let f := s.zoneFire z
    if f.state = .normal then fireReply z (confirmAndCount z { f with drill := true } s)
    else refuse .wrongState s
  | some z, some false =>
    let f := s.zoneFire z
    if (f.state = .confirmed ∨ f.state = .paused ∨ f.state = .discharged) ∧ f.drill then
      fireReply z (returnToNormal z s)
    else refuse .wrongState s
  | _, _ => refuse .badOperand s

end Sys2Proof.Machine
end

