-- ==== Sys2Proof/Machine/CustodyRequests.lean ====
section
/-! DEFINITION. CustodyRequests: the rack and hatch reads (R108, R145) and the override (R143), cartridge
records (R64 to R68), orders (R70, R71, R77, R82), couriers (R148, R149) and handovers (R158, R159, R165,
R169). -/

namespace Sys2Proof.Machine

/-! ## Rack and hatch -/

/-- One position of GET_RACK (R108). -/
def positionData (x : Position) : List Byte :=
  [flagByte x.occupant.isSome, flagByte x.paused] ++
  (match x.occupant with
   | some (.record i) => field16 i ++ fieldLabel absentLabel
   | some (.foreign l) => field16 0xFFFF ++ fieldLabel l
   | none => field16 0xFFFF ++ fieldLabel absentLabel) ++
  field16OrAbsent (x.dwell.map secondsUp)

/-- GET_RACK (R108). -/
def getRackRequest (s : State) : Answer :=
  okWith (rackIds.flatMap fun p => positionData (s.position p)) s

/-- The layout of GET_HATCH (R145). -/
def hatchData (s : State) : List Byte :=
  let h := s.hatch
  [byteOf h.owner.code, byteOf h.waiting.length, byteOf (h.waiting.getD 0 0xFF),
   byteOf (h.waiting.getD 1 0xFF), byteOf (h.yielded.getD 0xFF), byteOf h.air.code,
   byteOf (roomDoor s).code, byteOf (storeDoor s).code, byteOf (exitDoor s).code,
   byteOf h.roomLock.code, byteOf h.storeLock.code, byteOf h.exitLock.code,
   flagByte h.purge.isSome, flagByte h.retry.isSome] ++
  field16OrAbsent (h.wetDwell.map secondsUp) ++ [byteOf h.contents.length] ++
  h.contents.flatMap fieldLabel

/-- GET_HATCH (R145). -/
def getHatchRequest (s : State) : Answer := okWith (hatchData s) s

/-- HATCH_DRY_OVERRIDE (R143). -/
def hatchDryOverrideRequest (s : State) : Answer :=
  checked
    [(!lockout s, .fireUnacknowledged), (s.hatch.owner != .fire, .wrongState),
     (s.hatch.air == .wet, .wrongState)] s
    (okPlain (hatchDryOverrideEffect s))

/-! ## Cartridge records -/

/-- R64: the checks of ENROL_CARTRIDGE. -/
def enrolChecks (s : State) (label : Label) (home : Nat) : List (Bool × Status) :=
  [(labelOk label, .badOperand), (decide (home ≤ 4095), .badOperand),
   (!s.device.storeFault, .storeFault), ((zoneOfSlot s home).isSome, .badOperand),
   ((findLabel s label).isNone, .duplicate),
   (s.custody.records.all fun p => p.2.home != home, .duplicate),
   ((findAt s (.slot home)).isNone, .inUse),
   (decide (s.custody.records.lowestFree < Config.recordPlaces), .tableFull)]

/-- R64: a new record at its home slot. -/
def Record.enrolled (label : Label) (home : Nat) : Record :=
  { label := label, home := home, state := .shelved, location := .slot home, custodian := none,
    exposed := false, orderSlot := none, carry := none }

/-- ENROL_CARTRIDGE (R64). A rack position that holds the label as a foreign one keeps it so until its next
sighting (log 55). -/
def enrolCartridgeRequest (label : Label) (home : Half) (s : State) : Answer :=
  let i := s.custody.records.lowestFree
  checked (enrolChecks s label home.toNat) s
    (okWith (field16 i)
      (updateWetDwell
        (climateTold i none (writeRecord i (putRecord i (.enrolled label home.toNat) s)))))

/-- A record may be retired from its state (R65). -/
def CState.retirable : CState → Bool
  | .shelved | .blocked _ => true
  | .reserved | .picked | .conditioning _ | .ready _ | .staged | .out | .inbound | .received
  | .loose => false

/-- R65: the checks of a record to retire. -/
def retireChecks (s : State) (i : Nat) (r : Record) : List (Bool × Status) :=
  [(r.state.retirable, .wrongState),
   (match r.location with
    | .rack _ => false
    | .slot _ | .hatch | .inHand | .courier _ | .unknown => true, .inUse),
   (s.orders.all fun p => p.2.entries.all fun e => e.record != i, .inUse)]

/-- R65: the place becomes free. A record that was BLOCKED leaves the count and the reference (R53). -/
def retireEffect (i : Nat) (r : Record) (s : State) : State :=
  let s := writeRecord i (s.withCustody { s.custody with records := s.custody.records.erase i })
  updateWetDwell (blockedNote false i r.state .shelved s)

/-- RETIRE_CARTRIDGE (R65). -/
def retireCartridgeRequest (label : Label) (s : State) : Answer :=
  if labelOk label then
    match findLabel s label with
    | none => refuse .notFound s
    | some i =>
      match s.record? i with
      | none => refuse .notFound s
      | some r => checked (retireChecks s i r) s (okPlain (retireEffect i r s))
  else refuse .badOperand s

/-- The layout of GET_CARTRIDGE (R66). -/
def cartridgeData (i : Nat) (r : Record) : List Byte :=
  field16 i ++ fieldLabel r.label ++ field16 r.home ++
  [byteOf r.state.code, byteOf r.state.directionCode, byteOf r.location.kindCode] ++
  field16 r.location.number ++ field16 (r.custodian.getD 0) ++
  [byteOf (reasonCode r.state.reason), flagByte r.exposed, byteOf (r.orderSlot.getD 0xFF)]

/-- GET_CARTRIDGE (R66). -/
def getCartridgeRequest (label : Label) (s : State) : Answer :=
  if labelOk label then
    match findLabel s label with
    | none => refuse .notFound s
    | some i =>
      match s.record? i with
      | none => refuse .notFound s
      | some r => okWith (cartridgeData i r) s
  else refuse .badOperand s

/-- R67: the records listed from a start index, at most 16. -/
def listedFrom (s : State) (start filter : Nat) : List (Nat × Record) :=
  (s.custody.records.filter fun p =>
    decide (start ≤ p.1) && (filter == 0xFF || p.2.state.code == filter)).take 16

/-- R67: the next index. -/
def nextIndex (listed : List (Nat × Record)) : Nat :=
  match listed.getLast? with
  | some p => if listed.length = 16 ∧ p.1 < 2047 then p.1 + 1 else 0xFFFF
  | none => 0xFFFF

/-- LIST_CARTRIDGES (R67). -/
def listCartridgesRequest (start : Half) (filter : Byte) (s : State) : Answer :=
  if start.toNat ≤ 2047 ∧ (filter.toNat ≤ 10 ∨ filter = 0xFF) then
    let listed := listedFrom s start.toNat filter.toNat
    okWith
      (field16 (nextIndex listed) ++ [byteOf listed.length] ++
        listed.flatMap fun p => field16 p.1 ++ fieldLabel p.2.label ++ [byteOf p.2.state.code]) s
  else refuse .badOperand s

/-- R68: a record that leaves BLOCKED, by its location. -/
def Record.unblocked (r : Record) : Record :=
  match r.location with
  | .slot n => if n = r.home then { r with state := .shelved } else { r with state := .loose }
  | .courier _ => { r with state := .loose, location := .inHand }
  | .rack _ | .hatch | .inHand | .unknown => { r with state := .loose }

/-- UNBLOCK_CARTRIDGE (R68). -/
def unblockCartridgeRequest (label : Label) (s : State) : Answer :=
  checked
    [(!lockout s, .fireUnacknowledged), (labelOk label, .badOperand),
     (!s.device.storeFault, .storeFault), ((findLabel s label).isSome, .notFound)] s
    (match (findLabel s label).bind fun i => (s.record? i).map fun r => (i, r) with
     | none => refuse .notFound s
     | some (i, r) =>
       if r.state.isBlocked then okPlain (changeRecord .custody false i r.unblocked s)
       else refuse .wrongState s)

/-! ## Orders -/

/-- The position of the first list entry that fails. -/
def firstBad {α : Type} (ok : α → Bool) (xs : List α) : Option Nat := xs.findIdx? fun x => !ok x

/-- A refusal of CHECKOUT: one data byte, the position or 0xFF (R5, R70). -/
def refuseAt (st : Status) (position : Nat) (s : State) : Answer :=
  .reply st [byteOf position] s

/-- The position of the first label that repeats an earlier one (R70, check 10). -/
def firstRepeat : List Label → List Label → Option Nat
  | _, [] => none
  | seen, l :: ls => if seen.contains l then some seen.length else firstRepeat (seen ++ [l]) ls

/-- The record of a label. -/
def recordOf (s : State) (l : Label) : Option Record := (findLabel s l).bind s.record?

/-- R70, check 13. -/
def homeNotInFire (s : State) (r : Record) : Bool :=
  match zoneOfSlot s r.home with
  | some z => !(s.zoneFire z).state.inFire
  | none => true

/-- R70, checks 9 to 13: the first failure over the list. -/
def listFailure (s : State) (labels : List Label) : Option (Status × Nat) :=
  let test (p : Record → Bool) (l : Label) : Bool :=
    match recordOf s l with
    | some r => p r
    | none => false
  ((firstBad labelOk labels).map fun n => (Status.badOperand, n)) <|>
  ((firstRepeat [] labels).map fun n => (Status.duplicate, n)) <|>
  ((firstBad (test fun _ => true) labels).map fun n => (Status.notFound, n)) <|>
  ((firstBad (test fun r => r.state == .shelved) labels).map fun n => (Status.wrongState, n)) <|>
  ((firstBad (test (homeNotInFire s)) labels).map fun n => (Status.wrongState, n))

/-- R70, checks 1 to 8. -/
def checkoutChecks (s : State) (orderTag courier deadline count : Nat) : List (Bool × Status) :=
  let entry := (findCourier s courier).bind s.courierAt?
  [(s.device.condition == .running, .starting), (!lockout s, .fireUnacknowledged),
   (!s.device.storeFault, .storeFault),
   (decide (1 ≤ orderTag) && decide (1 ≤ courier) && decide (courier ≤ 65000) &&
      decide (deadline ≤ 1440), .badOperand),
   ((findOrder s orderTag).isNone, .duplicate),
   (decide (s.orders.lowestFree < Config.orderSlots), .tableFull),
   (entry.isSome, .notFound),
   (match entry with
    | some c => c.state == .active
    | none => false, .wrongState),
   (decide (1 ≤ count) && decide (count ≤ 24), .badOperand)]

/-- R71: a record reserved for an order. -/
def reserve (k i : Nat) (s : State) : State :=
  claim .orders i (fun r => r.state == .shelved && r.location == .slot r.home)
    (fun r => { r with state := .reserved, orderSlot := some k }) s

/-- R71: a CHECKOUT carried out in slot k. -/
def checkoutEffect (k orderTag courier deadline : Nat) (labels : List Label) (s : State) : State :=
  let places := labels.filterMap fun l => findLabel s l
  let s := putOrder k
    { tag := orderTag, courier := courier,
      deadline := if deadline = 0 then none else some (deadline * minuteMs),
      entries := places.map fun i => { record := i, handed := false }, state := .opened } s
  let s := places.foldl (fun s i => reserve k i s) s
  postOrder k (evaluateOrder k s)

/-- CHECKOUT (R70, R71). -/
def checkoutRequest (orderTag : Byte) (courier deadline : Half) (count : Byte) (labels : List Label)
    (s : State) : Answer :=
  match firstFailure (checkoutChecks s orderTag.toNat courier.toNat deadline.toNat count.toNat) with
  | some st => refuseAt st 0xFF s
  | none =>
    match listFailure s labels with
    | some (st, n) => refuseAt st n s
    | none =>
      let k := s.orders.lowestFree
      okWith [byteOf k] (checkoutEffect k orderTag.toNat courier.toNat deadline.toNat labels s)

/-- CANCEL_ORDER (R77). -/
def cancelOrderRequest (orderTag : Byte) (s : State) : Answer :=
  if orderTag = 0 then refuse .badOperand s
  else
    match (findOrder s orderTag.toNat).bind fun k => (s.order? k).map fun o => (k, o) with
    | none => refuse .notFound s
    | some (k, o) =>
      if o.state.isWaiting then okPlain (finishOrder k .cancelled s) else refuse .wrongState s

/-- The layout of GET_ORDER (R82). -/
def orderData (k : Nat) (o : Order) : List Byte :=
  [byteOf k, byteOf o.tag] ++ field16 o.courier ++ field16OrAbsent (o.deadline.map minutesUp) ++
  [byteOf o.state.code, byteOf o.state.outcomeCode, byteOf o.handedCount, byteOf o.entries.length] ++
  o.entries.flatMap fun e => field16 e.record ++ [flagByte e.handed]

/-- GET_ORDER (R82). -/
def getOrderRequest (orderTag : Byte) (s : State) : Answer :=
  if orderTag = 0 then refuse .badOperand s
  else
    match (findOrder s orderTag.toNat).bind fun k => (s.order? k).map fun o => (k, o) with
    | none => refuse .notFound s
    | some (k, o) => okWith (orderData k o) s

/-! ## Couriers -/

/-- A courier ID operand is 1 to 65000. -/
def courierIdOk (courier : Half) : Bool := decide (1 ≤ courier.toNat) && decide (courier.toNat ≤ 65000)

/-- The roster place an enrolment takes: the entry that holds the ID, else the lowest free one (R148). -/
def enrolPlace (s : State) (id : Nat) : Nat := (findCourier s id).getD s.handover.roster.lowestFree

/-- ENROL_COURIER (R148). -/
def enrolCourierRequest (courier : Half) (code : BitVec 24) (s : State) : Answer :=
  let id := courier.toNat
  checked
    [(courierIdOk courier, .badOperand), (decide (code.toNat ≤ 999999), .badOperand),
     (!s.device.storeFault, .storeFault),
     (decide (enrolPlace s id < Config.rosterEntries), .tableFull)] s
    (okPlain
      (putCourier (enrolPlace s id) { id := id, code := code.toNat, state := .active, failed := 0 } s))

/-- A courier request by ID: the roster place and entry, or the refusal (R149). -/
def withCourier (courier : Half) (s : State) (carry : Nat → Courier → Answer) : Answer :=
  if courierIdOk courier then
    match (findCourier s courier.toNat).bind fun i => (s.courierAt? i).map fun c => (i, c) with
    | none => refuse .notFound s
    | some (i, c) => carry i c
  else refuse .badOperand s

/-- REVOKE_COURIER (R149). -/
def revokeCourierRequest (courier : Half) (s : State) : Answer :=
  withCourier courier s fun i c =>
    if courierHasOrder s c.id || (courierContext s c.id).isSome then refuse .inUse s
    else okPlain (changeCourier i c { c with state := .revoked } s)

/-- REINSTATE_COURIER (R149). -/
def reinstateCourierRequest (courier : Half) (s : State) : Answer :=
  withCourier courier s fun i c =>
    if c.state = .active then refuse .wrongState s
    else okPlain (changeCourier i c { c with state := .active, failed := 0 } s)

/-- GET_COURIER (R149). -/
def getCourierRequest (courier : Half) (s : State) : Answer :=
  withCourier courier s fun _ c =>
    okWith (field16 c.id ++ [byteOf c.state.code, byteOf c.failed]) s

/-! ## Handovers -/

/-- The layout of GET_HANDOVER (R169). -/
def handoverData (s : State) (context : Byte) : List Byte :=
  match s.context? context.toNat with
  | none =>
    [context, 0] ++ field16 0 ++ [0, byteOf Phase.ended.code, 0xFF, 0] ++ field16 0xFFFF ++ [0, 0, 0]
  | some x =>
    [context, flagByte x.live] ++ field16 x.courier ++
    [byteOf x.direction.code, byteOf x.phase.code, byteOf (stepCode (x.finish.map (·.1))),
     flagByte (s.hatch.yielded == some context.toNat)] ++
    field16OrAbsent (x.timer.map secondsUp) ++
    [byteOf (outcomeCode (x.finish.map (·.2))), byteOf x.manifest.length] ++
    x.manifest.flatMap (fun e => field16 e.record ++ [flagByte e.taken]) ++
    [byteOf x.rejected.length] ++ x.rejected.flatMap fieldLabel

/-- A context operand is 0 or 1. -/
def contextOk (context : Byte) : Bool := decide (context.toNat ≤ 1)

/-- GET_HANDOVER (R169). -/
def getHandoverRequest (context : Byte) (s : State) : Answer :=
  if contextOk context then okWith (handoverData s context) s else refuse .badOperand s

/-- The context is live and in AWAIT_RELEASE. -/
def awaitsRelease (s : State) (c : Nat) : Bool :=
  match liveContext? s c with
  | some x => x.phase == .awaitRelease
  | none => false

/-- ACCEPT_HANDOVER (R158). -/
def acceptHandoverRequest (context : Byte) (s : State) : Answer :=
  checked
    [(!lockout s, .fireUnacknowledged), (contextOk context, .badOperand),
     (!s.device.storeFault, .storeFault), (awaitsRelease s context.toNat, .wrongState)] s
    (okPlain (acceptEffect context.toNat s))

/-- DISPUTE_HANDOVER (R159). -/
def disputeHandoverRequest (context : Byte) (s : State) : Answer :=
  checked [(contextOk context, .badOperand), (awaitsRelease s context.toNat, .wrongState)] s
    (okPlain (disputeEffect context.toNat s))

/-- ABORT_HANDOVER (R165). -/
def abortHandoverRequest (context : Byte) (s : State) : Answer :=
  if contextOk context then
    match (liveContext? s context.toNat).bind (abortEffect context.toNat) with
    | none => refuse .wrongState s
    | some f => okPlain (f s)
  else refuse .badOperand s

end Sys2Proof.Machine
end

