-- ==== Sys2Proof/WellFormed.lean ====
section
/-! DEFINITION. WellFormed: which command terms the links can carry at all. A frame body is 3 to 253
bytes (R1), a label list is as long as its count (Table 1-3), forwarded data is at most 200 bytes. The
meanings are total and take ill-formed terms as well; these checks say which terms a host, a node or
the lines can produce. -/

namespace Sys2Proof

/-- The request codes of Table 1-3. -/
def requestCodes : List Nat :=
  [0x01, 0x02, 0x03, 0x10, 0x11, 0x12, 0x13, 0x14, 0x15, 0x20, 0x21, 0x22, 0x23, 0x24] ++
  [0x30, 0x31, 0x32, 0x33, 0x40, 0x41, 0x42, 0x50, 0x51, 0x52, 0x53, 0x54] ++
  [0x60, 0x61, 0x62, 0x70, 0x71, 0x72, 0x73, 0x80, 0x81, 0x82, 0x83]

/-- A body of 3 to 253 bytes (R1). -/
def bodyLengthOk (n : Nat) : Bool := 3 ≤ n && n ≤ 253

/-- The check of a command's form. -/
def Instr.wellFormed : Instr → Bool
  | .hostFrameReceived body => bodyLengthOk body.length
  | .unknownRequest _ code operands =>
      bodyLengthOk (operands.length + 2) && !requestCodes.contains code.toNat
  | .forward _ _ _ data => data.length ≤ 200
  | .checkout _ _ _ _ count labels =>
      labels.length = count.toNat && bodyLengthOk (8 + 8 * labels.length)
  | .fieldReportReceived report => 8 ≤ report.length
  | .frameTimerExpiry | .frameSent | .status .. | .setNoticeMask .. | .restart .. | .getParam ..
  | .setParam .. | .getZone .. | .setZone .. | .saveSettings .. | .loadDefaults .. | .getNode ..
  | .bindNode .. | .unbindNode .. | .restoreLinkRate .. | .ackFire .. | .fireReset .. | .setArmed ..
  | .setDrill .. | .getRack .. | .getHatch .. | .hatchDryOverride .. | .enrolCartridge ..
  | .retireCartridge .. | .getCartridge .. | .listCartridges .. | .unblockCartridge ..
  | .cancelOrder .. | .getOrder .. | .enrolCourier .. | .revokeCourier .. | .reinstateCourier ..
  | .getCourier .. | .getHandover .. | .acceptHandover .. | .disputeHandover .. | .abortHandover ..
  | .pollSent | .replyWindowExpiry | .rateBroadcastSent | .deadlineExpiry .. | .probeAgeTimerExpiry ..
  | .graceTimerExpiry .. | .minuteTimerExpiry .. | .dwellCompletion .. | .carryWindowExpiry ..
  | .alertTimerExpiry .. | .countdownTimerExpiry .. | .ackTimerExpiry .. | .purgeMinimumTimerExpiry
  | .purgeMaximumTimerExpiry | .retryDelayExpiry | .wetDwellExpiry | .hatchWaitLimitExpiry ..
  | .loadingLimitExpiry .. | .collectingLimitExpiry .. | .releaseWaitLimitExpiry ..
  | .recallLimitExpiry .. | .powerOn .. | .powerLoss .. | .resetLineAssert | .resetLineRelease
  | .hostCharacterReceived .. => true

end Sys2Proof
end

