-- ==== Sys2Proof/Machine/HostLink.lean ====
section
/-! DEFINITION. HostLink: the receiver (R1), admission (R2), execution (R4, R5), the transmitter (R8) and
what a sent frame frees (R11, R14, R81, R168); the event that every command is (log 11). -/

namespace Sys2Proof.Machine

/-! ## Execution -/

/-- A request of one operand byte. -/
def withByte (ops : List Byte) (s : State) (k : Byte → Answer) : Answer :=
  match ops with
  | [a] => k a
  | _ => refuse .badOperand s

/-- A request of two operand bytes. -/
def withTwo (ops : List Byte) (s : State) (k : Byte → Byte → Answer) : Answer :=
  match ops with
  | [a, b] => k a b
  | _ => refuse .badOperand s

/-- A request of one 16-bit operand. -/
def withHalf (ops : List Byte) (s : State) (k : Half → Answer) : Answer :=
  withTwo ops s fun hi lo => k (hi ++ lo)

/-- A request of three operand bytes. -/
def withThree (ops : List Byte) (s : State) (k : Byte → Byte → Byte → Answer) : Answer :=
  match ops with
  | [a, b, c] => k a b c
  | _ => refuse .badOperand s

/-- The operands of SET_ZONE. -/
def carrySetZone (ops : List Byte) (s : State) : Answer :=
  match ops with
  | [zone, present, b1, b0, l1, l0, s1, s0, d1, d0, rl1, rl0, rh1, rh0, tl1, tl0, th1, th0] =>
    setZoneRequest zone present (b1 ++ b0) (l1 ++ l0) (s1 ++ s0) (d1 ++ d0) (rl1 ++ rl0) (rh1 ++ rh0)
      (tl1 ++ tl0) (th1 ++ th0) s
  | _ => refuse .badOperand s

/-- The operands of BIND_NODE. -/
def carryBindNode (ops : List Byte) (s : State) : Answer :=
  match ops with
  | [index, id, kind, zone, b1, b0, l1, l0] =>
    bindNodeRequest index id kind zone (b1 ++ b0) (l1 ++ l0) s
  | _ => refuse .badOperand s

/-- The operands of FORWARD. -/
def carryForward (tag : Byte) (ops : List Byte) (s : State) : Answer :=
  match ops with
  | index :: command :: data => forwardRequest tag index command data s
  | _ => refuse .badOperand s

/-- The operands of CHECKOUT. -/
def carryCheckout (ops : List Byte) (s : State) : Answer :=
  match ops with
  | orderTag :: c1 :: c0 :: d1 :: d0 :: count :: labels =>
    checkoutRequest orderTag (c1 ++ c0) (d1 ++ d0) count (readLabels count.toNat labels) s
  | _ => refuse .badOperand s

/-- The operands of ENROL_COURIER. -/
def carryEnrolCourier (ops : List Byte) (s : State) : Answer :=
  match ops with
  | [c1, c0, k2, k1, k0] => enrolCourierRequest (c1 ++ c0) (k2 ++ k1 ++ k0) s
  | _ => refuse .badOperand s

/-- The block that owns a request carries it out (Table 1-3). The operand length has been checked (R4). -/
def carryOut (tag code : Byte) (ops : List Byte) (s : State) : Answer :=
  match code.toNat with
  | 0x01 => statusRequest s
  | 0x02 => withByte ops s fun mask => setNoticeMaskRequest mask s
  | 0x03 => restartRequest s
  | 0x10 => withByte ops s fun number => getParamRequest number s
  | 0x11 => withThree ops s fun number v1 v0 => setParamRequest number (v1 ++ v0) s
  | 0x12 => withByte ops s fun zone => getZoneRequest zone s
  | 0x13 => carrySetZone ops s
  | 0x14 => saveSettingsRequest s
  | 0x15 => loadDefaultsRequest s
  | 0x20 => withByte ops s fun index => getNodeRequest index s
  | 0x21 => carryBindNode ops s
  | 0x22 => withByte ops s fun index => unbindNodeRequest index s
  | 0x23 => carryForward tag ops s
  | 0x24 => restoreLinkRateRequest s
  | 0x30 => withByte ops s fun zone => ackFireRequest zone s
  | 0x31 => withByte ops s fun zone => fireResetRequest zone s
  | 0x32 => withTwo ops s fun zone armed => setArmedRequest zone armed s
  | 0x33 => withTwo ops s fun zone start => setDrillRequest zone start s
  | 0x40 => getRackRequest s
  | 0x41 => getHatchRequest s
  | 0x42 => hatchDryOverrideRequest s
  | 0x50 => enrolCartridgeRequest (readLabel (ops.take 8)) (BitVec.ofNat 16 (readBytes (ops.drop 8))) s
  | 0x51 => retireCartridgeRequest (readLabel ops) s
  | 0x52 => getCartridgeRequest (readLabel ops) s
  | 0x53 => withThree ops s fun i1 i0 filter => listCartridgesRequest (i1 ++ i0) filter s
  | 0x54 => unblockCartridgeRequest (readLabel ops) s
  | 0x60 => carryCheckout ops s
  | 0x61 => withByte ops s fun orderTag => cancelOrderRequest orderTag s
  | 0x62 => withByte ops s fun orderTag => getOrderRequest orderTag s
  | 0x70 => carryEnrolCourier ops s
  | 0x71 => withHalf ops s fun courier => revokeCourierRequest courier s
  | 0x72 => withHalf ops s fun courier => reinstateCourierRequest courier s
  | 0x73 => withHalf ops s fun courier => getCourierRequest courier s
  | 0x80 => withByte ops s fun context => getHandoverRequest context s
  | 0x81 => withByte ops s fun context => acceptHandoverRequest context s
  | 0x82 => withByte ops s fun context => disputeHandoverRequest context s
  | 0x83 => withByte ops s fun context => abortHandoverRequest context s
  | _ => refuse .badOperand s

/-- R4, R5: the checks of the Host Link Controller, then the owning block. -/
def execute (f : Frame) (s : State) : Answer :=
  if f.tag = 0 then refuse .badTag s
  else
    match operandsOk f.code.toNat f.operands with
    | none => refuse .unknownRequest s
    | some false => refuse .badOperand s
    | some true => carryOut f.tag f.code f.operands s

/-- R5: the reply goes to the kept place; an accepted FORWARD stays in execution. -/
def takeAnswer (tag code : Byte) (a : Answer) : State :=
  match a with
  | .reply st data s =>
    s.withHost { s.host with replies := s.host.replies ++
      [{ place := .kept, tag := tag, code := code, status := st, data := data }] }
  | .held s => s

/-- The kept place is occupied; a waiting RESTART reply stands there (R4, R11). -/
def keptOccupied (s : State) : Bool := s.host.replies.any fun r => r.place == .kept

/-- R4: the frame in the receive buffer begins execution where nothing holds it back. -/
def tryBegin (s : State) : State :=
  match s.host.buffer with
  | none => s
  | some f =>
    if s.host.executing.isSome || keptOccupied s then s
    else takeAnswer f.tag f.code (execute f (s.withHost { s.host with buffer := none }))

/-! ## Reception -/

/-- A frame is discarded (R1). The frame timer stops (log 32). -/
def discardFrame (s : State) : State :=
  s.withHost { s.host with receiver := .hunt, frameTimer := none, framesDiscarded := true }

/-- R2: a well-formed frame is admitted. -/
def takeIn (f : Frame) (s : State) : State :=
  match s.host.buffer with
  | none => tryBegin (s.withHost { s.host with buffer := some f })
  | some _ => refuseFrame f .linkBusy s

/-- R1: a well-formed frame is complete: the timer is discarded, the receiver returns to HUNT. -/
def frameComplete (f : Frame) (s : State) : State :=
  takeIn f (s.withHost { s.host with receiver := .hunt, frameTimer := none })

/-- A body arrives in a frame with a good CRC; a length outside 3 to 253 is discarded (R1). -/
def bodyComplete (body : List Byte) (s : State) : State :=
  if bodyLengthOk body.length then frameComplete (.ofBody body) s else discardFrame s

/-- Sets the receive state. -/
def setReceiver (r : Receiver) (s : State) : State := s.withHost { s.host with receiver := r }

/-- R1: one character with its stop bit. -/
def takeCharacter (c : Byte) (s : State) : State :=
  match s.host.receiver with
  | .hunt =>
    if c = 0x5A then
      s.withHost { s.host with receiver := .length, frameTimer := some Config.frameTime }
    else s
  | .length =>
    if bodyLengthOk c.toNat then setReceiver (.body c.toNat []) s else discardFrame s
  | .body n taken =>
    let taken := taken ++ [c]
    setReceiver (if taken.length < n then .body n taken else .check n taken none) s
  | .check n taken none => setReceiver (.check n taken (some c)) s
  | .check n taken (some first) =>
    if fieldHalf (crc (byteOf n :: taken)) = [first, c] then frameComplete (.ofBody taken) s
    else discardFrame s

/-- R1: one character; without its stop bit it discards the frame, and is ignored in HUNT. -/
def characterArrives (c : Byte) (stopBit : Bool) (s : State) : State :=
  if stopBit then takeCharacter c s
  else if s.host.receiver = .hunt then s
  else discardFrame s

/-- R1: the frame timer expires. -/
def frameTimerEnds (s : State) : State :=
  match s.host.frameTimer with
  | some _ => discardFrame s
  | none => s

/-! ## Transmission -/

/-- A class is masked (R10); class 0 has no mask. -/
def classMasked (mask : Byte) (cls : Nat) : Bool := cls != 0 && mask.getLsbD cls

/-- R14: the eligible notice that is sent next. -/
def nextNotice (s : State) : Option Notice :=
  (s.notices.pending.find? fun p => !classMasked s.notices.mask p.2.cls).map (·.2)

/-- R8: the transmit arbiter's choice where the line is idle. A reply keeps its place until it is sent; a
notice leaves the pending set as its transmission begins (R14). -/
def settleHost (s : State) : State :=
  match s.host.transmitting with
  | some _ => s
  | none =>
    match s.host.replies with
    | r :: _ => s.withHost { s.host with transmitting := some (.reply r) }
    | [] =>
      match nextNotice s with
      | none => s
      | some n =>
        (s.withNotices { s.notices with pending := s.notices.pending.erase n.rank }).withHost
          { s.host with transmitting := some (.notice n) }

/-- R81: a sent ORDER_STATE that carries FINISHED frees its slot. -/
def orderStateSent (k : Nat) (st : OrderState) (s : State) : State :=
  if st.isFinished then s.withOrders (s.orders.erase k) else s

/-- R168: a sent HANDOVER_STATE that carries END frees an ENDED slot. -/
def handoverStateSent (c : Nat) (ph : Phase) (s : State) : State :=
  match s.context? c with
  | none => s
  | some x =>
    if ph = .ended ∧ ¬ x.live then
      s.withHandover { s.handover with contexts := s.handover.contexts.erase c }
    else s

/-- R14: a sent notice is reported to the block that posted it. -/
def noticeSent (n : Notice) (s : State) : State :=
  match n with
  | .orderState k _ st _ _ => orderStateSent k st s
  | .handoverState c _ _ ph _ _ _ _ => handoverStateSent c ph s
  | .zoneFire .. | .alarmOut .. | .restarted .. | .blockedChanged .. | .foreignLabel .. | .storeFault
  | .zoneClimate .. | .rackPosition .. | .hatchAir .. | .nodeHealth .. | .linkRate .. => s

/-- The reply of an accepted RESTART (R11). -/
def Reply.isRestart (r : Reply) : Bool := r.code == 0x03 && r.status == .accepted

/-- R8: the last byte of the outgoing frame is sent. A reply frees its place, and a waiting frame may begin
(R4); a sent RESTART reply restarts the part (R11). -/
def outgoingSent (s : State) : State :=
  match s.host.transmitting with
  | none => s
  | some (.reply r) =>
    let s := s.withHost { s.host with transmitting := none, replies := s.host.replies.tail }
    if r.isRestart then restart .restartRequest s else tryBegin s
  | some (.notice n) => noticeSent n (s.withHost { s.host with transmitting := none })

/-! ## Events -/

/-- At the end of an event both arbiters choose, each where its line is idle (R8, R40; log 11). -/
def settle (s : State) : State := settleHost (settleField s)

/-- The image writes of an earlier event can no longer be overtaken by a power loss (log 10). -/
def startEvent (s : State) : State := s.withStore { s.store with undo := [] }

/-- One event: taken whole by a part that has power and is not held; else without effect (log 6). -/
def event (f : State → State) (s : State) : Host.Outcome State Fault Refusal :=
  if s.up then .next (settle (f (startEvent s))) else .next s

/-- A line event: it reaches the part whether it is held or not; a running part's arbiters then choose. -/
def lineEvent (f : State → State) (s : State) : Host.Outcome State Fault Refusal :=
  let s := f s
  .next (if s.up then settle s else s)

/-- A request: its frame arrives complete (log 1). -/
def request (tag code : Byte) (ops : List Byte) (s : State) : Host.Outcome State Fault Refusal :=
  event (bodyComplete (tag :: code :: ops)) s

end Sys2Proof.Machine
end

