-- ==== Sys2Proof/Machine/FieldCommands.lean ====
section
/-! DEFINITION. FieldCommands: the meanings of the field link rows. One definition per command over the shared operations. -/

namespace Sys2Proof.Machine

/-- R31: the last byte of a poll has been sent. -/
def execPollSent (s : State) : Host.Outcome State Fault Refusal :=
  event pollEnds s

/-- R31: a complete report has arrived. -/
def execFieldReportReceived (report : List Byte) (s : State) : Host.Outcome State Fault Refusal :=
  event (reportArrives report) s

/-- R31: the reply timer expires. -/
def execReplyWindowExpiry (s : State) : Host.Outcome State Fault Refusal :=
  event replyWindowEnds s

/-- R46: the last byte of a rate broadcast has been sent. -/
def execRateBroadcastSent (s : State) : Host.Outcome State Fault Refusal :=
  event broadcastEnds s

end Sys2Proof.Machine
end

