-- ==== Sys2Proof/Machine/HostCommands.lean ====
section
/-! DEFINITION. HostCommands: the meanings of the host link rows: characters, frames, and every request. One definition per command over the shared operations. -/

namespace Sys2Proof.Machine

/-- R2: a well-formed host frame is complete; its body is admitted or refused. -/
def execHostFrameReceived (body : List Byte) (s : State) : Host.Outcome State Fault Refusal :=
  event (bodyComplete body) s

/-- R1: the frame timer expires; the partial frame is discarded. -/
def execFrameTimerExpiry (s : State) : Host.Outcome State Fault Refusal :=
  event frameTimerEnds s

/-- R8: the last byte of an outgoing frame is sent. -/
def execFrameSent (s : State) : Host.Outcome State Fault Refusal :=
  event outgoingSent s

/-- R4: a request whose code is not in Table 1-3. -/
def execUnknownRequest (tag code : Byte) (operands : List Byte) (s : State) :
    Host.Outcome State Fault Refusal :=
  request tag code operands s

/-- R1: one character on HRXD. -/
def execHostCharacterReceived (character : Byte) (stopBit : Bool) (s : State) :
    Host.Outcome State Fault Refusal :=
  event (characterArrives character stopBit) s

/-- STATUS (R9). -/
def execStatus (tag filler : Byte) (s : State) : Host.Outcome State Fault Refusal :=
  request tag 0x01 [filler] s

/-- SET_NOTICE_MASK (R10). -/
def execSetNoticeMask (tag mask : Byte) (s : State) : Host.Outcome State Fault Refusal :=
  request tag 0x02 [mask] s

/-- RESTART (R11). -/
def execRestart (tag filler : Byte) (s : State) : Host.Outcome State Fault Refusal :=
  request tag 0x03 [filler] s

/-- GET_PARAM (R12). -/
def execGetParam (tag number : Byte) (s : State) : Host.Outcome State Fault Refusal :=
  request tag 0x10 [number] s

/-- SET_PARAM (R12, R23). -/
def execSetParam (tag number : Byte) (value : Half) (s : State) :
    Host.Outcome State Fault Refusal :=
  request tag 0x11 (number :: fieldHalf value) s

/-- GET_ZONE (R18). -/
def execGetZone (tag zone : Byte) (s : State) : Host.Outcome State Fault Refusal :=
  request tag 0x12 [zone] s

/-- SET_ZONE (R19 to R21). -/
def execSetZone (tag zone present : Byte)
    (base limit setpoint deadband rhLow rhHigh tempLow tempHigh : Half) (s : State) :
    Host.Outcome State Fault Refusal :=
  request tag 0x13
    ([zone, present] ++ fieldHalf base ++ fieldHalf limit ++ fieldHalf setpoint ++ fieldHalf deadband ++
      fieldHalf rhLow ++ fieldHalf rhHigh ++ fieldHalf tempLow ++ fieldHalf tempHigh) s

/-- SAVE_SETTINGS (R173). -/
def execSaveSettings (tag filler : Byte) (s : State) : Host.Outcome State Fault Refusal :=
  request tag 0x14 [filler] s

/-- LOAD_DEFAULTS (R174). -/
def execLoadDefaults (tag filler : Byte) (s : State) : Host.Outcome State Fault Refusal :=
  request tag 0x15 [filler] s

/-- GET_NODE (R30). -/
def execGetNode (tag index : Byte) (s : State) : Host.Outcome State Fault Refusal :=
  request tag 0x20 [index] s

/-- BIND_NODE (R26, R27). -/
def execBindNode (tag index physicalId kind zone : Byte) (base limit : Half) (s : State) :
    Host.Outcome State Fault Refusal :=
  request tag 0x21
    ([index, physicalId, kind, zone] ++ fieldHalf base ++ fieldHalf limit) s

/-- UNBIND_NODE (R28, R29). -/
def execUnbindNode (tag index : Byte) (s : State) : Host.Outcome State Fault Refusal :=
  request tag 0x22 [index] s

/-- FORWARD (R43, R44). -/
def execForward (tag index command : Byte) (data : List Byte) (s : State) :
    Host.Outcome State Fault Refusal :=
  request tag 0x23 (index :: command :: data) s

/-- RESTORE_LINK_RATE (R47). -/
def execRestoreLinkRate (tag filler : Byte) (s : State) : Host.Outcome State Fault Refusal :=
  request tag 0x24 [filler] s

/-- ACK_FIRE (R122). -/
def execAckFire (tag zone : Byte) (s : State) : Host.Outcome State Fault Refusal :=
  request tag 0x30 [zone] s

/-- FIRE_RESET (R123). -/
def execFireReset (tag zone : Byte) (s : State) : Host.Outcome State Fault Refusal :=
  request tag 0x31 [zone] s

/-- SET_ARMED (R124). -/
def execSetArmed (tag zone armed : Byte) (s : State) : Host.Outcome State Fault Refusal :=
  request tag 0x32 [zone, armed] s

/-- SET_DRILL (R120). -/
def execSetDrill (tag zone start : Byte) (s : State) : Host.Outcome State Fault Refusal :=
  request tag 0x33 [zone, start] s

/-- GET_RACK (R108). -/
def execGetRack (tag filler : Byte) (s : State) : Host.Outcome State Fault Refusal :=
  request tag 0x40 [filler] s

/-- GET_HATCH (R145). -/
def execGetHatch (tag filler : Byte) (s : State) : Host.Outcome State Fault Refusal :=
  request tag 0x41 [filler] s

/-- HATCH_DRY_OVERRIDE (R143). -/
def execHatchDryOverride (tag filler : Byte) (s : State) : Host.Outcome State Fault Refusal :=
  request tag 0x42 [filler] s

/-- ENROL_CARTRIDGE (R64). -/
def execEnrolCartridge (tag : Byte) (label : Label) (home : Half) (s : State) :
    Host.Outcome State Fault Refusal :=
  request tag 0x50 (fieldLabel label ++ fieldHalf home) s

/-- RETIRE_CARTRIDGE (R65). -/
def execRetireCartridge (tag : Byte) (label : Label) (s : State) :
    Host.Outcome State Fault Refusal :=
  request tag 0x51 (fieldLabel label) s

/-- GET_CARTRIDGE (R66). -/
def execGetCartridge (tag : Byte) (label : Label) (s : State) : Host.Outcome State Fault Refusal :=
  request tag 0x52 (fieldLabel label) s

/-- LIST_CARTRIDGES (R67). -/
def execListCartridges (tag : Byte) (start : Half) (filter : Byte) (s : State) :
    Host.Outcome State Fault Refusal :=
  request tag 0x53 (fieldHalf start ++ [filter]) s

/-- UNBLOCK_CARTRIDGE (R68). -/
def execUnblockCartridge (tag : Byte) (label : Label) (s : State) :
    Host.Outcome State Fault Refusal :=
  request tag 0x54 (fieldLabel label) s

/-- CHECKOUT (R70, R71). -/
def execCheckout (tag orderTag : Byte) (courier deadline : Half) (count : Byte)
    (labels : List Label) (s : State) :
    Host.Outcome State Fault Refusal :=
  request tag 0x60
    ([orderTag] ++ fieldHalf courier ++ fieldHalf deadline ++ [count] ++ labels.flatMap fieldLabel) s

/-- CANCEL_ORDER (R77). -/
def execCancelOrder (tag orderTag : Byte) (s : State) : Host.Outcome State Fault Refusal :=
  request tag 0x61 [orderTag] s

/-- GET_ORDER (R82). -/
def execGetOrder (tag orderTag : Byte) (s : State) : Host.Outcome State Fault Refusal :=
  request tag 0x62 [orderTag] s

/-- ENROL_COURIER (R148). -/
def execEnrolCourier (tag : Byte) (courier : Half) (code : BitVec 24) (s : State) :
    Host.Outcome State Fault Refusal :=
  request tag 0x70 (fieldHalf courier ++ field24 code.toNat) s

/-- REVOKE_COURIER (R149). -/
def execRevokeCourier (tag : Byte) (courier : Half) (s : State) :
    Host.Outcome State Fault Refusal :=
  request tag 0x71 (fieldHalf courier) s

/-- REINSTATE_COURIER (R149). -/
def execReinstateCourier (tag : Byte) (courier : Half) (s : State) :
    Host.Outcome State Fault Refusal :=
  request tag 0x72 (fieldHalf courier) s

/-- GET_COURIER (R149). -/
def execGetCourier (tag : Byte) (courier : Half) (s : State) : Host.Outcome State Fault Refusal :=
  request tag 0x73 (fieldHalf courier) s

/-- GET_HANDOVER (R169). -/
def execGetHandover (tag context : Byte) (s : State) : Host.Outcome State Fault Refusal :=
  request tag 0x80 [context] s

/-- ACCEPT_HANDOVER (R158). -/
def execAcceptHandover (tag context : Byte) (s : State) : Host.Outcome State Fault Refusal :=
  request tag 0x81 [context] s

/-- DISPUTE_HANDOVER (R159). -/
def execDisputeHandover (tag context : Byte) (s : State) : Host.Outcome State Fault Refusal :=
  request tag 0x82 [context] s

/-- ABORT_HANDOVER (R165). -/
def execAbortHandover (tag context : Byte) (s : State) : Host.Outcome State Fault Refusal :=
  request tag 0x83 [context] s

end Sys2Proof.Machine
end

