-- ==== Sys2Proof/Machine/LineCommands.lean ====
section
/-! DEFINITION. LineCommands: the meanings of the power and RST rows (R175; log 31). One definition per command over the shared operations. -/

namespace Sys2Proof.Machine

/-- R175: power is applied. -/
def execPowerOn (hrate : Bool) (s : State) : Host.Outcome State Fault Refusal :=
  lineEvent (powerApplied hrate) s

/-- R175: power is lost, with some image writes of the last event not made (log 10). -/
def execPowerLoss (unmade : Nat) (s : State) : Host.Outcome State Fault Refusal :=
  lineEvent (powerLost unmade) s

/-- R175: RST is asserted. -/
def execResetLineAssert (s : State) : Host.Outcome State Fault Refusal :=
  lineEvent (fun s => rstAsserted (startEvent s)) s

/-- R175: RST is released. -/
def execResetLineRelease (s : State) : Host.Outcome State Fault Refusal :=
  lineEvent rstReleased s

end Sys2Proof.Machine
end

