-- ==== Sys2Proof/Machine/TimerCommands.lean ====
section
/-! DEFINITION. TimerCommands: the meanings of the timer rows. An expiry acts where its timer runs, and has no effect elsewhere (log 5). One definition per command over the shared operations. -/

namespace Sys2Proof.Machine

/-- R75: the deadline of a slot runs, in OPEN or READY, and expires. -/
def deadlineEnds (k : Nat) (s : State) : State :=
  match s.order? k with
  | none => s
  | some o => if o.state.isWaiting ∧ o.deadline.isSome then finishOrder k .expired s else s

/-- R104: the dwell of a position runs and completes. -/
def dwellEnds (p : Fin 12) (s : State) : State :=
  if (s.position p).paused then s else completeDwell p s

/-- R75: an order's deadline expires, in OPEN or READY. -/
def execDeadlineExpiry (slot : Fin 16) (s : State) : Host.Outcome State Fault Refusal :=
  event (deadlineEnds slot.val) s

/-- R84: a probe's age timer expires. -/
def execProbeAgeTimerExpiry (node : Fin 32) (s : State) : Host.Outcome State Fault Refusal :=
  event (probeAgeExpired node.val) s

/-- R91: a grace timer expires. -/
def execGraceTimerExpiry (zone : Fin 8) (s : State) : Host.Outcome State Fault Refusal :=
  event (graceExpired zone) s

/-- R91: a minute timer expires. -/
def execMinuteTimerExpiry (zone : Fin 8) (s : State) : Host.Outcome State Fault Refusal :=
  event (minuteExpired zone) s

/-- R104: a dwell completes. A paused dwell does not (R100). -/
def execDwellCompletion (position : Fin 12) (s : State) : Host.Outcome State Fault Refusal :=
  event (dwellEnds position) s

/-- R105: a carry window runs out. -/
def execCarryWindowExpiry (record : Fin 2048) (s : State) : Host.Outcome State Fault Refusal :=
  event (carryExpired record.val) s

/-- R114: an alert timer expires. -/
def execAlertTimerExpiry (zone : Fin 8) (s : State) : Host.Outcome State Fault Refusal :=
  event (alertExpired zone) s

/-- R117: a countdown timer expires. -/
def execCountdownTimerExpiry (zone : Fin 8) (s : State) : Host.Outcome State Fault Refusal :=
  event (countdownExpired zone) s

/-- R125: an acknowledgement timer expires. -/
def execAckTimerExpiry (zone : Fin 8) (s : State) : Host.Outcome State Fault Refusal :=
  event (ackExpired zone) s

/-- R141: the minimum purge timer expires. -/
def execPurgeMinimumTimerExpiry (s : State) : Host.Outcome State Fault Refusal :=
  event purgeMinExpired s

/-- R141: the maximum purge timer expires. -/
def execPurgeMaximumTimerExpiry (s : State) : Host.Outcome State Fault Refusal :=
  event purgeMaxExpired s

/-- R142: the retry delay expires. -/
def execRetryDelayExpiry (s : State) : Host.Outcome State Fault Refusal :=
  event retryExpired s

/-- R144: the wet-dwell timer expires. -/
def execWetDwellExpiry (s : State) : Host.Outcome State Fault Refusal :=
  event wetDwellExpired s

/-- R153: a hatch wait limit expires. -/
def execHatchWaitLimitExpiry (context : Fin 2) (s : State) : Host.Outcome State Fault Refusal :=
  event (waitLimitExpired context.val) s

/-- R156, R163: a loading limit expires. -/
def execLoadingLimitExpiry (context : Fin 2) (s : State) : Host.Outcome State Fault Refusal :=
  event (loadingLimitExpired context.val) s

/-- R157: a collecting limit expires. -/
def execCollectingLimitExpiry (context : Fin 2) (s : State) : Host.Outcome State Fault Refusal :=
  event (collectingLimitExpired context.val) s

/-- R159: a release wait limit expires. -/
def execReleaseWaitLimitExpiry (context : Fin 2) (s : State) : Host.Outcome State Fault Refusal :=
  event (releaseLimitExpired context.val) s

/-- R160, R164: a recall limit expires. -/
def execRecallLimitExpiry (context : Fin 2) (s : State) : Host.Outcome State Fault Refusal :=
  event (recallLimitExpired context.val) s

end Sys2Proof.Machine
end

