-- ==== Sys2Proof/Machine/Dispatch.lean ====
section
/-! DEFINITION. Dispatch: one arm per command, each a call of its meaning. -/

namespace Sys2Proof.Machine

def exec (i : Instr) (s : State) : Host.Outcome State Fault Refusal :=
  match i with
  | .hostFrameReceived body => Sys2Proof.Machine.execHostFrameReceived body s
  | .frameTimerExpiry => Sys2Proof.Machine.execFrameTimerExpiry s
  | .frameSent => Sys2Proof.Machine.execFrameSent s
  | .unknownRequest tag code operands => Sys2Proof.Machine.execUnknownRequest tag code operands s
  | .status tag filler => Sys2Proof.Machine.execStatus tag filler s
  | .setNoticeMask tag mask => Sys2Proof.Machine.execSetNoticeMask tag mask s
  | .restart tag filler => Sys2Proof.Machine.execRestart tag filler s
  | .getParam tag number => Sys2Proof.Machine.execGetParam tag number s
  | .setParam tag number value => Sys2Proof.Machine.execSetParam tag number value s
  | .getZone tag zone => Sys2Proof.Machine.execGetZone tag zone s
  | .setZone tag zone present base limit setpoint deadband rhLow rhHigh tempLow tempHigh => Sys2Proof.Machine.execSetZone tag zone present base limit setpoint deadband rhLow rhHigh tempLow tempHigh s
  | .saveSettings tag filler => Sys2Proof.Machine.execSaveSettings tag filler s
  | .loadDefaults tag filler => Sys2Proof.Machine.execLoadDefaults tag filler s
  | .getNode tag index => Sys2Proof.Machine.execGetNode tag index s
  | .bindNode tag index physicalId kind zone base limit => Sys2Proof.Machine.execBindNode tag index physicalId kind zone base limit s
  | .unbindNode tag index => Sys2Proof.Machine.execUnbindNode tag index s
  | .forward tag index command data => Sys2Proof.Machine.execForward tag index command data s
  | .restoreLinkRate tag filler => Sys2Proof.Machine.execRestoreLinkRate tag filler s
  | .ackFire tag zone => Sys2Proof.Machine.execAckFire tag zone s
  | .fireReset tag zone => Sys2Proof.Machine.execFireReset tag zone s
  | .setArmed tag zone armed => Sys2Proof.Machine.execSetArmed tag zone armed s
  | .setDrill tag zone start => Sys2Proof.Machine.execSetDrill tag zone start s
  | .getRack tag filler => Sys2Proof.Machine.execGetRack tag filler s
  | .getHatch tag filler => Sys2Proof.Machine.execGetHatch tag filler s
  | .hatchDryOverride tag filler => Sys2Proof.Machine.execHatchDryOverride tag filler s
  | .enrolCartridge tag label home => Sys2Proof.Machine.execEnrolCartridge tag label home s
  | .retireCartridge tag label => Sys2Proof.Machine.execRetireCartridge tag label s
  | .getCartridge tag label => Sys2Proof.Machine.execGetCartridge tag label s
  | .listCartridges tag start filter => Sys2Proof.Machine.execListCartridges tag start filter s
  | .unblockCartridge tag label => Sys2Proof.Machine.execUnblockCartridge tag label s
  | .checkout tag orderTag courier deadline count labels => Sys2Proof.Machine.execCheckout tag orderTag courier deadline count labels s
  | .cancelOrder tag orderTag => Sys2Proof.Machine.execCancelOrder tag orderTag s
  | .getOrder tag orderTag => Sys2Proof.Machine.execGetOrder tag orderTag s
  | .enrolCourier tag courier code => Sys2Proof.Machine.execEnrolCourier tag courier code s
  | .revokeCourier tag courier => Sys2Proof.Machine.execRevokeCourier tag courier s
  | .reinstateCourier tag courier => Sys2Proof.Machine.execReinstateCourier tag courier s
  | .getCourier tag courier => Sys2Proof.Machine.execGetCourier tag courier s
  | .getHandover tag context => Sys2Proof.Machine.execGetHandover tag context s
  | .acceptHandover tag context => Sys2Proof.Machine.execAcceptHandover tag context s
  | .disputeHandover tag context => Sys2Proof.Machine.execDisputeHandover tag context s
  | .abortHandover tag context => Sys2Proof.Machine.execAbortHandover tag context s
  | .pollSent => Sys2Proof.Machine.execPollSent s
  | .fieldReportReceived report => Sys2Proof.Machine.execFieldReportReceived report s
  | .replyWindowExpiry => Sys2Proof.Machine.execReplyWindowExpiry s
  | .rateBroadcastSent => Sys2Proof.Machine.execRateBroadcastSent s
  | .deadlineExpiry slot => Sys2Proof.Machine.execDeadlineExpiry slot s
  | .probeAgeTimerExpiry node => Sys2Proof.Machine.execProbeAgeTimerExpiry node s
  | .graceTimerExpiry zone => Sys2Proof.Machine.execGraceTimerExpiry zone s
  | .minuteTimerExpiry zone => Sys2Proof.Machine.execMinuteTimerExpiry zone s
  | .dwellCompletion position => Sys2Proof.Machine.execDwellCompletion position s
  | .carryWindowExpiry record => Sys2Proof.Machine.execCarryWindowExpiry record s
  | .alertTimerExpiry zone => Sys2Proof.Machine.execAlertTimerExpiry zone s
  | .countdownTimerExpiry zone => Sys2Proof.Machine.execCountdownTimerExpiry zone s
  | .ackTimerExpiry zone => Sys2Proof.Machine.execAckTimerExpiry zone s
  | .purgeMinimumTimerExpiry => Sys2Proof.Machine.execPurgeMinimumTimerExpiry s
  | .purgeMaximumTimerExpiry => Sys2Proof.Machine.execPurgeMaximumTimerExpiry s
  | .retryDelayExpiry => Sys2Proof.Machine.execRetryDelayExpiry s
  | .wetDwellExpiry => Sys2Proof.Machine.execWetDwellExpiry s
  | .hatchWaitLimitExpiry context => Sys2Proof.Machine.execHatchWaitLimitExpiry context s
  | .loadingLimitExpiry context => Sys2Proof.Machine.execLoadingLimitExpiry context s
  | .collectingLimitExpiry context => Sys2Proof.Machine.execCollectingLimitExpiry context s
  | .releaseWaitLimitExpiry context => Sys2Proof.Machine.execReleaseWaitLimitExpiry context s
  | .recallLimitExpiry context => Sys2Proof.Machine.execRecallLimitExpiry context s
  | .powerOn hrate => Sys2Proof.Machine.execPowerOn hrate s
  | .powerLoss unmade => Sys2Proof.Machine.execPowerLoss unmade s
  | .resetLineAssert => Sys2Proof.Machine.execResetLineAssert s
  | .resetLineRelease => Sys2Proof.Machine.execResetLineRelease s
  | .hostCharacterReceived character stopBit => Sys2Proof.Machine.execHostCharacterReceived character stopBit s

end Sys2Proof.Machine
end

