-- ==== Sys2Proof/Machine/Tick.lean ====
section
/-! DEFINITION. Tick: 1 ms of time on an empty queue. The table has no row for time passing: every running
timer loses 1 ms, and the expiries that fall due are put into the queue in the order of the table's rows,
ascending within a row (DESIGN CHOICE, log 4). -/

namespace Sys2Proof.Machine

/-! ## Time passes -/

/-- A running timer after 1 ms. -/
def countDown (t : Option Nat) : Option Nat := t.map (· - 1)

/-- A timer that runs only under a condition; elsewhere it keeps the time it has left. -/
def countDownIf (running : Bool) (t : Option Nat) : Option Nat := if running then countDown t else t

/-- The reading of a store zone is known: its excursion timers are not frozen (R92). -/
def readingKnown (s : State) (z : Fin 8) : Bool := (s.airAt (airZone z)).reading.isSome

/-- The field link's reply timer. -/
def Activity.tick : Activity → Activity
  | .awaiting t left => .awaiting t (left - 1)
  | .idle => .idle
  | .broadcasting b => .broadcasting b
  | .sending t => .sending t

/-- A deadline counts down in OPEN and READY (R75). -/
def Order.tick (o : Order) : Order := { o with deadline := countDownIf o.state.isWaiting o.deadline }

/-- A probe's age timer (R83). -/
def Probe.tick (p : Probe) : Probe := { p with age := countDown p.age }

/-- The excursion timers of a zone (R91, R92). -/
def ZoneClimate.tick (known : Bool) (c : ZoneClimate) : ZoneClimate :=
  { c with grace := countDownIf known c.grace, minuteTimer := countDownIf known c.minuteTimer }

/-- The dwell of a position (R100). -/
def Position.tick (x : Position) : Position := { x with dwell := countDownIf (!x.paused) x.dwell }

/-- A carry window (R105). -/
def Record.tick (r : Record) : Record :=
  { r with carry := r.carry.map fun c => { c with left := c.left - 1 } }

/-- The timers of a zone fire record (R111). -/
def ZoneFire.tick (f : ZoneFire) : ZoneFire :=
  { f with alertTimer := countDown f.alertTimer, countdownTimer := countDown f.countdownTimer,
           ackTimer := countDown f.ackTimer }

/-- The timers of the hatch (R141, R142, R144). -/
def Hatch.tick (h : Hatch) : Hatch :=
  { h with
    purge := h.purge.map fun run =>
      { run with minTimer := countDown run.minTimer, maxTimer := run.maxTimer - 1 },
    retry := countDown h.retry, wetDwell := countDown h.wetDwell }

/-- A context's phase timer (R154). -/
def Context.tick (x : Context) : Context := { x with timer := countDown x.timer }

/-- Every running timer loses 1 ms. -/
def passTime (s : State) : State :=
  { s with
    host := { s.host with frameTimer := countDown s.host.frameTimer },
    link := { s.link with activity := s.link.activity.tick },
    orders := s.orders.map fun p => (p.1, p.2.tick),
    climate := { s.climate with
      probes := s.climate.probes.map fun p => (p.1, p.2.tick),
      zones := Vector.ofFn fun z => s.climate.zones[z].tick (readingKnown s z) },
    rack := { s.rack with positions := s.rack.positions.map Position.tick },
    custody := { s.custody with records := s.custody.records.map fun p => (p.1, p.2.tick) },
    fire := { s.fire with zones := s.fire.zones.map ZoneFire.tick },
    hatch := s.hatch.tick,
    handover := { s.handover with contexts := s.handover.contexts.map fun p => (p.1, p.2.tick) } }

/-! ## What falls due -/

/-- A timer has run out. -/
def ranOut (t : Option Nat) : Bool := t == some 0

/-- The expiries of a table: one for each place below n whose entry has run out. -/
def dueOf {α : Type} (n : Nat) (t : Table α) (out : α → Bool) (row : Fin n → Instr) : List Instr :=
  t.filterMap fun p => if h : p.1 < n then (if out p.2 then some (row ⟨p.1, h⟩) else none) else none

/-- A row for the whole part. -/
def dueIf (due : Bool) (row : Instr) : List Instr := if due then [row] else []

/-- A row for each store zone. -/
def dueZones (due : Fin 8 → Bool) (row : Fin 8 → Instr) : List Instr :=
  (zoneIds.filter due).map row

/-- A context whose phase limit has run out in one of some phases. -/
def limitOut (phases : List Phase) (x : Context) : Bool := x.live && phases.contains x.phase && ranOut x.timer

/-- The reply timer has run out. -/
def replyOut : Activity → Bool
  | .awaiting _ left => left == 0
  | .idle | .broadcasting _ | .sending _ => false

/-- The timers of the links, orders and the climate that have run out. -/
def dueLinks (s : State) : List Instr :=
  dueIf (ranOut s.host.frameTimer) .frameTimerExpiry ++
  dueIf (replyOut s.link.activity) .replyWindowExpiry ++
  dueOf 16 s.orders (fun o => o.state.isWaiting && ranOut o.deadline) .deadlineExpiry ++
  dueOf 32 s.climate.probes (fun p => ranOut p.age) .probeAgeTimerExpiry ++
  dueZones (fun z => readingKnown s z && ranOut (s.zoneClimate z).grace) .graceTimerExpiry ++
  dueZones (fun z => readingKnown s z && ranOut (s.zoneClimate z).minuteTimer) .minuteTimerExpiry

/-- The timers of the rack, the records and the fire records that have run out. -/
def dueCustody (s : State) : List Instr :=
  (rackIds.filter fun p => !(s.position p).paused && ranOut (s.position p).dwell).map .dwellCompletion ++
  dueOf 2048 s.custody.records (fun r => ranOut (r.carry.map (·.left))) .carryWindowExpiry ++
  dueZones (fun z => ranOut (s.zoneFire z).alertTimer) .alertTimerExpiry ++
  dueZones (fun z => ranOut (s.zoneFire z).countdownTimer) .countdownTimerExpiry ++
  dueZones (fun z => ranOut (s.zoneFire z).ackTimer) .ackTimerExpiry

/-- The timers of the hatch and the handovers that have run out. -/
def dueHatch (s : State) : List Instr :=
  dueIf (ranOut (s.hatch.purge.bind (·.minTimer))) .purgeMinimumTimerExpiry ++
  dueIf (ranOut (s.hatch.purge.map (·.maxTimer))) .purgeMaximumTimerExpiry ++
  dueIf (ranOut s.hatch.retry) .retryDelayExpiry ++
  dueIf (ranOut s.hatch.wetDwell) .wetDwellExpiry ++
  dueOf 2 s.handover.contexts (limitOut [.waitHatch]) .hatchWaitLimitExpiry ++
  dueOf 2 s.handover.contexts (limitOut [.loading, .loadingIn]) .loadingLimitExpiry ++
  dueOf 2 s.handover.contexts (limitOut [.collecting]) .collectingLimitExpiry ++
  dueOf 2 s.handover.contexts (limitOut [.awaitRelease]) .releaseWaitLimitExpiry ++
  dueOf 2 s.handover.contexts (limitOut [.recall, .recallReturn]) .recallLimitExpiry

/-- The expiries that fall due. -/
def dueExpiries (s : State) : List Instr := dueLinks s ++ dueCustody s ++ dueHatch s

/-- 1 ms on an empty queue (log 4); a part that is held or has no power lets it pass. -/
def tick (s : State) : State :=
  if s.up then
    let s := passTime (startEvent s)
    s.withPending (s.pending ++ dueExpiries s)
  else s

end Sys2Proof.Machine
end

