-- ==== Sys2Proof/Machine/Step.lean ====
section
/-! DEFINITION. Step: the command at the front of the queue, run on the queue's rest; on an empty queue 1 ms
passes (log 4). -/

namespace Sys2Proof.Machine

/-- One step. -/
def step (s : State) : Host.Outcome State Fault Refusal :=
  match s.pending with
  | c :: rest => exec c (s.withPending rest)
  | [] => .next (tick s)

/-- The state with the command a word spells at the front of its queue; no word spells one. -/
def State.withFetchWord (s : State) (nbits w : Nat) : State :=
  match decodeTableWord nbits w with
  | some c => s.withPending (c :: s.pending)
  | none => s

end Sys2Proof.Machine
end

