-- ==== Sys2Proof/Safety.lean ====
section
/-! DEFINITION. Safety: what the claims say of a state. The invariants that every step keeps (R2, R13, R38,
R133, the canonical form of the tables), the conditions under which a command completes, and what a
confirmation, a way out of a handover phase, a reader event heard by the owning context, a terminal event and a
choice of the field link's arbiter leave. -/

namespace Sys2Proof.Machine

/-! ## Invariants -/

/-- Places strictly rising from at least lo. -/
def Table.risingFrom {α : Type} : Table α → Nat → Prop
  | [], _ => True
  | (k, _) :: t, lo => lo ≤ k ∧ risingFrom t (k + 1)

/-- A table in its canonical form: no place twice, in rising order. -/
def Table.rising {α : Type} (t : Table α) : Prop := t.risingFrom 0

/-- R133: the room door and the store door are not both commanded unlocked, and the store door is commanded
unlocked only while the hatch air is DRY. -/
def LocksSafe (h : Hatch) : Prop :=
  ¬(h.roomLock = .unlocked ∧ h.storeLock = .unlocked) ∧ (h.storeLock = .unlocked → h.air = .dry)

/-- The replies in the kept place, and the frame in execution: what the kept place is kept for (R2). -/
def keptTotal (h : HostLink) : Nat :=
  (h.replies.filter fun r => r.place == .kept).length + (if h.executing.isSome then 1 else 0)

/-- The replies in refusal places. -/
def refusalTotal (h : HostLink) : Nat := (h.replies.filter fun r => r.place == .refusal).length

/-- R2: the reply queue holds at most one kept reply, none while a frame is in execution, and at most four
refusals. -/
def RepliesOk (h : HostLink) : Prop := keptTotal h ≤ 1 ∧ refusalTotal h ≤ 4

/-- R13: the pending notice set holds at most one entry per key: each entry stands at its own key's place,
and the places rise. -/
def NoticesOk (u : NoticeUnit) : Prop := u.pending.rising ∧ ∀ p ∈ u.pending, p.1 = p.2.rank

/-- R38: the field command queue holds at most one entry for each pair of node and command kind. -/
def QueueOk (l : FieldLink) : Prop := (l.queue.map fun e => (e.node, e.cmd)).Nodup

/-- The tables in canonical form. -/
def TablesOk (s : State) : Prop :=
  s.nodes.rising ∧ s.custody.records.rising ∧ s.orders.rising ∧ s.handover.contexts.rising ∧
  s.handover.roster.rising ∧ s.climate.probes.rising ∧ s.store.records.rising ∧ s.store.roster.rising

/-- What no command but a power or RST row changes: the lines, and the queue of waiting commands. -/
def State.outside (s : State) : Bool × Bool × Bool × Bool × List Instr :=
  (s.device.powered, s.device.rst, s.device.powerOnPending, s.device.hrateStrap, s.pending)

/-- R134: while any zone's fire state is CONFIRMED or later, the exit door is commanded unlocked. -/
def ExitOpenInFire (s : State) : Prop := someFire s = true → s.hatch.exitLock = .unlocked

/-- R125: on a part that has power and is not held, ALARM OUT is driven exactly while some zone is in fire,
unacknowledged, and past its acknowledgement time. -/
def AlarmOk (s : State) : Prop := s.up = true → s.fire.alarmOut = alarmWanted s

/-! ## Conditions and forms of completion -/

/-- A running part at which the next request to arrive begins at once: nothing waits in the buffer, nothing is
in execution, and the kept place is free. A notice or a refusal may be on the line (R2, R4, R8). -/
def HostReady (s : State) : Prop :=
  s.up = true ∧ s.host.buffer = none ∧ s.host.executing = none ∧ keptOccupied s = false

/-- The state once a request has been taken from the buffer and is in its owning block's hands: the receiver
is in HUNT with its timer stopped, the buffer is empty. -/
def taken (s : State) : State :=
  (startEvent s).withHost { s.host with receiver := .hunt, frameTimer := none, buffer := none }

/-- The state with a reply queued in the kept place, behind the refusals that wait (R2, R5). -/
def withReply (tag code : Byte) (st : Status) (data : List Byte) (s : State) : State :=
  s.withHost { s.host with
    replies := s.host.replies ++
      [{ place := .kept, tag := tag, code := code, status := st, data := data }] }

/-- The command c is taken by s: its own effect leaves t, and then the arbiters choose (R8, R40; log 11). -/
def Takes (c : Instr) (s t : State) : Prop := exec c s = .next (settle t)

/-- The request c, taken by s, leaves t and is answered with a status and data: its reply is queued, and then
the arbiters choose; an idle line takes the oldest reply (R5, R8, R40; O16). -/
def Answers (c : Instr) (tag code : Byte) (st : Status) (data : List Byte) (s t : State) : Prop :=
  exec c s = .next (settle (withReply tag code st data t))

/-- A request whose operands fail a check: it is answered with the status and no data, without effect. -/
def Refuses (c : Instr) (tag code : Byte) (st : Status) (s : State) : Prop :=
  Answers c tag code st [] s (taken s)

/-- What no command but a settings, node, courier or line row changes: the settings, the node table, the
roster, the settings image, the lines and the waiting commands. -/
def KeepsLayout (s t : State) : Prop :=
  t.settings = s.settings ∧ t.nodes = s.nodes ∧ t.handover.roster = s.handover.roster ∧
  t.store.settings = s.store.settings ∧ t.outside = s.outside

/-- A zone's fire record in fire, once its countdown test has been made (R116): the state it stands in. -/
def afterCountdownTest (s : State) (z : Fin 8) (h : Hold) : FireState :=
  if (s.zone z).armed ∧ h = .released then .countdown else .confirmed

/-! ## Reports -/

/-- R31, R32: a poll of node i is awaited and the report is a valid answer of the node's kind: its CRC is
right, it carries the physical ID polled and the kind bound. -/
def ValidAnswer (s : State) (x : Transaction) (i : Nat) (n : Node) (report : List Byte) (r : Report) : Prop :=
  s.up = true ∧ (∃ left, s.link.activity = .awaiting x left) ∧ x.node = some i ∧ s.node? i = some n ∧
  readReport report = some r ∧ r.physicalId = x.physicalId ∧ r.kind = n.kind.code

/-- R33, R37: the report carries a batch of events that the part has not had: not fresh, with no assembly
open, after a first sequence where the kind has snapshots, and another sequence than the last; or a fresh one
of a kind without snapshots. -/
def NewBatch (n : Node) (r : Report) (es : List FieldEvent) : Prop :=
  readItems n.kind r = .events es ∧
  ((r.fresh = false ∧ n.assembly = none ∧ n.wantsSnapshot = false ∧ n.accepted ≠ some (r.number % 16)) ∨
    (r.fresh = true ∧ n.kind.hasSnapshot = false))

/-- R35, R36: the report completes a snapshot with the entries es: it carries the last segment, which is
segment 0, or the one that the node's open assembly expects and then follows the entries held. Of the segment
the entries that name a place of the node count (`entriesOf`). -/
def WholeSnapshot (n : Node) (r : Report) (es : List SnapEntry) : Prop :=
  r.last = true ∧ ∃ seg held, readItems n.kind r = .segment seg ∧
    es = held ++ entriesOf n.binding.target seg ∧
    ((r.number = 0 ∧ held = []) ∨
      (r.number ≠ 0 ∧ ∃ a, n.assembly = some a ∧ r.number = a.expected ∧ held = a.entries))

/-- R35, R36: what a valid answer of a kind with snapshots leaves of the node's assembly and accepted sequence;
n is the node before and y after. Segment 0 opens an assembly, whatever is open (where it could be a repeat too:
log 59), and the expected segment adds its entries; the last one closes it. A segment one below the expected one
changes nothing, and any other one, or a batch that is not fresh while an assembly is open, closes the assembly and
leaves no accepted sequence; a batch that is not fresh before the first snapshot leaves both as they are. -/
def SegmentTaken (n : Node) (r : Report) (y : Node) : Prop :=
  let outOfStep := y.accepted = none ∧ y.assembly = none
  let holds := fun es : List SnapEntry => y.accepted = some (r.number % 16) ∧
    y.assembly = if r.last then none else some { entries := es, expected := r.number + 1 }
  (∀ seg, readItems n.kind r = .segment seg →
    let kept := entriesOf n.binding.target seg
    (r.number = 0 → holds kept) ∧
    (r.number ≠ 0 → n.assembly = none → outOfStep) ∧
    (∀ a, r.number ≠ 0 → n.assembly = some a →
      (r.number = a.expected → holds (a.entries ++ kept)) ∧
      (r.number + 1 = a.expected → y.accepted = n.accepted ∧ y.assembly = n.assembly) ∧
      (r.number ≠ a.expected → r.number + 1 ≠ a.expected → outOfStep))) ∧
  (r.fresh = false → n.kind.hasSnapshot = true → n.assembly.isSome = true ∨ n.accepted = none → outOfStep)

/-- R33, R35: the report of a kind with snapshots completes none and brings no batch that the part has not had. -/
def NothingHanded (n : Node) (r : Report) : Prop :=
  n.kind.hasSnapshot = true ∧ (∀ es, ¬WholeSnapshot n r es) ∧ ∀ es, ¬NewBatch n r es

/-! ## Confirmation -/

/-- R127, R128: zone z is confirmed in the event that leads from u to t. The live contexts have ended
FIRE_ABORT, a context that was granted the hatch on the way in the phase it then held (log 45); the orders
with an unhanded entry of home zone z have finished, FAILED_FIRE where no context was live; the hatch zone's
hatch is FIRE's, the rack of the rack zone is paused, a zone whose countdown runs is SUSPENDED; the exit is
unlocked and the fire lockout stands. -/
def Confirmed (u t : State) (z : Fin 8) : Prop :=
  lockout t = true ∧ t.hatch.exitLock = .unlocked ∧
  t.notices.pending.get? z.val = some (zoneFireNotice t z) ∧
  (z = u.rackZone → t.rack.paused = true) ∧
  (z = u.hatchZone → t.hatch.owner = .fire ∧
    (u.hatch.owner ≠ .fire → t.hatch.waiting = [] ∧ t.hatch.yielded = none ∧ t.hatch.purge = none)) ∧
  ((t.zoneFire z).state = .countdown → (t.zoneClimate z).control = .suspended) ∧
  (∀ (c : Fin 2) x, liveContext? u c.val = some x →
    ∃ y step, t.context? c.val = some y ∧ y.courier = x.courier ∧ y.phase = .ended ∧ y.timer = none ∧
      y.finish = some (step, .fireAbort) ∧ (c = 0 ∨ z = u.hatchZone → step = x.phase)) ∧
  (∀ k o i r, u.order? k = some o → o.state.isFinished = false → i ∈ o.unhanded → u.record? i = some r →
    zoneOfSlot u r.home = some z →
    ∃ y, t.order? k = some y ∧ y.state.isFinished = true ∧ y.deadline = none ∧
      ((∀ c : Fin 2, liveContext? u c.val = none) →
        y = { o with state := .finished .failedFire, deadline := none }))

/-! ## Ways out of a handover phase -/

/-- R161, R162: context c of s, x, goes to WAIT_DRY with a pending outcome and becomes y: it owns a DRY hatch
and goes on to UNLOADING, and there to END where the hatch is empty and the store door CLOSED; else it
waits. -/
def LeftDrying (s : State) (c : Nat) (o : HOutcome) (x y : Context) : Prop :=
  if s.hatch.owner = .context c ∧ s.hatch.air = .dry then
    if s.hatch.contents = [] ∧ storeDoor s = .closed then
      y = { x with phase := .ended, timer := none, pendingOutcome := some o, finish := some (.unloading, o) }
    else y = { x with phase := .unloading, timer := none, pendingOutcome := some o }
  else y = { x with phase := .waitDry, timer := none, pendingOutcome := some o }

/-- R160, R164: context c of s, x, is recalled with a pending outcome and becomes y. Outbound it enters RECALL
for its limit, and goes on where nothing is taken and the room door is CLOSED; returning it enters
RECALL_RETURN, and ends where the hatch is empty and the room door CLOSED. -/
def LeftRecalled (s : State) (c : Nat) (d : Direction) (o : HOutcome) (x y : Context) : Prop :=
  let limit := some (s.param .recallLimit * 60000)
  match d with
  | .outbound =>
    if x.takenEntries = 0 ∧ roomDoor s = .closed then LeftDrying s c o x y
    else y = { x with phase := .recall, timer := limit, pendingOutcome := some o }
  | .returning =>
    if s.hatch.contents = [] ∧ roomDoor s = .closed then
      y = { x with phase := .ended, timer := none, pendingOutcome := some o, finish := some (.recallReturn, o) }
    else y = { x with phase := .recallReturn, timer := limit, pendingOutcome := some o }

/-- A record lies in a state at a place. -/
def RecordIs (s : State) (i : Nat) (st : CState) (place : Location) : Prop :=
  ∃ r, s.record? i = some r ∧ r.state = st ∧ r.location = place

/-! ## Reader events of the hatch -/

/-- No context owns or awaits the hatch, so a reader event goes to the Custody Table (R61, R136). -/
def NoContext (s : State) : Prop :=
  s.hatch.owner = .fire ∨ (s.hatch.owner = .nobody ∧ s.hatch.waiting = []) ∨
    (s.hatch.owner = .purge ∧ s.hatch.waiting = [] ∧ s.hatch.yielded = none)

/-- Context c of s, y, owns the hatch, and the HATCH report r brings no change of its state fields, so that its
reader events go to the context as it stands (R136, R154). -/
def OwnerHears (s : State) (c : Nat) (y : Context) (r : Report) : Prop :=
  s.hatch.owner = .context c ∧ liveContext? s c = some y ∧ s.hatch.purge = none ∧
    readState .hatch r.state = s.hatch.report.map NodeState.hatch

/-- The manifest and the rejected list of a context have room (R152). -/
def Context.roomLeft (y : Context) : Prop := y.manifest.length + y.rejected.length < 24

/-- A record lies OUT with a courier who is its custodian. -/
def IsOutWith (s : State) (i courier : Nat) : Prop :=
  ∃ r, s.record? i = some r ∧ r.state = .out ∧ r.location = .courier courier ∧ r.custodian = some courier

/-- R156, R157, R160, R163, R154: ENTERED of label l, heard by the owning context c of s, y, leaves t. A ready
record of an unfinished order of the courier is staged, a taken record is untaken at HATCH, a record OUT with
the courier is INBOUND, each where the phase names it; a label in neither list that the phase does not name
joins the rejected list with SIGNAL_REJECT, an unknown one posted, a BLOCKED record then at HATCH. -/
def HeardEntered (s t : State) (c : Nat) (y : Context) (l : Label) : Prop :=
  let rejects :=
    t.context? c = some { y with rejected := y.rejected ++ [l] } ∧ hasEntry t .hatch .signalReject = true
  (findLabel s l = none → l ∉ y.rejected → y.roomLeft →
    y.phase ∈ [.loading, .collecting, .unloading, .loadingIn, .recallReturn] →
    rejects ∧ t.custody = s.custody ∧ t.notices.pending.get? 29 = some (.foreignLabel l .hatch)) ∧
  ∀ j q, findLabel s l = some j → s.record? j = some q →
    (∀ k o, y.phase = .loading → y.roomLeft → q.state = .ready .outbound → (∀ n, q.location ≠ .slot n) →
      q.orderSlot = some k → s.order? k = some o → o.courier = y.courier → o.state.isFinished = false →
      j ∈ o.unhanded →
      (∃ x, t.record? j = some x ∧ x.state = .staged ∧ x.location = .hatch ∧ x.carry = none) ∧
        t.context? c = some { y with manifest := y.manifest ++ [⟨j, false⟩] }) ∧
    (y.phase = .collecting → y.isTaken j = true →
      RecordIs t j .staged .hatch ∧
        t.context? c = some
          { y with manifest := y.manifest.map fun e => if e.record = j then ⟨j, false⟩ else e }) ∧
    (y.phase = .recall → y.timer.isSome = true → y.isTaken j = true → RecordIs t j .staged .hatch) ∧
    (y.phase = .loadingIn → y.roomLeft → IsOutWith s j y.courier →
      (∃ x, t.record? j = some x ∧ x.state = .inbound ∧ x.location = .hatch ∧
        x.custodian = some y.courier) ∧
        t.context? c = some { y with manifest := y.manifest ++ [⟨j, false⟩] }) ∧
    (y.phase ∈ [.collecting, .unloading, .recallReturn] → y.holds j = false → l ∉ y.rejected →
      y.roomLeft →
      rejects ∧ (q.state.isBlocked = true → RecordIs t j q.state .hatch) ∧
        (q.state.isBlocked = false → t.record? j = some q))

/-- R154, R156, R157, R160, R162 to R164: LEFT of label l, heard by the owning context c of s, y, leaves t. A
manifest record goes READY/OUTBOUND to IN_HAND with a carry window (LOADING), to the courier, taken (COLLECTING
and RECALL), PICKED to IN_HAND (UNLOADING), OUT to the courier who keeps it (LOADING_IN, RECALL_RETURN), or
CUSTODY_CONFLICT to IN_HAND (AWAIT_RELEASE); but where it is taken it leaves the manifest. A rejected label
leaves its list, and a record at HATCH that is in no manifest goes by the table of R61 (its last row: log 19) or,
on the room side, as a conflict with the courier. -/
def HeardLeft (s t : State) (c : Nat) (y : Context) (l : Label) : Prop :=
  let without := fun j : Nat => y.manifest.filter fun e => e.record != j
  let unmanifested := fun j : Nat =>
    ∃ x, t.context? c = some x ∧ x.manifest = without j
  (findLabel s l = none → l ∈ y.rejected →
    y.phase ∈ [.loading, .collecting, .recall, .unloading, .loadingIn, .recallReturn] →
    t.custody = s.custody ∧
      ∃ x, t.context? c = some x ∧ x.rejected = y.rejected.filter (· != l)) ∧
  ∀ j q, findLabel s l = some j → s.record? j = some q →
    (y.holds j = true →
      (y.phase = .loading →
        (∃ x, t.record? j = some x ∧ x.state = .ready .outbound ∧ x.location = .inHand ∧
          x.carry = some ⟨s.param .carryWindow * 60000, none⟩) ∧
          t.context? c = some { y with manifest := without j }) ∧
      (y.phase ∈ [.collecting, .recall] → y.isTaken j = false →
        RecordIs t j .staged (.courier y.courier) ∧
          t.context? c = some
            { y with manifest := y.manifest.map fun e => if e.record = j then ⟨j, true⟩ else e }) ∧
      (y.phase ∈ [.loadingIn, .recallReturn] → IsOutWith t j y.courier ∧ unmanifested j) ∧
      (y.phase = .unloading → RecordIs t j .picked .inHand ∧ unmanifested j) ∧
      (y.phase = .awaitRelease → l ∉ y.rejected → s.hatch.air = .dry → roomDoor s = .closed →
        RecordIs t j (.blocked .custodyConflict) .inHand ∧
          ∃ x, t.context? c = some x ∧ x.holds j = false)) ∧
    (y.holds j = false → q.location = .hatch →
      (y.phase ∈ [.loading, .unloading] →
        RecordIs t j
          (match q.state with
           | .picked => .picked
           | .received => .received
           | .loose => .loose
           | .blocked b => .blocked b
           | _ => .blocked .custodyConflict) .inHand) ∧
      (y.phase ∈ [.collecting, .recall, .loadingIn, .recallReturn] →
        ∃ x, t.record? j = some x ∧ x.location = .courier y.courier ∧ x.custodian = some y.courier ∧
          x.state = (if q.state.isBlocked then q.state else .blocked .custodyConflict)))

/-- R51: no two records carry the same label. -/
def LabelsUnique (s : State) : Prop :=
  ∀ i j r q, s.record? i = some r → s.record? j = some q → r.label = q.label → i = j

/-- R152: the lists of context y of s have room for every label of ls that is not of a manifest record. -/
def Context.roomFor (y : Context) (s : State) (ls : List Label) : Prop :=
  y.manifest.length + y.rejected.length + (ls.filter fun l => (manifestRecord s y l).isNone).length ≤ 24

/-- R155: a whole HATCH snapshot of the labels ls, heard in COLLECTING by the owning context y of s, leaves t:
a taken manifest record that is shown is untaken at HATCH, an untaken one at HATCH that is not shown is taken,
where no record but untaken ones lies at HATCH, no label is rejected and the lists have room for the other labels
shown (with full lists a label is a sighting of R61, which can fail its order and so block other records). -/
def HeardSnapshot (s t : State) (y : Context) (ls : List Label) : Prop :=
  y.phase = .collecting → y.rejected = [] → y.roomFor s ls → LabelsUnique s →
    (∀ k r, s.record? k = some r → r.location = .hatch → y.holds k = true ∧ y.isTaken k = false) →
    (y.manifest.map (·.record)).Nodup →
    ∀ j q, s.record? j = some q → y.holds j = true →
      (y.isTaken j = true → q.label ∈ ls → RecordIs t j .staged .hatch) ∧
      (y.isTaken j = false → q.location = .hatch → q.label ∉ ls →
        RecordIs t j .staged (.courier y.courier))

/-! ## Terminal events -/

/-- The queue holds a PROMPT with the data given. -/
def Prompts (t : State) (data : List Byte) : Prop :=
  ∃ q ∈ t.link.queue, q.cmd = .prompt ∧ q.data = data

/-- R150: context c of s, y, is the terminal context: it is live and owns the hatch, or else is the yielded one,
or else the head of the waiting list. -/
def AtTerminal (s : State) (c : Nat) (y : Context) : Prop :=
  liveContext? s c = some y ∧
    (s.hatch.owner = .context c ∨
      ((∀ d, s.hatch.owner ≠ .context d) ∧
        (s.hatch.yielded = some c ∨ (s.hatch.yielded = none ∧ s.hatch.waiting.head? = some c))))

/-- R157, R163, R154: CONFIRM, taken by the terminal context c of s, y, leaves t. In COLLECTING and LOADING_IN:
with the room door OPEN it prompts CLOSE_DOOR (with a label rejected too: log 47), with a label rejected
REMOVE_ITEMS; else LOADING_IN with an empty manifest ends NOTHING_LOADED, and AWAIT_RELEASE is entered for its
limit, prompted HOLD and posted. In every other phase it changes no context. -/
def HeardConfirm (s t : State) (c : Nat) (y : Context) : Prop :=
  let roomSide := y.phase = .collecting ∨ y.phase = .loadingIn
  let settled := roomDoor s = .closed ∧ y.rejected = []
  (roomSide → roomDoor s = .opened → t.handover = s.handover ∧ Prompts t [13, 0, 0]) ∧
  (roomSide → roomDoor s = .closed → y.rejected ≠ [] →
    t.handover = s.handover ∧ Prompts t (14 :: field16 y.rejected.length)) ∧
  (y.phase = .loadingIn → settled → y.manifest = [] →
    t.context? c = some { y with phase := .ended, timer := none, finish := some (.loadingIn, .nothingLoaded) }) ∧
  (roomSide → settled → (y.phase = .loadingIn → y.manifest ≠ []) →
    let z := { y with phase := .awaitRelease, timer := some (s.param .releaseWait * 1000) }
    t.context? c = some z ∧ Prompts t [15, 0, byteOf c] ∧ t.custody = s.custody ∧
      t.notices.pending.get? (26 + c) = some (handoverNotice c z)) ∧
  (¬roomSide → t.handover = s.handover ∧ t.custody = s.custody ∧
    (y.phase = .awaitRelease → Prompts t [15, 0, byteOf c]))

/-- R156, R157, R163, R165, R154: CANCEL, taken by the terminal context c of s, y, leaves t: WAIT_HATCH ends
CANCELLED; LOADING makes every manifest record PICKED at HATCH and goes to WAIT_DRY, COLLECTING to RECALL,
LOADING_IN to RECALL_RETURN, each with the pending outcome CANCELLED; in every other phase it changes no
context. -/
def HeardCancel (s t : State) (c : Nat) (y : Context) : Prop :=
  ∃ z, t.context? c = some z ∧
    (y.phase = .waitHatch →
      z = { y with phase := .ended, timer := none, finish := some (.waitHatch, .cancelled) }) ∧
    (y.phase = .loading → LeftDrying s c .cancelled { y with manifest := [] } z ∧
      ∀ i, y.holds i = true → (s.record? i).isSome = true → RecordIs t i .picked .hatch) ∧
    (y.phase = .collecting → LeftRecalled s c .outbound .cancelled y z) ∧
    (y.phase = .loadingIn → LeftRecalled s c .returning .cancelled y z) ∧
    (y.phase ∉ [.waitHatch, .loading, .collecting, .loadingIn] →
      t.handover = s.handover ∧ t.custody = s.custody ∧
        (y.phase = .awaitRelease → Prompts t [15, 0, byteOf c]))

/-! ## The field link's arbiter -/

/-- The first entry of a queue with a property. -/
def FirstOf (q : List QueueEntry) (P : QueueEntry → Prop) (e : QueueEntry) : Prop :=
  ∃ before after, q = before ++ e :: after ∧ P e ∧ ∀ d ∈ before, ¬P d

/-- The next number with a property after the last one taken, wrapping to the lowest (R41, R42). -/
def NextInTurn (P : Nat → Prop) (last : Option Nat) (i : Nat) : Prop :=
  P i ∧
  match last with
  | none => ∀ j, P j → i ≤ j
  | some p =>
    (p < i ∧ ∀ j, P j → p < j → i ≤ j) ∨ (i ≤ p ∧ (∀ j, P j → j ≤ p) ∧ ∀ j, P j → i ≤ j)

/-- R31, R41: v is u with an addressed transaction with node i begun. -/
def Begins (u v : State) (i : Nat) (origin : Origin) (code : Nat) (data : List Byte) : Prop :=
  ∃ n x, u.node? i = some n ∧ v.link.activity = .sending x ∧ x.node = some i ∧
    x.physicalId = n.binding.physicalId ∧ x.origin = origin ∧ x.code = code ∧ x.data = data ∧
    x.ack = n.accepted.getD 0 ∧ x.rate = n.rate ∧
    x.counted = (n.rate == u.link.rate && n.health != .offline) ∧
    v.link.fireCount = (if n.kind = .fire then 0 else min 4 (u.link.fireCount + 1))

/-- R42, R48: v is u with a routine poll of the bound node i, n, begun: a rate correction where one is owed,
else a plain or snapshot poll; of an OFFLINE node a hunting poll, with its highest-ranked queued command. -/
def BeginsRoutine (u v : State) (i : Nat) (n : Node) : Prop :=
  let plain := if n.wantsSnapshot then 0x01 else 0x00
  let own := fun (kinds : List CmdKind) (e : QueueEntry) => e.node = i ∧ e.cmd ∈ kinds
  let none' := fun (kinds : List CmdKind) => ∀ e ∈ u.link.queue, ¬own kinds e
  let hatch := [CmdKind.roomLock, .storeLock, .exitLock, .purge]
  let rest := [CmdKind.mode, .signalReject, .prompt]
  let hunts := fun e : QueueEntry => Begins u v i (.hunting (some e.cmd)) e.cmd.code e.data
  (n.health ≠ .offline → n.rate = u.link.rate → Begins u v i .routine plain []) ∧
  (n.health ≠ .offline → n.rate ≠ u.link.rate →
    Begins u v i .routine 0x40 [byteOf u.link.rate.val]) ∧
  (n.health = .offline →
    (∀ e, FirstOf u.link.queue (own [.release]) e → hunts e) ∧
    (none' [.release] → ∀ e, FirstOf u.link.queue (own hatch) e → hunts e) ∧
    (none' [.release] → none' hatch → ∀ e, FirstOf u.link.queue (own rest) e → hunts e) ∧
    (none' [.release] → none' hatch → none' rest → Begins u v i (.hunting none) plain []))

end Sys2Proof.Machine
end

