-- ==== Sys2Proof/Certificates/Slice0/Obligations.lean ====
section
/-! DEFINITION. Obligations: the statements for the provers. A request statement speaks of a part at which a
request begins in the event of its arrival (`HostReady`: the receive buffer is empty, nothing is in execution
and the kept place is free, whatever stands on the line); `FrameAdmission` says what happens elsewhere.
`Answers` gives the reply and the state left, `Takes` the state left before the arbiters choose. -/

open Sys2Proof Sys2Proof.Machine

/-! ## The step and the invariants -/

/-- A step takes the command at the front of the queue and runs it on the queue's rest. -/
def Obligations.StepRunsFrontCommand : Prop :=
  ∀ (c : Instr) (rest : List Instr) (s : State),
    step (s.withPending (c :: rest)) = exec c (s.withPending rest)

/-- On an empty queue 1 ms passes; a part without power or held does not count it (DESIGN CHOICE, log 4).
Every running timer loses 1 ms; a deadline outside OPEN and READY, the grace and minute timers of a zone whose
reading is unknown and a paused dwell stand still. The expiries that fall due are queued. -/
def Obligations.EmptyQueueTakesTime : Prop :=
  ∀ s : State, s.pending = [] →
    let less := fun time : Option Nat => time.map (· - 1)
    step s = .next (tick s) ∧ (s.up = false → step s = .next s) ∧
    (s.up = true → ∃ t, step s = .next t ∧ t.notices = s.notices ∧ t.settings = s.settings ∧
      t.nodes = s.nodes ∧ t.device = s.device ∧ t.pending = dueExpiries (passTime (startEvent s)) ∧
      t.host = { s.host with frameTimer := less s.host.frameTimer } ∧
      (∀ x left, s.link.activity = .awaiting x left →
        t.link = { s.link with activity := .awaiting x (left - 1) }) ∧
      ((∀ x left, s.link.activity ≠ .awaiting x left) → t.link = s.link) ∧
      (∀ k o, s.order? k = some o →
        t.order? k = some (if o.state.isWaiting then { o with deadline := less o.deadline } else o)) ∧
      (∀ i p, s.climate.probes.get? i = some p →
        t.climate.probes.get? i = some { p with age := less p.age }) ∧
      (∀ z, t.zoneClimate z =
        if (s.airAt (airZone z)).reading.isSome then
          { s.zoneClimate z with grace := less (s.zoneClimate z).grace,
                                 minuteTimer := less (s.zoneClimate z).minuteTimer }
        else s.zoneClimate z) ∧
      (∀ p, t.position p =
        if (s.position p).paused then s.position p
        else { s.position p with dwell := less (s.position p).dwell }) ∧
      (∀ i r, s.record? i = some r →
        t.record? i = some { r with carry := r.carry.map fun w => { w with left := w.left - 1 } }) ∧
      (∀ z, t.zoneFire z =
        { s.zoneFire z with alertTimer := less (s.zoneFire z).alertTimer,
                            countdownTimer := less (s.zoneFire z).countdownTimer,
                            ackTimer := less (s.zoneFire z).ackTimer }) ∧
      t.hatch =
        { s.hatch with
          purge := s.hatch.purge.map fun run =>
            { run with minTimer := less run.minTimer, maxTimer := run.maxTimer - 1 },
          retry := less s.hatch.retry, wetDwell := less s.hatch.wetDwell } ∧
      (∀ c x, s.context? c = some x → t.context? c = some { x with timer := less x.timer }))

/-- No command stops the part: every command answers a next state in every state (log 37). -/
def Obligations.EveryCommandAnswersANextState : Prop :=
  ∀ (c : Instr) (s : State), ∃ t, exec c s = .next t

/-- Only the power and RST rows change the lines, and no command touches the queue of waiting commands. -/
def Obligations.OnlyLineRowsTouchTheLines : Prop :=
  ∀ (c : Instr) (s t : State), exec c s = .next t → t.pending = s.pending ∧
    ((∀ h, c ≠ .powerOn h) → (∀ n, c ≠ .powerLoss n) → c ≠ .resetLineAssert → c ≠ .resetLineRelease →
      t.outside = s.outside)

/-- The state after reset meets every invariant stated below. What its retained store holds and how its strap
stands is the model's choice (DESIGN CHOICE, logs 2 and 3). -/
def Obligations.ResetMeetsInvariants : Prop :=
  LocksSafe State.reset.hatch ∧ RepliesOk State.reset.host ∧ NoticesOk State.reset.notices ∧
  QueueOk State.reset.link ∧ TablesOk State.reset ∧ ExitOpenInFire State.reset ∧ AlarmOk State.reset

/-- R133: the room door and the store door are never both commanded unlocked, and the store door is
commanded unlocked only while the air state is DRY: every step keeps it so. -/
def Obligations.StepKeepsLocksSafe : Prop :=
  ∀ s t : State, LocksSafe s.hatch → step s = .next t → LocksSafe t.hatch

/-- R2: at most one queued reply is in the kept place and at most four are in refusal places: every step
keeps it so. -/
def Obligations.StepKeepsReplyPlaces : Prop :=
  ∀ s t : State, RepliesOk s.host → step s = .next t → RepliesOk t.host

/-- R13: at most one pending notice for each key, that is each kind and subject: every step keeps it so. -/
def Obligations.StepKeepsNoticeKeys : Prop :=
  ∀ s t : State, NoticesOk s.notices → step s = .next t → NoticesOk t.notices

/-- R38: at most one queued field command for each node and command kind: every step keeps it so. -/
def Obligations.StepKeepsCommandKeys : Prop :=
  ∀ s t : State, QueueOk s.link → step s = .next t → QueueOk t.link

/-- Every table keeps its canonical form, in which no place stands twice and places rise: every step keeps
it so. -/
def Obligations.StepKeepsTables : Prop := ∀ s t : State, TablesOk s → step s = .next t → TablesOk t

/-- R134: while any zone's fire state is CONFIRMED or later, the exit door is commanded unlocked: every step
keeps it so. -/
def Obligations.StepKeepsExitOpenInFire : Prop :=
  ∀ s t : State, ExitOpenInFire s → step s = .next t → ExitOpenInFire t

/-- R125: ALARM OUT is driven exactly while a zone in fire is unacknowledged past its time: every step keeps
it so. -/
def Obligations.StepKeepsAlarm : Prop := ∀ s t : State, AlarmOk s → step s = .next t → AlarmOk t

/-! ## The host link -/

/-- R1: the check value of the CRC, over the nine bytes 0x31 to 0x39. -/
def Obligations.CrcCheckValue : Prop :=
  crc [0x31, 0x32, 0x33, 0x34, 0x35, 0x36, 0x37, 0x38, 0x39] = 0x29B1

/-- R1: a frame received character by character from HUNT, each with its stop bit, is the complete frame:
both ways of the table to bring a frame to the part do the same. -/
def Obligations.SerialFrameIsCompleteFrame : Prop :=
  ∀ (body : List Byte) (s : State), bodyLengthOk body.length = true → s.host.receiver = .hunt →
    (hostWire body).foldl (fun s c => characterArrives c true s) s = frameComplete (.ofBody body) s

/-- R1: the receive states: what one character does in HUNT, LENGTH, BODY and CHECK, with and without its
stop bit. A right second check byte completes the frame: the command does what HOST_FRAME_RECEIVED does with the
body taken. A discarded frame stops the frame timer: the model's reading (DEDUCED, log 32). -/
def Obligations.CharacterReception : Prop :=
  ∀ (s : State) (c : Byte), s.up = true →
    let e := startEvent s
    let gone := e.withHost
      { s.host with receiver := .hunt, frameTimer := none, framesDiscarded := true }
    (s.host.receiver = .hunt → c = 0x5A →
      Takes (.hostCharacterReceived c true) s
        (e.withHost { s.host with receiver := .length, frameTimer := some 50 })) ∧
    (s.host.receiver = .hunt → c ≠ 0x5A → Takes (.hostCharacterReceived c true) s e) ∧
    (s.host.receiver = .hunt → Takes (.hostCharacterReceived c false) s e) ∧
    (s.host.receiver ≠ .hunt → Takes (.hostCharacterReceived c false) s gone) ∧
    (s.host.receiver = .length → 3 ≤ c.toNat → c.toNat ≤ 253 →
      Takes (.hostCharacterReceived c true) s
        (e.withHost { s.host with receiver := .body c.toNat [] })) ∧
    (s.host.receiver = .length → (c.toNat < 3 ∨ 253 < c.toNat) →
      Takes (.hostCharacterReceived c true) s gone) ∧
    (∀ n taken, s.host.receiver = .body n taken → taken.length + 1 < n →
      Takes (.hostCharacterReceived c true) s
        (e.withHost { s.host with receiver := .body n (taken ++ [c]) })) ∧
    (∀ n taken, s.host.receiver = .body n taken → n ≤ taken.length + 1 →
      Takes (.hostCharacterReceived c true) s
        (e.withHost { s.host with receiver := .check n (taken ++ [c]) none })) ∧
    (∀ n taken, s.host.receiver = .check n taken none →
      Takes (.hostCharacterReceived c true) s
        (e.withHost { s.host with receiver := .check n taken (some c) })) ∧
    (∀ n taken first, s.host.receiver = .check n taken (some first) →
      fieldHalf (crc (byteOf n :: taken)) ≠ [first, c] →
      Takes (.hostCharacterReceived c true) s gone) ∧
    (∀ n taken first, s.host.receiver = .check n taken (some first) → bodyLengthOk taken.length = true →
      fieldHalf (crc (byteOf n :: taken)) = [first, c] →
      exec (.hostCharacterReceived c true) s = exec (.hostFrameReceived taken) s)

/-- R1: a frame timer that expires discards the frame; R8: the last byte of a reply frees its place, and
(R4) a request that waits in the buffer begins: as if it arrived then, where no other frame is in reception;
R11: when a RESTART reply has been sent the part restarts, with cause RESTART_REQUEST. R8, R14: after every
command an idle line sends the oldest reply, or else, of the pending notices whose class is not masked, the
one of the lowest class, kind and subject, which leaves the pending set, or nothing. -/
def Obligations.FrameTimerAndFrameSent : Prop :=
  ∀ s : State, s.up = true →
    let sent := { s.host with transmitting := none, replies := s.host.replies.tail }
    (s.host.frameTimer.isSome = true →
      Takes .frameTimerExpiry s ((startEvent s).withHost
        { s.host with receiver := .hunt, frameTimer := none, framesDiscarded := true })) ∧
    (∀ r, s.host.transmitting = some (.reply r) → r.isRestart = false → s.host.buffer = none →
      Takes .frameSent s ((startEvent s).withHost sent)) ∧
    (∀ r f, s.host.transmitting = some (.reply r) → r.isRestart = false → s.host.buffer = some f →
      ((s.host.executing.isSome = true ∨ keptOccupied (s.withHost sent) = true) →
        Takes .frameSent s ((startEvent s).withHost sent)) ∧
      (s.host.executing = none → keptOccupied (s.withHost sent) = false →
        Takes .frameSent s (takeAnswer f.tag f.code
          (execute f ((startEvent s).withHost { sent with buffer := none })))) ∧
      (s.host.receiver = .hunt → s.host.frameTimer = none → bodyLengthOk (f.operands.length + 2) = true →
        exec .frameSent s =
          exec (.hostFrameReceived (f.tag :: f.code :: f.operands))
            (s.withHost { sent with buffer := none }))) ∧
    (∀ n, s.host.transmitting = some (.notice n) →
      Takes .frameSent s (noticeSent n ((startEvent s).withHost { s.host with transmitting := none }))) ∧
    (∀ r, s.host.transmitting = some (.reply r) → r.isRestart = true →
      ∃ t, Takes .frameSent s t ∧ t.device.cause = .restartRequest ∧
        t.host = .restarted s.device.hrateStrap ∧ t.notices.mask = 0) ∧
    (∀ c u v, Takes c s u → exec c s = .next v → u.host.transmitting = none →
      let waits := fun n : Notice => u.notices.pending.get? n.rank = some n ∧
        (n.cls = 0 ∨ u.notices.mask.getLsbD n.cls = false)
      (∀ r rest, u.host.replies = r :: rest →
        v.host = { u.host with transmitting := some (.reply r) } ∧ v.notices = u.notices) ∧
      (∀ n, u.host.replies = [] → NoticesOk u.notices → waits n → (∀ m, waits m → n.rank ≤ m.rank) →
        v.host = { u.host with transmitting := some (.notice n) } ∧
          v.notices = { u.notices with pending := u.notices.pending.erase n.rank }) ∧
      (u.host.replies = [] → NoticesOk u.notices → (∀ n, ¬waits n) →
        v.host = u.host ∧ v.notices = u.notices))

/-- R81, R168: a sent ORDER_STATE that carries FINISHED frees its slot, a sent HANDOVER_STATE that carries
END frees an ENDED slot, and any other state changes nothing. -/
def Obligations.SentNoticesFreeSlots : Prop :=
  ∀ s : State, s.up = true →
    (∀ k tag st h n, s.host.transmitting = some (.notice (.orderState k tag st h n)) →
      ∃ t, Takes .frameSent s t ∧
        (st.isFinished = true → t.order? k = none ∧ ∀ j, j ≠ k → t.order? j = s.order? j) ∧
        (st.isFinished = false → t.orders = s.orders) ∧
        t = { startEvent s with host := { s.host with transmitting := none }, orders := t.orders }) ∧
    (∀ c id d ph o st m k x, s.host.transmitting = some (.notice (.handoverState c id d ph o st m k)) →
      s.context? c = some x →
      ∃ t, Takes .frameSent s t ∧
        (ph = .ended → x.live = false → t.context? c = none ∧ ∀ j, j ≠ c → t.context? j = s.context? j) ∧
        ((ph ≠ .ended ∨ x.live = true) → t.handover = s.handover))

/-- R2: a well-formed frame that meets an empty buffer behind a request or a reply waits there; one that
meets a full buffer is answered LINK_BUSY, or dropped where the four refusal places are taken. R4: one that
meets an empty buffer with nothing in execution and the kept place free begins at once, whatever stands on the
line, and its answer is taken: a reply is queued behind the refusals, an accepted FORWARD stays in execution. -/
def Obligations.FrameAdmission : Prop :=
  ∀ (s : State) (tag code : Byte) (ops : List Byte), s.up = true →
    bodyLengthOk (ops.length + 2) = true →
    let c := Instr.hostFrameReceived (tag :: code :: ops)
    let h := { s.host with receiver := .hunt, frameTimer := none }
    (s.host.buffer = none → s.host.executing = none → keptOccupied s = false →
      Takes c s (takeAnswer tag code (execute ⟨tag, code, ops⟩ (taken s)))) ∧
    (s.host.buffer = none → (s.host.executing.isSome = true ∨ keptOccupied s = true) →
      Takes c s ((startEvent s).withHost { h with buffer := some ⟨tag, code, ops⟩ })) ∧
    (s.host.buffer.isSome = true → refusalTotal s.host < 4 →
      Takes c s ((startEvent s).withHost
        { h with replies := s.host.replies ++ [⟨.refusal, tag, code, .linkBusy, []⟩] })) ∧
    (s.host.buffer.isSome = true → 4 ≤ refusalTotal s.host →
      Takes c s ((startEvent s).withHost { h with framesDiscarded := true }))

/-- R3: an alert timer that expires confirms its zone, and the frame that waits in the receive buffer is
removed and answered FIRE_PREEMPTED in a refusal place, or dropped with frames-discarded set where none is
free. The frame in execution, the frame in reception, the replies queued and the frame on the line are not
touched. -/
def Obligations.ConfirmationPreemptsWaitingFrame : Prop :=
  ∀ (s : State) (z : Fin 8), s.up = true → (s.zoneFire z).state = .alert →
    (s.zoneFire z).alertTimer.isSome = true →
    ∃ t, Takes (.alertTimerExpiry z) s t ∧ (t.zoneFire z).state.inFire = true ∧
      (s.host.buffer = none → t.host = s.host) ∧
      (∀ f, s.host.buffer = some f → refusalTotal s.host < 4 →
        t.host = { s.host with
          buffer := none,
          replies := s.host.replies ++ [⟨.refusal, f.tag, f.code, .firePreempted, []⟩] }) ∧
      (∀ f, s.host.buffer = some f → 4 ≤ refusalTotal s.host →
        t.host = { s.host with buffer := none, framesDiscarded := true })

/-- R4: the three checks of the Host Link Controller, in their order; a refused request has no effect, and a
filler byte other than 0x00 fails the third check. -/
def Obligations.LinkControllerRefusals : Prop :=
  ∀ (s : State) (tag code : Byte) (ops : List Byte), HostReady s →
    bodyLengthOk (ops.length + 2) = true →
    (tag = 0 → Refuses (.hostFrameReceived (tag :: code :: ops)) tag code .badTag s) ∧
    (tag ≠ 0 → requestCodes.contains code.toNat = false →
      Refuses (.hostFrameReceived (tag :: code :: ops)) tag code .unknownRequest s ∧
      Refuses (.unknownRequest tag code ops) tag code .unknownRequest s) ∧
    (tag ≠ 0 → operandsOk code.toNat ops = some false →
      Refuses (.hostFrameReceived (tag :: code :: ops)) tag code .badOperand s) ∧
    (∀ b : Byte, tag ≠ 0 → b ≠ 0 →
      Refuses (.status tag b) tag 0x01 .badOperand s ∧ Refuses (.restart tag b) tag 0x03 .badOperand s ∧
      Refuses (.saveSettings tag b) tag 0x14 .badOperand s ∧
      Refuses (.loadDefaults tag b) tag 0x15 .badOperand s ∧
      Refuses (.restoreLinkRate tag b) tag 0x24 .badOperand s ∧
      Refuses (.getRack tag b) tag 0x40 .badOperand s ∧
      Refuses (.getHatch tag b) tag 0x41 .badOperand s ∧
      Refuses (.hatchDryOverride tag b) tag 0x42 .badOperand s)

/-! ## General requests and settings -/

/-- R9: STATUS reports the part and clears the frames-discarded flag, which it reports as it stood. -/
def Obligations.StatusReports : Prop :=
  ∀ (s : State) (tag : Byte), HostReady s → tag ≠ 0 →
    Answers (.status tag 0) tag 0x01 .ok
      ([byteOf s.device.condition.code, byteOf s.device.cause.code,
        byteOf ((if s.device.settingsDefaulted then 1 else 0) + (if s.host.framesDiscarded then 2 else 0) +
          (if s.device.storeFault then 4 else 0) + (if lockout s then 8 else 0) +
          (if s.fire.alarmOut then 16 else 0)),
        byteOf s.link.rate.val] ++
        zoneIds.map (fun z => byteOf (s.zoneFire z).state.code) ++
        (List.range 11).flatMap (fun k => field16 (countState s k)) ++ [s.notices.mask, 0x12])
      s ((taken s).withHost { (taken s).host with framesDiscarded := false })

/-- R10: SET_NOTICE_MASK takes a mask of classes 1 to 3 at once, and refuses every other bit. R11: RESTART
is answered ACCEPTED, without another effect until the reply is sent. -/
def Obligations.SetNoticeMaskAndRestart : Prop :=
  ∀ (s : State) (tag mask : Byte), HostReady s → tag ≠ 0 →
    (mask &&& 0xF1 = 0 →
      Answers (.setNoticeMask tag mask) tag 0x02 .ok [mask] s
        ((taken s).withNotices { s.notices with mask := mask })) ∧
    (mask &&& 0xF1 ≠ 0 → Refuses (.setNoticeMask tag mask) tag 0x02 .badOperand s) ∧
    Answers (.restart tag 0) tag 0x03 .accepted [] s (taken s)

/-- R12, R23: GET_PARAM answers the number and the working value. SET_PARAM sets one working value where its
checks pass; the rest of the settings, the nodes, fire records, climate, hatch, roster and settings image
stand. -/
def Obligations.ParamRequests : Prop :=
  ∀ (s : State) (tag number : Byte) (value : Half), HostReady s → tag ≠ 0 →
    (number.toNat = 0 ∨ 27 < number.toNat →
      Refuses (.getParam tag number) tag 0x10 .badOperand s ∧
      Refuses (.setParam tag number value) tag 0x11 .badOperand s) ∧
    (∀ p, Param.ofNumber number.toNat = some p →
      Answers (.getParam tag number) tag 0x10 .ok (number :: field16 (s.param p)) s (taken s) ∧
      (p.valueOk value.toNat = false ∨ agreementPairOk s p value.toNat = false →
        Refuses (.setParam tag number value) tag 0x11 .badOperand s) ∧
      (p.valueOk value.toNat = true → agreementPairOk s p value.toNat = true →
        (∀ st, firstFailure (placementChecks s p value.toNat) = some st →
          Refuses (.setParam tag number value) tag 0x11 st s) ∧
        (firstFailure (placementChecks s p value.toNat) = none →
          ∃ t, Answers (.setParam tag number value) tag 0x11 .ok (number :: fieldHalf value) s t ∧
            t.settings = { s.settings with params := s.settings.params.change p value.toNat } ∧
            t.nodes = s.nodes ∧ t.fire = s.fire ∧ t.climate = s.climate ∧ t.hatch = s.hatch ∧
            t.handover.roster = s.handover.roster ∧ t.store.settings = s.store.settings)))

/-- R18: GET_ZONE refuses a zone operand outside 0 to 7 (ROOM, number 8, too) with BAD_OPERAND, and else
answers OK with the zone table entry in the layout of Table 1-3, the window 0xFFFF where it is absent. -/
def Obligations.GetZoneReadsEntry : Prop :=
  ∀ (s : State) (tag zone : Byte), HostReady s → tag ≠ 0 →
    (8 ≤ zone.toNat → Refuses (.getZone tag zone) tag 0x12 .badOperand s) ∧
    (∀ z : Fin 8, zone.toNat = z.val →
      Answers (.getZone tag zone) tag 0x12 .ok
        ([zone, flagByte (s.zone z).window.isSome] ++
          field16 (((s.zone z).window.map (·.base)).getD 0xFFFF) ++
          field16 (((s.zone z).window.map (·.limit)).getD 0xFFFF) ++
          field16 (s.zone z).climate.setpoint ++ field16 (s.zone z).climate.deadband ++
          field16 (s.zone z).climate.rhLow ++ field16 (s.zone z).climate.rhHigh ++
          fieldTemp (s.zone z).climate.tempLow ++ fieldTemp (s.zone z).climate.tempHigh ++
          [flagByte (s.zone z).armed])
        s (taken s))

/-- R19 to R21: SET_ZONE refuses an operand out of form or a change that a placement check stops, and else
sets the window and the six climate settings of its zone, works out
the zone's control and excursion record by them, and answers the entry. The excursion record follows the table of
section 6.4, whose rule has no number (DEDUCED, log 12). The other zones' settings and climate records, the
readings and the probes stand. -/
def Obligations.SetZoneSetsEntry : Prop :=
  ∀ (s : State) (tag zone present : Byte) (b l sp db rl rh tl th : Half), HostReady s → tag ≠ 0 →
    let c : ClimateSettings :=
      { setpoint := sp.toNat, deadband := db.toNat, rhLow := rl.toNat, rhHigh := rh.toNat,
        tempLow := tl.toInt, tempHigh := th.toInt }
    let i := Instr.setZone tag zone present b l sp db rl rh tl th
    (8 ≤ zone.toNat ∨ windowOperand present b l = none ∨ c.ok = false →
      Refuses i tag 0x13 .badOperand s) ∧
    (∀ (z : Fin 8) (w : Option Window), zone.toNat = z.val → windowOperand present b l = some w →
      c.ok = true →
      (∀ st, firstFailure (setZoneChecks s z w c) = some st → Refuses i tag 0x13 st s) ∧
      (firstFailure (setZoneChecks s z w c) = none →
        ∃ t, Answers i tag 0x13 .ok (zoneData t z) s t ∧
          t.zone z = { s.zone z with window := w, climate := c } ∧
          (∀ y, y ≠ z → t.zone y = s.zone y) ∧ t.settings.params = s.settings.params ∧
          t.zoneClimate z = climateAfter (s.withSettings { s.settings with zones := zonesWith s z w c }) z ∧
          (∀ y, y ≠ z → t.zoneClimate y = s.zoneClimate y) ∧ t.climate.air = s.climate.air ∧
          t.climate.probes = s.climate.probes ∧ t.nodes = s.nodes ∧ t.fire = s.fire ∧ t.hatch = s.hatch ∧
          t.handover.roster = s.handover.roster ∧ t.store.settings = s.store.settings))

/-- R173: SAVE_SETTINGS writes the working settings to their image; a verified write clears
settings-defaulted, one that is not verified faults the store. Which of the two comes is a free value
(log 7). -/
def Obligations.SaveSettingsWritesImage : Prop :=
  ∀ (s : State) (tag : Byte), HostReady s → tag ≠ 0 →
    (s.store.nextFails = false →
      ∃ t, Answers (.saveSettings tag 0) tag 0x14 .ok [] s t ∧
        t.store.settings.loaded = some (some (settingsData s)) ∧
        t.device = { s.device with settingsDefaulted := false } ∧
        t = { taken s with store := t.store, device := t.device } ∧
        t.store.records = s.store.records ∧ t.store.roster = s.store.roster) ∧
    (s.store.nextFails = true →
      ∃ t, Answers (.saveSettings tag 0) tag 0x14 .storeFault [] s t ∧
        t.device = { s.device with storeFault := true } ∧
        t = { taken s with store := t.store, device := t.device, notices := t.notices } ∧
        t.store.records = s.store.records ∧ t.store.roster = s.store.roster ∧
        (s.device.storeFault = false → t.notices.pending.get? 30 = some .storeFault))

/-- R174: LOAD_DEFAULTS sets every parameter but the rack zone and the hatch zone, every zone's climate
settings and armed flag to their defaults, and keeps the windows, the bindings and the settings image. -/
def Obligations.LoadDefaultsSetsDefaults : Prop :=
  ∀ (s : State) (tag : Byte), HostReady s → tag ≠ 0 →
    ∃ t, Answers (.loadDefaults tag 0) tag 0x15 .ok [] s t ∧
      (∀ p : Param, p ≠ .rackZone → p ≠ .hatchZone → t.param p = p.default) ∧
      t.param .rackZone = s.param .rackZone ∧ t.param .hatchZone = s.param .hatchZone ∧
      (∀ z : Fin 8, t.zone z = { window := (s.zone z).window, climate := .defaults, armed := true }) ∧
      t.nodes = s.nodes ∧ t.handover.roster = s.handover.roster ∧ t.store.settings = s.store.settings

/-! ## Nodes and the field link -/

/-- R30: GET_NODE refuses an index outside 0 to 31 with BAD_OPERAND, and else answers OK with the entry in
the layout of Table 1-3, an unbound entry with the values the layout gives an absent one. -/
def Obligations.GetNodeReadsEntry : Prop :=
  ∀ (s : State) (tag index : Byte), HostReady s → tag ≠ 0 →
    (32 ≤ index.toNat → Refuses (.getNode tag index) tag 0x20 .badOperand s) ∧
    (index.toNat < 32 → s.node? index.toNat = none →
      Answers (.getNode tag index) tag 0x20 .ok
        [index, 0, 0, 0xFF, 0xFF, 0xFF, 0xFF, 0xFF, 0, 0, 0xFF, 0xFF] s (taken s)) ∧
    (∀ n, index.toNat < 32 → s.node? index.toNat = some n →
      Answers (.getNode tag index) tag 0x20 .ok
        ([index, byteOf n.kind.code, byteOf n.binding.physicalId, n.binding.target.zoneByte] ++
          n.binding.target.rangeData ++
          [byteOf n.health.code, byteOf n.misses, byteOf (n.accepted.getD 0xFF), byteOf n.rate.val])
        s (taken s))

/-- R26, R27: a BIND_NODE whose checks pass fills the entry, ONLINE with no miss, no accepted sequence and
the link rate as its believed rate, and posts NODE_HEALTH; every other entry, the settings, the roster and the
settings image stand. The owning block takes the binding: a PROBE has no reading yet, an AIR node has MODE
queued with its zone's mode, a new HATCH node has not reported and the air is WET; a node bound in STARTING joins
the start-up set. A BIND_NODE that fails a check has no effect. -/
def Obligations.BindNodeFillsEntry : Prop :=
  ∀ (s : State) (tag index id kind zone : Byte) (b l : Half), HostReady s → tag ≠ 0 →
    let i := Instr.bindNode tag index id kind zone b l
    (32 ≤ index.toNat ∨ id.toNat = 0 ∨ 126 < id.toNat ∨ NodeKind.ofCode kind.toNat = none →
      Refuses i tag 0x21 .badOperand s) ∧
    (∀ k, NodeKind.ofCode kind.toNat = some k → targetOperand k zone b l = none →
      Refuses i tag 0x21 .badOperand s) ∧
    (∀ k g, index.toNat < 32 → 1 ≤ id.toNat → id.toNat ≤ 126 → NodeKind.ofCode kind.toNat = some k →
      targetOperand k zone b l = some g →
      (∀ st, firstFailure (bindChecks s index.toNat id.toNat g) = some st → Refuses i tag 0x21 st s) ∧
      (firstFailure (bindChecks s index.toNat id.toNat g) = none →
        ∃ t, Answers i tag 0x21 .ok [] s t ∧
          t.node? index.toNat = some
            { binding := { physicalId := id.toNat, target := g }, health := .online, misses := 0,
              accepted := none, rate := s.link.rate, assembly := none } ∧
          (∀ j, j ≠ index.toNat → t.node? j = s.node? j) ∧ t.settings = s.settings ∧
          t.notices.pending.get? (52 + index.toNat) =
            some (.nodeHealth index.toNat .online 0 id.toNat) ∧
          (∀ z, g = .probe z → t.climate.probes.get? index.toNat = some ⟨none, none⟩) ∧
          (∀ z, g = .air z → ∃ e ∈ t.link.queue, e.node = index.toNat ∧ e.cmd = .mode ∧
            e.data = [byteOf (s.zoneClimate z).control.mode.code]) ∧
          (g = .hatch → t.hatch.report = none ∧ t.hatch.air = .wet) ∧
          (s.device.condition = .starting → index.toNat ∈ t.device.startupSet) ∧
          t.handover.roster = s.handover.roster ∧ t.store.settings = s.store.settings))

/-- R28, R29: an UNBIND_NODE whose checks pass frees the entry, and posts NODE_HEALTH with the physical ID it
had; every other entry, the settings, the roster and the settings image stand. No queued command of the node
remains, and every other node keeps its own; a poll cursor that stood there moves to the next bound index, any
other stands; the node leaves the start-up set. A PROBE's reading is gone, a FIRE node's heads, hold switch and
valve are as without a node, the HATCH node has not reported. An unbound index and a failing check are
refused. -/
def Obligations.UnbindNodeFreesEntry : Prop :=
  ∀ (s : State) (tag index : Byte), HostReady s → tag ≠ 0 →
    (32 ≤ index.toNat → Refuses (.unbindNode tag index) tag 0x22 .badOperand s) ∧
    (index.toNat < 32 → s.node? index.toNat = none →
      Refuses (.unbindNode tag index) tag 0x22 .wrongState s) ∧
    (∀ n, index.toNat < 32 → s.node? index.toNat = some n →
      (∀ st, firstFailure (unbindChecks s n) = some st → Refuses (.unbindNode tag index) tag 0x22 st s) ∧
      (firstFailure (unbindChecks s n) = none →
        ∃ t, Answers (.unbindNode tag index) tag 0x22 .ok [] s t ∧
          t.node? index.toNat = none ∧ (∀ j, j ≠ index.toNat → t.node? j = s.node? j) ∧
          t.settings = s.settings ∧ t.handover.roster = s.handover.roster ∧
          t.notices.pending.get? (52 + index.toNat) =
            some (.nodeHealth index.toNat .unbound 0 n.binding.physicalId) ∧
          (∀ e ∈ t.link.queue, e.node ≠ index.toNat) ∧
          (∀ e ∈ s.link.queue, e.node ≠ index.toNat →
            ∃ d ∈ t.link.queue, d.node = e.node ∧ d.cmd = e.cmd) ∧
          (s.link.cursor ≠ some index.toNat → t.link.cursor = s.link.cursor) ∧
          (∀ j, TablesOk s → s.link.cursor = some index.toNat →
            NextInTurn (fun k => (t.node? k).isSome = true) (some index.toNat) j →
            t.link.cursor = some j) ∧
          (s.device.condition = .starting → index.toNat ∉ t.device.startupSet) ∧
          (∀ z, n.binding.target = .probe z → t.climate.probes.get? index.toNat = none) ∧
          (∀ z, n.binding.target = .fire z →
            (t.zoneFire z).headA = .clear ∧ (t.zoneFire z).headB = .clear ∧
              (t.zoneFire z).hold = .released ∧ (t.zoneFire z).valve = .notReported) ∧
          (n.binding.target = .hatch → t.hatch.report = none) ∧
          t.store.settings = s.store.settings))

/-- R43: the checks of FORWARD in their order. An accepted one fills the forward slot and holds execution
with its tag; no reply is queued yet. R44: when its transaction ends, the slot and execution are free and the
reply is queued: NODE_TIMEOUT after a miss, NODE_OFFLINE after an answer of another kind, else OK with the
report from its kind byte to its last byte before the CRC, whatever its length: of a report that makes the reply's
body longer than 253 bytes this is the model's choice (DESIGN CHOICE, log 43). -/
def Obligations.ForwardHoldsExecution : Prop :=
  (∀ (s : State) (tag index command : Byte) (data : List Byte), HostReady s → tag ≠ 0 →
    data.length ≤ 200 →
    let i := Instr.forward tag index command data
    (lockout s = true → Refuses i tag 0x23 .fireUnacknowledged s) ∧
    (lockout s = false → 32 ≤ index.toNat → Refuses i tag 0x23 .badOperand s) ∧
    (lockout s = false → index.toNat < 32 → usableNode s index.toNat = false →
      Refuses i tag 0x23 .nodeOffline s) ∧
    (∀ n, lockout s = false → index.toNat < 32 → usableNode s index.toNat = true →
      s.node? index.toNat = some n →
      (command.toNat = 0x40 ∨ ((n.kind = .fire ∨ n.kind = .hatch) ∧ 0x3F < command.toNat) →
        Refuses i tag 0x23 .protectedCommand s) ∧
      (command.toNat ≠ 0x40 → (n.kind = .fire ∨ n.kind = .hatch → command.toNat ≤ 0x3F) →
        Takes i s
          (((taken s).withHost { (taken s).host with executing := some tag }).withLink
            { s.link with forward := some ⟨index.toNat, command.toNat, data⟩ })))) ∧
  (∀ (s : State) (x : Transaction) (left i : Nat) (n : Node) (tag : Byte), s.up = true →
    s.link.activity = .awaiting x left → x.origin = .forwarded → x.node = some i → s.node? i = some n →
    s.host.executing = some tag →
    let ends := fun (c : Instr) (st : Status) (data : List Byte) =>
      ∃ t, Takes c s t ∧ t.link.forward = none ∧ t.host.executing = none ∧
        t.host.replies.getLast? = some ⟨.kept, tag, 0x23, st, data⟩
    ends .replyWindowExpiry .nodeTimeout [] ∧
    (∀ report, (∀ r, readReport report = some r → r.physicalId ≠ x.physicalId) →
      ends (.fieldReportReceived report) .nodeTimeout []) ∧
    (∀ report r, readReport report = some r → r.physicalId = x.physicalId →
      (r.kind ≠ n.kind.code → ends (.fieldReportReceived report) .nodeOffline []) ∧
      (r.kind = n.kind.code →
        ends (.fieldReportReceived report) .ok ((report.take (report.length - 2)).drop 1))))

/-- R47: RESTORE_LINK_RATE asks for rate 0 by a broadcast, or, at link rate 0, withdraws a step-down; a link
that is going to rate 0 (by its pending broadcast, else by its rate) already is refused. A broadcast on the
wire is broken off: that is the model's (log 15). -/
def Obligations.RestoreLinkRate : Prop :=
  ∀ (s : State) (tag : Byte), HostReady s → tag ≠ 0 →
    let going := (s.link.pendingBroadcast.map (·.target)).getD s.link.rate
    (going = 0 → Refuses (.restoreLinkRate tag 0) tag 0x24 .wrongState s) ∧
    (going ≠ 0 →
      ∀ a, ((∃ b, s.link.activity = .broadcasting b) → a = .idle) →
        ((∀ b, s.link.activity ≠ .broadcasting b) → a = s.link.activity) →
      (s.link.rate ≠ 0 →
        Answers (.restoreLinkRate tag 0) tag 0x24 .ok [] s
          ((taken s).withLink
            { s.link with pendingBroadcast := some ⟨0, s.link.rate, .restored⟩, activity := a })) ∧
      (s.link.rate = 0 →
        Answers (.restoreLinkRate tag 0) tag 0x24 .ok [] s
          (post (.linkRate 0 .restored)
            ((taken s).withLink { s.link with pendingBroadcast := none, activity := a }))))

/-- R31: the last byte of a poll starts the reply timer with the reply window in force. R46: the last byte of
a rate broadcast sets the link rate, carries the nodes that hear it, and begins a new window. R45, R46: a
counted transaction that ends is counted, and as an error where it missed; one that fills the window begins a
new one, and where the errors reach the threshold, the rate is below 3 and no broadcast is pending, the
step-down is pending and being sent. R40, R41, R42, R48: what an idle link sends after every command: the
pending broadcast; RELEASE; the hatch commands; the due FIRE node's poll; the other commands; the forwarded
transaction; the routine poll, of the node that has more events, else of the node at the cursor. The model's own:
whether the node with more events is OFFLINE is judged when its poll is taken (DEDUCED, log 52); a transaction
whose node was unbound is counted all the same (DESIGN CHOICE, log 14); the FIRE poll count and rotation change as
a transaction begins (DEDUCED, log 16). -/
def Obligations.PollAndBroadcastSent : Prop :=
  ∀ s : State, s.up = true →
    (∀ x, s.link.activity = .sending x →
      Takes .pollSent s
        ((startEvent s).withLink { s.link with activity := .awaiting x (s.param .replyWindow) })) ∧
    (∀ b, s.link.activity = .broadcasting b →
      ∃ t, Takes .rateBroadcastSent s t ∧
        t.link = { s.link with rate := b.target, transactions := 0, errors := 0,
                               windowLength := s.param .qualityWindow, pendingBroadcast := none,
                               activity := .idle } ∧
        (∀ i n, s.node? i = some n →
          (n.health ≠ .offline → n.rate = b.sendRate → t.node? i = some { n with rate := b.target }) ∧
          (n.health = .offline ∨ n.rate ≠ b.sendRate → t.node? i = some n)) ∧
        t.notices.pending.get? 84 = some (.linkRate b.target b.event) ∧
        t = { startEvent s with link := t.link, nodes := t.nodes, notices := t.notices }) ∧
    (∀ x left c missed, s.link.activity = .awaiting x left →
      (c = .replyWindowExpiry ∧ missed = 1 ∨
        ∃ report, c = .fieldReportReceived report ∧
          missed = if (readReport report).map (·.physicalId) = some x.physicalId then 0 else 1) →
      let counted := s.link.transactions + 1
      let errors := s.link.errors + missed
      ∃ t, Takes c s t ∧ t.link.rate = s.link.rate ∧
        (x.counted = false →
          t.link.transactions = s.link.transactions ∧ t.link.errors = s.link.errors ∧
            t.link.windowLength = s.link.windowLength ∧
            t.link.pendingBroadcast = s.link.pendingBroadcast) ∧
        (x.counted = true → counted < s.link.windowLength →
          t.link.transactions = counted ∧ t.link.errors = errors ∧
            t.link.windowLength = s.link.windowLength ∧
            t.link.pendingBroadcast = s.link.pendingBroadcast) ∧
        (x.counted = true → s.link.windowLength ≤ counted →
          t.link.transactions = 0 ∧ t.link.errors = 0 ∧ t.link.windowLength = s.param .qualityWindow ∧
            (s.param .errorThreshold ≤ errors → s.link.rate.val < 3 → s.link.pendingBroadcast = none →
              ∃ b, t.link.pendingBroadcast = some b ∧ t.link.activity = .broadcasting b ∧
                b.target.val = s.link.rate.val + 1 ∧ b.sendRate = s.link.rate ∧ b.event = .stepDown) ∧
            (errors < s.param .errorThreshold ∨ s.link.rate = 3 ∨
                s.link.pendingBroadcast.isSome = true →
              t.link.pendingBroadcast = s.link.pendingBroadcast))) ∧
    (∀ c u v, Takes c s u → exec c s = .next v → u.link.activity = .idle → TablesOk u →
      let queued := fun (kinds : List CmdKind) (e : QueueEntry) =>
        e.cmd ∈ kinds ∧ usableNode u e.node = true
      let nothing := fun (kinds : List CmdKind) => ∀ e ∈ u.link.queue, ¬queued kinds e
      let hatch := [CmdKind.roomLock, .storeLock, .exitLock, .purge]
      let rest := [CmdKind.mode, .signalReject, .prompt]
      let fireNode := fun i => usableNode u i = true ∧ (u.node? i).map Node.kind = some .fire
      let due := u.link.fireCount = 4 ∧ ∃ i, fireNode i
      (∀ b, u.link.pendingBroadcast = some b → v.link.activity = .broadcasting b) ∧
      (u.link.pendingBroadcast = none →
        (∀ e, FirstOf u.link.queue (queued [.release]) e →
          Begins u v e.node (.command .release) 0x47 e.data) ∧
        (nothing [.release] → ∀ e, FirstOf u.link.queue (queued hatch) e →
          Begins u v e.node (.command e.cmd) e.cmd.code e.data) ∧
        (nothing [.release] → nothing hatch → u.link.fireCount = 4 →
          ∀ i, NextInTurn fireNode u.link.fireRotation i →
            Begins u v i .firePoll 0x00 [] ∧ v.link.fireRotation = some i) ∧
        (nothing [.release] → nothing hatch → ¬due → ∀ e, FirstOf u.link.queue (queued rest) e →
          Begins u v e.node (.command e.cmd) e.cmd.code e.data) ∧
        (nothing [.release] → nothing hatch → ¬due → nothing rest →
          (∀ f, u.link.forward = some f → (u.node? f.node).isSome = true →
            Begins u v f.node .forwarded f.code f.data) ∧
          (u.link.forward = none →
            (∀ i n, u.link.followUp = some i → u.link.lastWasFollowUp = false → u.node? i = some n →
              n.health ≠ .offline →
              BeginsRoutine u v i n ∧ v.link.followUp = none ∧ v.link.cursor = u.link.cursor) ∧
            (∀ i n j, (∀ k m, u.link.followUp = some k → u.link.lastWasFollowUp = false →
                u.node? k = some m → m.health = .offline) →
              u.link.cursor = some i → u.node? i = some n →
              NextInTurn (fun k => (u.node? k).isSome = true) (some i) j →
              BeginsRoutine u v i n ∧ v.link.cursor = some j)))))

/-- R31, R32: a transaction that ends with no report in time, with a wrong CRC or with another physical ID is
a miss: the miss count rises to at most 255, ONLINE becomes SUSPECT at 2, SUSPECT and MISMATCH become OFFLINE
at 5; the believed rate is the link rate on entry into OFFLINE, and moves on after a hunting poll (R48). A
valid answer of another kind makes MISMATCH with miss count 0, or the count kept where it was MISMATCH (the
model's, log 42); one of the node's kind makes ONLINE with miss count 0 and the node leaves the start-up set
(R181), as it does on entry into OFFLINE, whatever the report's content (the model's, log 13); R33: a batch not had before is accepted. R35, R36: a segment of a
snapshot opens, extends or closes the node's assembly, is a repeat or is out of step, and sets the accepted
sequence (`SegmentTaken`; segment 0 where segment 1 is expected opens anew: the model's, log 59; the width of both
numbers: DEDUCED, log 34); what completes no
snapshot and brings no new batch hands the owning block no item. A change of health is
posted; that is said of every kind but PROBE, and for an ONLINE node of the kinds that report no state of fire
or hatch and bring no event. R48: a hunting poll that is answered by a node owed a
rate correction is followed by it. The settings and the settings image stand, and but for a valid answer of
its kind the roster. -/
def Obligations.TransactionEndSetsHealth : Prop :=
  ∀ (s : State) (x : Transaction) (left i : Nat) (n : Node), s.up = true →
    s.link.activity = .awaiting x left → x.node = some i → s.node? i = some n →
    let keeps := fun t : State => t.settings = s.settings ∧ t.store.settings = s.store.settings
    let posted := fun (t : State) (y : Node) => n.kind ≠ .probe → y.health ≠ n.health →
      t.notices.pending.get? (52 + i) = some (.nodeHealth i y.health y.misses n.binding.physicalId)
    let leaves := fun t : State =>
      t.device.startupSet = s.device.startupSet.filter (· != i) ∧
        t.device.condition =
          (if s.device.condition = .starting ∧ t.device.startupSet = [] then .running
           else s.device.condition)
    let hunting := ∃ cmd, x.origin = .hunting cmd
    (∀ c, (c = .replyWindowExpiry ∨ ∃ report, c = .fieldReportReceived report ∧
        ∀ r, readReport report = some r → r.physicalId ≠ x.physicalId) →
      ∃ t y, Takes c s t ∧ t.node? i = some y ∧ y.binding = n.binding ∧
        y.misses = min 255 (n.misses + 1) ∧
        y.health =
          (if n.health = .online ∧ 2 ≤ y.misses then .suspect
           else if (n.health = .suspect ∨ n.health = .mismatch) ∧ 5 ≤ y.misses then .offline
           else n.health) ∧
        y.accepted = n.accepted ∧
        (y.health = .offline → n.health ≠ .offline → y.rate = s.link.rate ∧ leaves t) ∧
        ((y.health ≠ .offline ∨ n.health = .offline) →
          (hunting → y.rate = n.rate + 1) ∧ (¬hunting → y.rate = n.rate)) ∧
        posted t y ∧ keeps t ∧ t.handover.roster = s.handover.roster) ∧
    (∀ report r, readReport report = some r → r.physicalId = x.physicalId → r.kind ≠ n.kind.code →
      ∃ t y, Takes (.fieldReportReceived report) s t ∧ t.node? i = some y ∧ y.health = .mismatch ∧
        y.misses = (if n.health = .mismatch then n.misses else 0) ∧ y.binding = n.binding ∧
        y.accepted = n.accepted ∧ y.rate = n.rate ∧ posted t y ∧ keeps t ∧
        t.handover.roster = s.handover.roster) ∧
    (∀ report r, ValidAnswer s x i n report r →
      ∃ t y, Takes (.fieldReportReceived report) s t ∧ t.node? i = some y ∧ y.health = .online ∧
        y.misses = 0 ∧ y.binding = n.binding ∧
        y.rate = (if x.code = 0x40 then s.link.rate else n.rate) ∧
        (∀ es, NewBatch n r es → y.accepted = some (r.number % 16)) ∧
        SegmentTaken n r y ∧
        (NothingHanded n r →
          (n.kind ≠ .hatch → t.custody = s.custody ∧ t.rack = s.rack) ∧
          t.hatch.contents = s.hatch.contents) ∧
        leaves t ∧ keeps t ∧
        (readItems n.kind r = .events [] → n.kind ≠ .fire → n.kind ≠ .hatch → posted t y) ∧
        (hunting → x.counted = false → s.link.pendingBroadcast = none → y.rate ≠ s.link.rate →
          Begins (t.withLink s.link) t i .correction 0x40 [byteOf s.link.rate.val]))

/-- R31: a report that no transaction waits for changes nothing; the other end-of-frame rows have no effect
where no such frame is on the wire, and every expiry has none where its timer does not run, is paused or is
frozen (log 5). -/
def Obligations.IdleRowsDoNothing : Prop :=
  ∀ (s : State), s.up = true →
    let idle := fun c : Instr => Takes c s (startEvent s)
    let limitIdle := fun (c : Fin 2) (phases : List Phase) =>
      ∀ x, liveContext? s c.val = some x → x.phase ∈ phases → x.timer = none
    ((∀ x left, s.link.activity ≠ .awaiting x left) →
      (∀ report, idle (.fieldReportReceived report)) ∧ idle .replyWindowExpiry) ∧
    ((∀ x, s.link.activity ≠ .sending x) → idle .pollSent) ∧
    ((∀ b, s.link.activity ≠ .broadcasting b) → idle .rateBroadcastSent) ∧
    (s.host.transmitting = none → idle .frameSent) ∧
    (s.host.frameTimer = none → idle .frameTimerExpiry) ∧
    (∀ k : Fin 16, (∀ o, s.order? k.val = some o → o.state.isWaiting = false ∨ o.deadline = none) →
      idle (.deadlineExpiry k)) ∧
    (∀ i : Fin 32, (∀ p, s.climate.probes.get? i.val = some p → p.age = none) →
      idle (.probeAgeTimerExpiry i)) ∧
    (∀ z, ((s.zoneClimate z).grace = none ∨ (s.zoneClimate z).excursion ≠ .outGrace ∨
      (s.airAt (airZone z)).reading = none) → idle (.graceTimerExpiry z)) ∧
    (∀ z, ((s.zoneClimate z).minuteTimer = none ∨ (s.airAt (airZone z)).reading = none) →
      idle (.minuteTimerExpiry z)) ∧
    (∀ p, ((s.position p).dwell = none ∨ (s.position p).paused = true) → idle (.dwellCompletion p)) ∧
    (∀ i : Fin 2048, (∀ r, s.record? i.val = some r → r.carry = none) → idle (.carryWindowExpiry i)) ∧
    (∀ z, ((s.zoneFire z).state ≠ .alert ∨ (s.zoneFire z).alertTimer = none) →
      idle (.alertTimerExpiry z)) ∧
    (∀ z, ((s.zoneFire z).state ≠ .countdown ∨ (s.zoneFire z).countdownTimer = none) →
      idle (.countdownTimerExpiry z)) ∧
    (∀ z, (s.zoneFire z).ackTimer = none → idle (.ackTimerExpiry z)) ∧
    ((∀ run, s.hatch.purge = some run → run.minTimer = none) → idle .purgeMinimumTimerExpiry) ∧
    (s.hatch.purge = none → idle .purgeMaximumTimerExpiry) ∧
    (s.hatch.retry = none → idle .retryDelayExpiry) ∧
    (s.hatch.wetDwell = none → idle .wetDwellExpiry) ∧
    (∀ c, limitIdle c [.waitHatch] → idle (.hatchWaitLimitExpiry c)) ∧
    (∀ c, limitIdle c [.loading, .loadingIn] → idle (.loadingLimitExpiry c)) ∧
    (∀ c, limitIdle c [.collecting] → idle (.collectingLimitExpiry c)) ∧
    (∀ c, limitIdle c [.awaitRelease] → idle (.releaseWaitLimitExpiry c)) ∧
    (∀ c, limitIdle c [.recall, .recallReturn] → idle (.recallLimitExpiry c))

/-! ## Fire -/

/-- R122, R125: the four fire requests refuse a zone outside 0 to 7 and a flag other than 0 or 1. ACK_FIRE
acknowledges a zone in fire, discards its acknowledgement timer, posts ZONE_FIRE, and works ALARM OUT out
afresh; nothing else changes. An acknowledged zone is left as it is; NORMAL and ALERT are refused. -/
def Obligations.AckFireAcknowledges : Prop :=
  ∀ (s : State) (tag zone b : Byte), HostReady s → tag ≠ 0 →
    (8 ≤ zone.toNat →
      Refuses (.ackFire tag zone) tag 0x30 .badOperand s ∧
      Refuses (.fireReset tag zone) tag 0x31 .badOperand s) ∧
    (8 ≤ zone.toNat ∨ 2 ≤ b.toNat →
      Refuses (.setArmed tag zone b) tag 0x32 .badOperand s ∧
      Refuses (.setDrill tag zone b) tag 0x33 .badOperand s) ∧
    ∀ z : Fin 8, zone.toNat = z.val →
    ((s.zoneFire z).state.inFire = false → Refuses (.ackFire tag zone) tag 0x30 .wrongState s) ∧
    ((s.zoneFire z).state.inFire = true → (s.zoneFire z).acknowledged = true →
      Answers (.ackFire tag zone) tag 0x30 .ok (zoneFireNotice s z).content s (taken s)) ∧
    ((s.zoneFire z).state.inFire = true → (s.zoneFire z).acknowledged = false →
      ∃ t, Answers (.ackFire tag zone) tag 0x30 .ok (zoneFireNotice t z).content s t ∧
        t.zoneFire z = { s.zoneFire z with acknowledged := true, ackTimer := none } ∧
        (∀ y, y ≠ z → t.zoneFire y = s.zoneFire y) ∧
        (AlarmOk s → t.fire.alarmOut = alarmWanted t) ∧
        t.notices.pending.get? z.val = some (zoneFireNotice t z) ∧
        t = { taken s with fire := t.fire, notices := t.notices })

/-- R123: FIRE_RESET returns a CONFIRMED, PAUSED or DISCHARGED zone that is acknowledged, with no head in
ALARM, to NORMAL, keeping its heads, hold switch, valve and equipment lost; every other zone is refused.
Other zones' records, the settings, nodes, roster, settings image and lines stand. -/
def Obligations.FireResetReturnsToNormal : Prop :=
  ∀ (s : State) (tag zone : Byte) (z : Fin 8), HostReady s → tag ≠ 0 → zone.toNat = z.val →
    let f := s.zoneFire z
    let allowed := (f.state = .confirmed ∨ f.state = .paused ∨ f.state = .discharged) ∧
      f.headA ≠ .alarm ∧ f.headB ≠ .alarm ∧ f.acknowledged = true
    (¬allowed → Refuses (.fireReset tag zone) tag 0x31 .wrongState s) ∧
    (allowed →
      ∃ t, Answers (.fireReset tag zone) tag 0x31 .ok (zoneFireNotice t z).content s t ∧
        t.zoneFire z =
          { f with state := .normal, drill := false, acknowledged := false, ackExpired := false,
                   countdownTimer := none, ackTimer := none, alertTimer := none } ∧
        (∀ y, y ≠ z → t.zoneFire y = s.zoneFire y) ∧ KeepsLayout s t)

/-- R124: SET_ARMED sets the armed flag in the working copy: arming a CONFIRMED zone whose hold switch is
RELEASED starts the countdown, disarming a COUNTDOWN or PAUSED zone returns it to CONFIRMED, and a flag
already as given has no effect. Other zones, the other settings, nodes, roster and settings image stand. -/
def Obligations.SetArmedSetsFlag : Prop :=
  ∀ (s : State) (tag zone b : Byte) (z : Fin 8) (a : Bool), HostReady s → tag ≠ 0 →
    zone.toNat = z.val → flagOperand b = some a →
    let f := s.zoneFire z
    ((s.zone z).armed = a →
      Answers (.setArmed tag zone b) tag 0x32 .ok (zoneFireNotice s z).content s (taken s)) ∧
    ((s.zone z).armed ≠ a →
      ∃ t, Answers (.setArmed tag zone b) tag 0x32 .ok (zoneFireNotice t z).content s t ∧
        t.zone z = { s.zone z with armed := a } ∧ (∀ y, y ≠ z → t.zone y = s.zone y) ∧
        t.settings.params = s.settings.params ∧
        t.zoneFire z =
          (if a = true ∧ f.state = .confirmed ∧ f.hold = .released then
            { f with state := .countdown, countdownTimer := some (s.param .countdownTime * 1000) }
           else if a = false ∧ (f.state = .countdown ∨ f.state = .paused) then
            { f with state := .confirmed, countdownTimer := none }
           else f) ∧
        (∀ y, y ≠ z → t.zoneFire y = s.zoneFire y) ∧ t.nodes = s.nodes ∧
        t.handover.roster = s.handover.roster ∧ t.store.settings = s.store.settings)

/-- R115, R116, R120: SET_DRILL start confirms a NORMAL zone as a drill and makes the countdown test,
and does what R127 and R128 say of a confirmation (`Confirmed`); stop returns a CONFIRMED, PAUSED or DISCHARGED
drill to NORMAL; every other state is refused. Other zones, the settings, nodes, roster, settings image and
lines stand. -/
def Obligations.SetDrillStartsAndStops : Prop :=
  ∀ (s : State) (tag zone : Byte) (z : Fin 8), HostReady s → tag ≠ 0 → zone.toNat = z.val →
    let f := s.zoneFire z
    let stoppable := (f.state = .confirmed ∨ f.state = .paused ∨ f.state = .discharged) ∧ f.drill = true
    (f.state ≠ .normal → Refuses (.setDrill tag zone 1) tag 0x33 .wrongState s) ∧
    (f.state = .normal →
      ∃ t, Answers (.setDrill tag zone 1) tag 0x33 .ok (zoneFireNotice t z).content s t ∧
        (t.zoneFire z).state = afterCountdownTest s z f.hold ∧ (t.zoneFire z).drill = true ∧
        (t.zoneFire z).acknowledged = false ∧
        (t.zoneFire z).ackTimer = some (s.param .ackTime * 1000) ∧ Confirmed s t z ∧
        (∀ y, y ≠ z → t.zoneFire y = s.zoneFire y) ∧ KeepsLayout s t) ∧
    (¬stoppable → Refuses (.setDrill tag zone 0) tag 0x33 .wrongState s) ∧
    (stoppable →
      ∃ t, Answers (.setDrill tag zone 0) tag 0x33 .ok (zoneFireNotice t z).content s t ∧
        (t.zoneFire z).state = .normal ∧ (t.zoneFire z).drill = false ∧
        (∀ y, y ≠ z → t.zoneFire y = s.zoneFire y) ∧ KeepsLayout s t)

/-- R114 to R118, R125: the fire timers. An alert timer confirms its zone, with what R127 and R128 say of a
confirmation (`Confirmed`), and makes the countdown test; a countdown ends in RELEASING, with RELEASE queued
for a bound FIRE node, or in a drill in DISCHARGED; an acknowledgement timer sets its flag and works ALARM OUT
out afresh. Other zones, the settings, nodes, roster, settings image and lines stand. R112, R114, R116 to R119,
R129: a FIRE report. Heads, hold switch and valve are held as reported, and the other zones stand; a first
head in ALARM brings ALERT, the second or both at once a confirmation; HELD pauses the countdown, RELEASED
starts it afresh; the valve DISCHARGED brings DISCHARGED and quarantines the zone, every record there that is
not BLOCKED becoming BLOCKED FIRE where it is; a RELEASING zone whose valve is CLOSED has RELEASE queued. -/
def Obligations.FireTimersExpire : Prop :=
  ∀ (s : State) (z : Fin 8), s.up = true →
    let f := s.zoneFire z
    (f.state = .alert → f.alertTimer.isSome = true →
      ∃ t, Takes (.alertTimerExpiry z) s t ∧
        (t.zoneFire z).state = afterCountdownTest s z f.hold ∧ (t.zoneFire z).alertTimer = none ∧
        (t.zoneFire z).acknowledged = false ∧
        (t.zoneFire z).ackTimer = some (s.param .ackTime * 1000) ∧ Confirmed s t z ∧
        (∀ y, y ≠ z → t.zoneFire y = s.zoneFire y) ∧ KeepsLayout s t) ∧
    (f.state = .countdown → f.countdownTimer.isSome = true →
      ∃ t, Takes (.countdownTimerExpiry z) s t ∧
        t.zoneFire z =
          { f with state := (if f.drill then .discharged else .releasing), countdownTimer := none } ∧
        (f.drill = false → (findNode s.nodes (.fire z)).isSome = true →
          hasEntry t (.fire z) .release = true) ∧
        (∀ y, y ≠ z → t.zoneFire y = s.zoneFire y) ∧ KeepsLayout s t) ∧
    (f.ackTimer.isSome = true →
      ∃ t, Takes (.ackTimerExpiry z) s t ∧
        t.zoneFire z = { f with ackTimer := none, ackExpired := true } ∧
        (AlarmOk s → t.fire.alarmOut = alarmWanted t) ∧
        (∀ y, y ≠ z → t.zoneFire y = s.zoneFire y) ∧
        t = { startEvent s with fire := t.fire, notices := t.notices }) ∧
    (∀ x i n report r a b h v, ValidAnswer s x i n report r → n.binding.target = .fire z →
      readState .fire r.state = some (.fire a b h v) →
      let passed := (a = .alarm ∧ f.headA ≠ .alarm) ∨ (b = .alarm ∧ f.headB ≠ .alarm)
      let discharges := v = .discharged ∧ (f.state = .releasing ∨ f.valve ≠ .discharged)
      ∃ t, Takes (.fieldReportReceived report) s t ∧
        (t.zoneFire z).headA = a ∧ (t.zoneFire z).headB = b ∧ (t.zoneFire z).hold = h ∧
        (t.zoneFire z).valve = v ∧ (∀ y, y ≠ z → t.zoneFire y = s.zoneFire y) ∧
        (f.drill = false → f.state = .normal → passed → ¬(a = .alarm ∧ b = .alarm) → ¬discharges →
          (t.zoneFire z).state = .alert ∧
            (t.zoneFire z).alertTimer = some (s.param .alertTime * 1000)) ∧
        (f.drill = false → passed → ¬discharges → h = f.hold →
          (f.state = .alert ∨ (f.state = .normal ∧ a = .alarm ∧ b = .alarm)) →
          (t.zoneFire z).state = afterCountdownTest s z h ∧ Confirmed s t z) ∧
        (f.state = .alert → a ≠ .alarm → b ≠ .alarm → ¬discharges → (t.zoneFire z).state = .normal) ∧
        (f.state = .countdown → f.hold = .released → h = .held → ¬discharges →
          (t.zoneFire z).state = .paused ∧ (t.zoneFire z).countdownTimer = none) ∧
        (f.state = .paused → f.hold = .held → h = .released → ¬discharges →
          (t.zoneFire z).state = .countdown ∧
            (t.zoneFire z).countdownTimer = some (s.param .countdownTime * 1000)) ∧
        (f.state.inFire = true → f.state ≠ .discharged → discharges → TablesOk s →
          (t.zoneFire z).state = .discharged ∧ (t.zoneFire z).drill = false ∧
            ∀ j q, s.record? j = some q → zoneOfLocation s q.location = some z →
              RecordIs t j (if q.state.isBlocked then q.state else .blocked .fire) q.location) ∧
        (f.state = .releasing → v = .closed → x.code ≠ 0x47 → hasEntry t (.fire z) .release = true))

/-! ## Rack, hatch and climate -/

/-- R108, R145: GET_RACK answers OK with the twelve position records in ascending order, GET_HATCH with the
hatch, in the layouts of Table 1-3, each as the last event left it. -/
def Obligations.GetRackAndGetHatch : Prop :=
  ∀ (s : State) (tag : Byte), HostReady s → tag ≠ 0 →
    let h := s.hatch
    Answers (.getRack tag 0) tag 0x40 .ok
      (rackIds.flatMap fun p =>
        [flagByte (s.position p).occupant.isSome, flagByte (s.position p).paused] ++
        (match (s.position p).occupant with
         | some (.record i) => field16 i ++ fieldLabel 0
         | some (.foreign l) => field16 0xFFFF ++ fieldLabel l
         | none => field16 0xFFFF ++ fieldLabel 0) ++
        field16 (((s.position p).dwell.map secondsUp).getD 0xFFFF))
      s (taken s) ∧
    Answers (.getHatch tag 0) tag 0x41 .ok
      ([byteOf h.owner.code, byteOf h.waiting.length, byteOf (h.waiting.getD 0 0xFF),
        byteOf (h.waiting.getD 1 0xFF), byteOf (h.yielded.getD 0xFF), byteOf h.air.code,
        byteOf (roomDoor s).code, byteOf (storeDoor s).code, byteOf (exitDoor s).code,
        byteOf h.roomLock.code, byteOf h.storeLock.code, byteOf h.exitLock.code,
        flagByte h.purge.isSome, flagByte h.retry.isSome] ++
        field16 ((h.wetDwell.map secondsUp).getD 0xFFFF) ++ [byteOf h.contents.length] ++
        h.contents.flatMap fieldLabel)
      s (taken s)

/-- R143: HATCH_DRY_OVERRIDE: its checks in order; carried out, a purge run ends with PURGE STOP and a retry
delay is discarded, the air state is DRY, the wet dwell is stopped, every record that lay at HATCH is EXPOSED
and no other record's flag changes, and HATCH_AIR OVERRIDE is posted. The settings, nodes, fire records, climate,
roster, settings image and lines stand. -/
def Obligations.HatchDryOverrideDries : Prop :=
  ∀ (s : State) (tag : Byte), HostReady s → tag ≠ 0 →
    (lockout s = true → Refuses (.hatchDryOverride tag 0) tag 0x42 .fireUnacknowledged s) ∧
    (lockout s = false → (s.hatch.owner = .fire ∨ s.hatch.air = .dry) →
      Refuses (.hatchDryOverride tag 0) tag 0x42 .wrongState s) ∧
    (lockout s = false → s.hatch.owner ≠ .fire → s.hatch.air = .wet →
      ∃ t, Answers (.hatchDryOverride tag 0) tag 0x42 .ok [] s t ∧ t.hatch.air = .dry ∧
        t.hatch.purge = none ∧ (s.hatch.purge.isSome = true → t.hatch.purgeCmd = .stop) ∧
        t.hatch.retry = none ∧ t.hatch.wetDwell = none ∧
        (∀ i r, TablesOk s → s.record? i = some r → ∃ q, t.record? i = some q ∧
          q.exposed = (r.exposed || decide (r.location = .hatch))) ∧
        t.notices.pending.get? 51 = some (.hatchAir .override .dry (s.hatch.report.map (·.rh))) ∧
        KeepsLayout s t ∧ t.fire = s.fire ∧ t.climate = s.climate)

/-- R141, R142, R144: the hatch timers. A purge whose completion test is met, or whose hatch zone cannot be
read at its longest time, leaves the air DRY; one that fails leaves it WET; a minimum timer that meets no
test runs out alone; a retry delay ends with the grant evaluation; a wet dwell starts again and marks every
record at HATCH where the tables are in canonical form. The settings, nodes, fire records, climate, roster,
settings image and lines stand. R132, R135: a HATCH report is held, and a room door reported OPEN leaves the
air WET; without a purge run a CLOSED one leaves the air as it was. R136: an ENTERED label joins the contents
list, a LEFT label leaves it; R137: a snapshot, of one segment or the last of an open
assembly (R35, R36; `WholeSnapshot`), replaces the list. R61, R63: while no context owns or awaits the
hatch (`NoContext`: no owner, PURGE or FIRE), a record that enters from no known place is BLOCKED
CUSTODY_CONFLICT at HATCH, one that leaves takes its state by the table of R61 at IN_HAND, and one at HATCH that
a snapshot does not show is BLOCKED MISSING at UNKNOWN; R155: so it is for a context in LOADING whose lists are
empty. The last row of the departure, a state that the table of R61 does not list, which becomes CUSTODY_CONFLICT
at IN_HAND, is the model's reading (section 4.2; DEDUCED, log 19). R154 to R157, R160, R162 to R164: an owning
context hears the event or the snapshot: a record is staged, taken, put back, INBOUND, or leaves the manifest,
and any other label is rejected (one that was rejected before and is staged or INBOUND now stays rejected: the
model's, log 62), as `HeardEntered`, `HeardLeft` and `HeardSnapshot` say (where the report changes
no state field of the hatch; for a snapshot where the lists have room for what it shows and no two records carry
one label, R51, R152). -/
def Obligations.HatchTimersExpire : Prop :=
  ∀ (s : State), s.up = true →
    (∀ run m, s.hatch.purge = some run → run.minTimer = some m →
      (purgeTest s = false →
        Takes .purgeMinimumTimerExpiry s
          ((startEvent s).withHatch { s.hatch with purge := some { run with minTimer := none } })) ∧
      (purgeTest s = true →
        ∃ t, Takes .purgeMinimumTimerExpiry s t ∧ t.hatch.air = .dry ∧ KeepsLayout s t ∧
          t.fire = s.fire ∧ t.climate = s.climate)) ∧
    (∀ run, s.hatch.purge = some run →
      ∃ t, Takes .purgeMaximumTimerExpiry s t ∧ KeepsLayout s t ∧ t.fire = s.fire ∧
        t.climate = s.climate ∧
        t.hatch.air =
          (if purgeTest s = true ∨ (s.airAt (airZone s.hatchZone)).reading = none then .dry
           else s.hatch.air)) ∧
    (s.hatch.retry.isSome = true →
      Takes .retryDelayExpiry s (grantEval ((startEvent s).withHatch { s.hatch with retry := none }))) ∧
    (s.hatch.wetDwell.isSome = true → TablesOk s →
      ∃ t, Takes .wetDwellExpiry s t ∧
        t.hatch = { s.hatch with wetDwell := some (s.param .wetDwell * 60000) } ∧
        (∀ i r, s.record? i = some r → t.record? i = some { r with
          exposed := r.exposed || decide (r.location = .hatch) }) ∧
        KeepsLayout s t ∧
        t.notices.pending.get? 51 =
          some (.hatchAir .wetDwell s.hatch.air (s.hatch.report.map (·.rh))) ∧
        t = { startEvent s with hatch := t.hatch, custody := t.custody, store := t.store,
                                device := t.device, notices := t.notices }) ∧
    (∀ x i n report r, ValidAnswer s x i n report r → n.binding.target = .hatch →
      (∀ q, readState .hatch r.state = some (.hatch q) →
        ∃ t, Takes (.fieldReportReceived report) s t ∧ t.hatch.report = some q ∧
          (q.room = .opened → t.hatch.air = .wet) ∧
          (q.room = .closed → s.hatch.purge = none → t.hatch.air = s.hatch.air)) ∧
      (∀ l, NewBatch n r [.entered l] →
        ∃ t, Takes (.fieldReportReceived report) s t ∧
          t.hatch.contents =
            (if l ∈ s.hatch.contents ∨ 24 ≤ s.hatch.contents.length then s.hatch.contents
             else s.hatch.contents ++ [l]) ∧
          (∀ j q, NoContext s → findLabel s l = some j →
            s.record? j = some q → (q.location = .inHand ∨ q.location = .unknown) →
            RecordIs t j (if q.state.isBlocked then q.state else .blocked .custodyConflict) .hatch) ∧
          (∀ c y, OwnerHears s c y r → HeardEntered s t c y l)) ∧
      (∀ l, NewBatch n r [.left l] →
        ∃ t, Takes (.fieldReportReceived report) s t ∧
          t.hatch.contents = s.hatch.contents.filter (· != l) ∧
          (∀ j q, NoContext s → findLabel s l = some j →
            s.record? j = some q → q.location = .hatch →
            RecordIs t j
              (match q.state with
               | .picked => .picked
               | .received => .received
               | .loose => .loose
               | .blocked b => .blocked b
               | _ => .blocked .custodyConflict) .inHand) ∧
          (∀ c y, OwnerHears s c y r → HeardLeft s t c y l)) ∧
      (∀ es, WholeSnapshot n r es → (es.map (·.label)).Nodup → es.length ≤ 24 →
        ∃ t, Takes (.fieldReportReceived report) s t ∧ t.hatch.contents = es.map (·.label) ∧
          (∀ j q, TablesOk s → s.record? j = some q → q.location = .hatch → q.label ∉ es.map (·.label) →
            (NoContext s ∨
              ∃ c y, s.hatch.owner = .context c ∧ liveContext? s c = some y ∧ y.phase = .loading ∧
                y.manifest = [] ∧ y.rejected = [] ∧ es = [] ∧
                readState .hatch r.state = s.hatch.report.map NodeState.hatch) →
            RecordIs t j (if q.state.isBlocked then q.state else .blocked .missing) .unknown) ∧
          (∀ c y, TablesOk s → OwnerHears s c y r → HeardSnapshot s t y (es.map (·.label)))))

/-- R91, R92: a grace timer brings EXCURSION with the count at 0 and a minute timer; a minute timer counts,
and in EXCURSION brings EXPOSING where the count is at the limit: then every record located in the zone is
EXPOSED, no other record changes, and ZONE_CLIMATE is posted; a frozen timer does neither. R84: a probe
whose age timer expires is erased and its zone's reading worked out again. The other zones' records, the
settings, nodes, fire records, hatch, roster and settings image stand. R83, R85 to R87: a PROBE report is held
with a new age of 60 s and its zone's reading worked out; the lead probe's adds a paired sample where both
probes have a usable reading, a disagreement where they differ by more than the tolerance, and a window that is
full sets PROBES_DISAGREE by its count. R90: an AIR report that shows another mode than the zone's has MODE
queued, where its transaction carried none. -/
def Obligations.ClimateTimersExpire : Prop :=
  ∀ (s : State) (z : Fin 8), s.up = true →
    let c := s.zoneClimate z
    let keeps := fun t : State => KeepsLayout s t ∧ t.fire = s.fire ∧ t.hatch = s.hatch
    (c.excursion = .outGrace → c.grace.isSome = true → (s.airAt (airZone z)).reading.isSome = true →
      ∃ t, Takes (.graceTimerExpiry z) s t ∧
        t.zoneClimate z =
          { c with excursion := .excursion, grace := none, minutes := 0, minuteTimer := some 60000 } ∧
        (∀ y, y ≠ z → t.zoneClimate y = s.zoneClimate y) ∧ keeps t) ∧
    (c.minuteTimer.isSome = true → (s.airAt (airZone z)).reading.isSome = true →
      ∃ t, Takes (.minuteTimerExpiry z) s t ∧
        t.zoneClimate z =
          { c with
            minutes := min 65535 (c.minutes + 1), minuteTimer := some 60000,
            excursion :=
              if c.excursion = .excursion ∧ s.param .exposureLimit ≤ min 65535 (c.minutes + 1) then
                .exposing
              else c.excursion } ∧
        (∀ y, y ≠ z → t.zoneClimate y = s.zoneClimate y) ∧ keeps t ∧
        let entered := c.excursion = .excursion ∧ s.param .exposureLimit ≤ min 65535 (c.minutes + 1)
        (¬entered → t.custody = s.custody ∧ t.notices = s.notices) ∧
        (entered → TablesOk s →
          (∀ i r, s.record? i = some r → t.record? i = some
            { r with exposed := r.exposed || decide (zoneOfLocation s r.location = some z) }) ∧
          t.notices.pending.get? (31 + z.val) = some (zoneClimateNotice t z))) ∧
    ((s.airAt (airZone z)).reading = none →
      Takes (.graceTimerExpiry z) s (startEvent s) ∧ Takes (.minuteTimerExpiry z) s (startEvent s)) ∧
    (∀ (i : Fin 32) p n y, s.climate.probes.get? i.val = some p → p.age.isSome = true →
      s.node? i.val = some n → n.binding.target = .probe y →
      ∃ t, Takes (.probeAgeTimerExpiry i) s t ∧
        t.climate.probes.get? i.val = some { p with age := none } ∧
        (t.airAt y).reading = workedReading t y ∧
        (∀ j, j ≠ i.val → t.climate.probes.get? j = s.climate.probes.get? j) ∧ keeps t) ∧
    (∀ x i n report r y p, ValidAnswer s x i n report r → n.binding.target = .probe y →
      readState .probe r.state = some (.probe p) →
      ∃ t, Takes (.fieldReportReceived report) s t ∧
        t.climate.probes.get? i = some ⟨some p, some 60000⟩ ∧
        (∀ j, j ≠ i → t.climate.probes.get? j = s.climate.probes.get? j) ∧
        (t.airAt y).reading = workedReading t y ∧
        (∀ j w a, probesOf s.nodes y = [i, j] → j ≠ i → (s.airAt y).window = some w →
          p.fault = false → p.inRange = true → usableReading s j = some a →
          let samples := w.samples + 1
          let differ := s.param .agreementTolerance < p.rh - a.1 ∨ s.param .agreementTolerance < a.1 - p.rh
          let disagreements := if differ then w.disagreements + 1 else w.disagreements
          (samples < w.length → (t.airAt y).window = some ⟨samples, disagreements, w.length⟩ ∧
            (t.airAt y).disagree = (s.airAt y).disagree) ∧
          (w.length ≤ samples → (t.airAt y).window = some ⟨0, 0, s.param .agreementWindow⟩ ∧
            (t.airAt y).disagree = decide (s.param .disagreementCount ≤ disagreements)))) ∧
    (∀ x i n report r m, ValidAnswer s x i n report r → n.binding.target = .air z →
      readState .air r.state = some (.air m) → m ≠ (s.zoneClimate z).control.mode → x.code ≠ 0x41 →
      ∃ t, Takes (.fieldReportReceived report) s t ∧ hasEntry t (.air z) .mode = true)

/-- R60, R104, R105: a dwell that completes makes its CONDITIONING record READY in its direction with
EXPOSED cleared, at its position, which keeps it without a dwell; a carry window that runs out makes its
record PICKED at IN_HAND. Every other record, the settings, nodes, fire records, climate, hatch, roster and
settings image stand. R59, R102, R103: a RACK event. A record from IN_HAND put into an empty position takes its
state by the table and stands there, with a dwell where it is CONDITIONING (of some length, or the rack is
paused); one taken from its position takes its state by the table, READY/OUTBOUND with a carry window, and the
position is empty. R56 to R58: a SHELF event. A record from IN_HAND put into a slot that no record has takes
its state by the table, one taken from its slot likewise (of two located there the one in the lowest place,
`findAt`: the model's, log 57); an unknown label is posted. The last row of either
departure, a state that the table of R58 or R59 does not list, which becomes CUSTODY_CONFLICT at IN_HAND, is the
model's reading (section 4.2; DEDUCED, log 19). R62, R107: a snapshot makes every record located in the range
or in the rack whose label it does not show BLOCKED MISSING at UNKNOWN, its reason kept, and a position that it
shows empty is empty (of two entries for one position the first occupied one counts, and a position without an
entry is shown empty: the model's, log 54; a record that it does not show is MISSING also where it shows a foreign
label at its position: DEDUCED, log 21). The snapshot is one segment or the last of an open assembly (R35, R36;
`WholeSnapshot`). Where it shows a foreign label over a record, and no other record
lies in the rack, the position holds the label and the departure of the record is its last event: INTERRUPTED
for a CONDITIONING record, else REMOVED (log 20). -/
def Obligations.RackTimersExpire : Prop :=
  ∀ (s : State), s.up = true →
    let keeps := fun t : State =>
      KeepsLayout s t ∧ t.fire = s.fire ∧ t.climate = s.climate ∧ t.hatch = s.hatch
    (∀ (p : Fin 12) i d left r, s.position p = ⟨some (.record i), some left, false⟩ →
      s.record? i = some r → r.state = .conditioning d → r.location = .rack p →
      ∃ t, Takes (.dwellCompletion p) s t ∧
        t.record? i = some { r with state := .ready d, exposed := false, custodian := none, carry := none } ∧
        t.position p = ⟨some (.record i), none, false⟩ ∧
        (∀ j, j ≠ i → t.record? j = s.record? j) ∧ keeps t) ∧
    (∀ (i : Fin 2048) r w, s.record? i.val = some r → r.state = .ready .outbound →
      r.location = .inHand → r.carry = some w →
      ∃ t, Takes (.carryWindowExpiry i) s t ∧
        t.record? i.val = some { r with state := .picked, custodian := none, carry := none } ∧
        (∀ p, w.origin = some p → ∃ occupied paused dwell,
          t.notices.pending.get? (39 + p.val) =
            some (.rackPosition p .carryExpired occupied paused (some i.val) none dwell)) ∧
        (∀ j, j ≠ i.val → t.record? j = s.record? j) ∧ keeps t) ∧
    (∀ x i n report r, ValidAnswer s x i n report r → n.binding.target = .rack →
      (∀ p : Fin 12, ∀ l j q, NewBatch n r [.inserted p.val l] → (s.position p).occupant = none →
        findLabel s l = some j → s.record? j = some q → q.location = .inHand →
        (dwellMinutes s (s.airAt roomPoint).reading (homeReading s q.home) q.exposed ≠ 0 ∨
          s.rack.paused = true ∨ (q.state ≠ .picked ∧ q.state ≠ .received)) →
        ∃ t y, Takes (.fieldReportReceived report) s t ∧ t.record? j = some y ∧ y.location = .rack p ∧
          y.state =
            (match q.state with
             | .picked => .conditioning .outbound
             | .received => .conditioning .returning
             | .ready .outbound => .ready .outbound
             | .loose => .loose
             | .blocked b => .blocked b
             | _ => .blocked .custodyConflict) ∧
          t.position p =
            (if q.state = .picked ∨ q.state = .received then
              ⟨some (.record j),
                some (dwellMinutes s (s.airAt roomPoint).reading (homeReading s q.home) y.exposed * 60000),
                s.rack.paused⟩
             else ⟨some (.record j), none, false⟩)) ∧
      (∀ p : Fin 12, ∀ j q, NewBatch n r [.removed p.val] → (s.position p).occupant = some (.record j) →
        s.record? j = some q → q.location = .rack p →
        ∃ t y, Takes (.fieldReportReceived report) s t ∧ t.record? j = some y ∧ y.location = .inHand ∧
          t.position p = ⟨none, none, false⟩ ∧
          y.state =
            (match q.state with
             | .conditioning .outbound => .picked
             | .conditioning .returning => .received
             | .ready .outbound => .ready .outbound
             | .ready .returning => .loose
             | .loose => .loose
             | .received => .received
             | .blocked b => .blocked b
             | _ => .blocked .custodyConflict) ∧
          (q.state = .ready .outbound → y.carry = some ⟨s.param .carryWindow * 60000, some p⟩)) ∧
      (∀ es, WholeSnapshot n r es → TablesOk s →
        let hidden := fun l : Label => ∀ e ∈ es, e.occupied = true → e.label ≠ l
        ∃ t, Takes (.fieldReportReceived report) s t ∧
          (∀ p : Fin 12, shownAt es p.val = none → (∀ j, (s.position p).occupant = some (.record j) →
            (s.record? j).map (·.location) = some (.rack p)) → (t.position p).occupant = none) ∧
          (∀ j q p, s.record? j = some q → q.location = .rack p → hidden q.label →
            RecordIs t j (if q.state.isBlocked then q.state else .blocked .missing) .unknown) ∧
          (∀ (p : Fin 12) l j q, s.record? j = some q → q.location = .rack p →
            (s.position p).occupant = some (.record j) →
            (∀ k y, s.record? k = some y → k ≠ j → ∀ o, y.location ≠ .rack o) →
            (∀ e ∈ es, e.occupied = true → e.place = p.val) → shownAt es p.val = some l →
            findLabel s l = none → hidden q.label →
            t.position p = ⟨some (.foreign l), none, false⟩ ∧
              t.notices.pending.get? (39 + p.val) = some (.rackPosition p
                (match q.state with
                 | .conditioning _ => .interrupted
                 | _ => .removed) true false (some j) none none)))) ∧
    (∀ x i n report r base limit, ValidAnswer s x i n report r → n.binding.target = .shelf base limit →
      (∀ slot l, NewBatch n r [.inserted slot l] → base ≤ slot → slot ≤ limit →
        (findLabel s l = none →
          ∃ t, Takes (.fieldReportReceived report) s t ∧
            t.notices.pending.get? 29 = some (.foreignLabel l (.slot slot)) ∧ t.custody = s.custody) ∧
        (∀ j q, TablesOk s → findLabel s l = some j → s.record? j = some q → q.location = .inHand →
          (∀ k y, s.record? k = some y → y.location ≠ .slot slot) →
          ∃ t, Takes (.fieldReportReceived report) s t ∧
            RecordIs t j
              (match q.state with
               | .loose => if slot = q.home then .shelved else .blocked .misplaced
               | .picked => if slot = q.home then .reserved else .blocked .misplaced
               | .received => .blocked .skippedConditioning
               | .blocked b => .blocked b
               | _ => .blocked .custodyConflict) (.slot slot))) ∧
      (∀ slot j q, NewBatch n r [.removed slot] → base ≤ slot → slot ≤ limit →
        findAt s (.slot slot) = some j → s.record? j = some q → q.location = .slot slot →
        ∃ t, Takes (.fieldReportReceived report) s t ∧
          RecordIs t j
            (match q.state with
             | .shelved => .blocked .unauthorisedMove
             | .reserved => .picked
             | .loose => .loose
             | .blocked b => .blocked b
             | _ => .blocked .custodyConflict) .inHand) ∧
      (∀ es, WholeSnapshot n r es → TablesOk s →
        ∃ t, Takes (.fieldReportReceived report) s t ∧
          ∀ j q slot, s.record? j = some q → q.location = .slot slot → base ≤ slot → slot ≤ limit →
            (∀ e ∈ es, e.occupied = true → e.label ≠ q.label) →
            RecordIs t j (if q.state.isBlocked then q.state else .blocked .missing) .unknown))

/-! ## Cartridge records -/

/-- R64: ENROL_CARTRIDGE refuses by its first failing check, and else takes the lowest free record place
with the label, the home slot, SHELVED there, EXPOSED only where its zone is EXPOSING. Every other record,
the settings, nodes, links' queue, fire records, climate, orders, handovers and rack stand; the rack also where a
position holds the label as a foreign one: the model's choice (DESIGN CHOICE, log 55). R52, R171, R172:
the place's image holds the record where every write of the event was verified, the other images stand, and a
first write that is not verified faults the store. -/
def Obligations.EnrolCartridgeMakesRecord : Prop :=
  ∀ (s : State) (tag : Byte) (label : Label) (home : Half), HostReady s → tag ≠ 0 →
    let i := s.custody.records.lowestFree
    (∀ st, firstFailure (enrolChecks s label home.toNat) = some st →
      Refuses (.enrolCartridge tag label home) tag 0x50 st s) ∧
    (∀ z, firstFailure (enrolChecks s label home.toNat) = none → zoneOfSlot s home.toNat = some z →
      ∃ t, Answers (.enrolCartridge tag label home) tag 0x50 .ok (field16 i) s t ∧
        t.record? i = some
          { label := label, home := home.toNat, state := .shelved, location := .slot home.toNat,
            custodian := none, exposed := decide ((s.zoneClimate z).excursion = .exposing),
            orderSlot := none, carry := none } ∧
        (∀ j, j ≠ i → t.record? j = s.record? j) ∧
        (t.device.storeFault = false →
          (t.store.records.get? i).bind Image.loaded = some ((t.record? i).map Record.retained)) ∧
        (∀ j, j ≠ i → t.store.records.get? j = s.store.records.get? j) ∧
        t.store.roster = s.store.roster ∧ t.store.settings = s.store.settings ∧
        (s.store.nextFails = true → t.device.storeFault = true ∧
          t.notices.pending.get? 30 = some .storeFault) ∧ t.hatch.contents = s.hatch.contents ∧
        t = { taken s with custody := t.custody, store := t.store, device := t.device,
                           notices := t.notices, hatch := t.hatch })

/-- R65: RETIRE_CARTRIDGE: its checks in order; carried out, the place is free. Every other record, the
orders, the links' queue, the settings, nodes, fire records, climate, handovers and rack stand. R52, R171: the
place's image is marked free where the write was verified; the other images stand. -/
def Obligations.RetireCartridgeFreesPlace : Prop :=
  ∀ (s : State) (tag : Byte) (label : Label), HostReady s → tag ≠ 0 →
    (labelOk label = false → Refuses (.retireCartridge tag label) tag 0x51 .badOperand s) ∧
    (labelOk label = true → findLabel s label = none →
      Refuses (.retireCartridge tag label) tag 0x51 .notFound s) ∧
    (∀ i r, labelOk label = true → findLabel s label = some i → s.record? i = some r →
      (r.state ≠ .shelved → r.state.isBlocked = false →
        Refuses (.retireCartridge tag label) tag 0x51 .wrongState s) ∧
      ((r.state = .shelved ∨ r.state.isBlocked = true) →
        ((∃ p, r.location = .rack p) ∨ (∃ k o, (k, o) ∈ s.orders ∧ ∃ e ∈ o.entries, e.record = i) →
          Refuses (.retireCartridge tag label) tag 0x51 .inUse s) ∧
        ((∀ p, r.location ≠ .rack p) → (∀ k o, (k, o) ∈ s.orders → ∀ e ∈ o.entries, e.record ≠ i) →
          ∃ t, Answers (.retireCartridge tag label) tag 0x51 .ok [] s t ∧ t.record? i = none ∧
            (∀ j, j ≠ i → t.record? j = s.record? j) ∧
            (s.store.nextFails = false → (t.store.records.get? i).bind Image.loaded = some none) ∧
            (∀ j, j ≠ i → t.store.records.get? j = s.store.records.get? j) ∧
            t.store.roster = s.store.roster ∧ t.store.settings = s.store.settings ∧
            (r.state.isBlocked = true → t.notices.pending.get? 28 = some (blockedNotice t)) ∧
            t = { taken s with custody := t.custody, store := t.store, device := t.device,
                               notices := t.notices, hatch := t.hatch })))

/-- R66: GET_CARTRIDGE refuses a label that is not well formed with BAD_OPERAND and one held by no record with
NOT_FOUND, and else answers OK with the record's fields in the layout of Table 1-3. -/
def Obligations.GetCartridgeReadsRecord : Prop :=
  ∀ (s : State) (tag : Byte) (label : Label), HostReady s → tag ≠ 0 →
    (labelOk label = false → Refuses (.getCartridge tag label) tag 0x52 .badOperand s) ∧
    (labelOk label = true → findLabel s label = none →
      Refuses (.getCartridge tag label) tag 0x52 .notFound s) ∧
    (∀ i r, labelOk label = true → findLabel s label = some i → s.record? i = some r →
      Answers (.getCartridge tag label) tag 0x52 .ok
        (field16 i ++ fieldLabel r.label ++ field16 r.home ++
          [byteOf r.state.code, byteOf r.state.directionCode, byteOf r.location.kindCode] ++
          field16 r.location.number ++ field16 (r.custodian.getD 0) ++
          [byteOf (reasonCode r.state.reason), flagByte r.exposed, byteOf (r.orderSlot.getD 0xFF)])
        s (taken s))

/-- R67: LIST_CARTRIDGES lists the occupied places from the start index whose state the filter names, in
ascending order where the tables are in canonical form, at most sixteen, and gives the next index: one above
the last listed where sixteen are listed and that is below 2047, else 0xFFFF. -/
def Obligations.ListCartridgesWalksTable : Prop :=
  ∀ (s : State) (tag : Byte) (start : Half) (filter : Byte), HostReady s → tag ≠ 0 →
    (2047 < start.toNat ∨ (10 < filter.toNat ∧ filter.toNat < 255) →
      Refuses (.listCartridges tag start filter) tag 0x53 .badOperand s) ∧
    (start.toNat ≤ 2047 → (filter.toNat ≤ 10 ∨ filter.toNat = 255) →
      let listed := (s.custody.records.filter fun p =>
        decide (start.toNat ≤ p.1) && (filter.toNat == 255 || p.2.state.code == filter.toNat)).take 16
      let next := match listed.getLast? with
        | some p => if listed.length = 16 ∧ p.1 < 2047 then p.1 + 1 else 0xFFFF
        | none => 0xFFFF
      (TablesOk s → (listed.map (·.1)).Pairwise (· < ·)) ∧
      Answers (.listCartridges tag start filter) tag 0x53 .ok
        (field16 next ++ [byteOf listed.length] ++
          listed.flatMap fun p => field16 p.1 ++ fieldLabel p.2.label ++ [byteOf p.2.state.code])
        s (taken s))

/-- R68: UNBLOCK_CARTRIDGE: its checks in order; carried out, the record leaves BLOCKED by its location,
EXPOSED kept, and BLOCKED_CHANGED is posted. Every other record, the settings, nodes, fire records, climate,
hatch, roster and settings image stand. R52, R171: the record's image holds it where every write of the event
was verified; the other images stand. -/
def Obligations.UnblockCartridgeReleases : Prop :=
  ∀ (s : State) (tag : Byte) (label : Label), HostReady s → tag ≠ 0 →
    let c := Instr.unblockCartridge tag label
    (lockout s = true → Refuses c tag 0x54 .fireUnacknowledged s) ∧
    (lockout s = false → labelOk label = false → Refuses c tag 0x54 .badOperand s) ∧
    (lockout s = false → labelOk label = true → s.device.storeFault = true →
      Refuses c tag 0x54 .storeFault s) ∧
    (lockout s = false → labelOk label = true → s.device.storeFault = false → findLabel s label = none →
      Refuses c tag 0x54 .notFound s) ∧
    (∀ i r, lockout s = false → labelOk label = true → s.device.storeFault = false →
      findLabel s label = some i → s.record? i = some r →
      (r.state.isBlocked = false → Refuses c tag 0x54 .wrongState s) ∧
      (r.state.isBlocked = true →
        ∃ t, Answers c tag 0x54 .ok [] s t ∧
          t.record? i = some { r with
            state := (if r.location = .slot r.home then .shelved else .loose),
            location := (match r.location with
              | .courier _ => .inHand
              | l => l),
            custodian := none, carry := none } ∧
          (∀ j, j ≠ i → t.record? j = s.record? j) ∧
          (t.device.storeFault = false →
            (t.store.records.get? i).bind Image.loaded = some ((t.record? i).map Record.retained)) ∧
          (∀ j, j ≠ i → t.store.records.get? j = s.store.records.get? j) ∧
          t.store.roster = s.store.roster ∧
          t.custody.newestBlocked =
            (if s.custody.newestBlocked = some i then none else s.custody.newestBlocked) ∧
          t.notices.pending.get? 28 = some (blockedNotice t) ∧ KeepsLayout s t ∧ t.fire = s.fire ∧
          t.climate = s.climate ∧ t.hatch = s.hatch))

/-! ## Orders -/

/-- R70, R71: a CHECKOUT refuses by its first failing check, with the position of the first offending entry
or 0xFF. One whose checks pass takes the lowest free order slot for its order, which is OPEN, and reserves
every record named that lies at its home slot (a SHELVED record does, R50); the reply carries the slot. Every
record not named, every other order, the settings, nodes, fire records, climate, hatch, roster and settings
image stand. R52, R171: the image of a reserved record holds it where every write of the event was verified. -/
def Obligations.CheckoutReserves : Prop :=
  ∀ (s : State) (tag orderTag : Byte) (courier deadline : Half) (labels : List Label), HostReady s →
    tag ≠ 0 → labels.length ≤ 30 →
    let c := Instr.checkout tag orderTag courier deadline (byteOf labels.length) labels
    let first := firstFailure
      (checkoutChecks s orderTag.toNat courier.toNat deadline.toNat labels.length)
    let k := s.orders.lowestFree
    (∀ st, first = some st → Answers c tag 0x60 st [0xFF] s (taken s)) ∧
    (∀ st n, first = none → listFailure s labels = some (st, n) →
      Answers c tag 0x60 st [byteOf n] s (taken s)) ∧
    (first = none → listFailure s labels = none →
      ∃ t, Answers c tag 0x60 .ok [byteOf k] s t ∧
        t.order? k = some
          { tag := orderTag.toNat, courier := courier.toNat,
            deadline := if deadline.toNat = 0 then none else some (deadline.toNat * 60000),
            entries := (labels.filterMap fun l => findLabel s l).map fun i => ⟨i, false⟩,
            state := .opened } ∧
        (∀ j, j ≠ k → t.order? j = s.order? j) ∧
        (∀ l ∈ labels, ∀ i r, findLabel s l = some i → s.record? i = some r →
          t.record? i = some
            (if r.location = .slot r.home then
              { r with state := .reserved, orderSlot := some k, custodian := none, carry := none }
             else r) ∧
          (r.location = .slot r.home → t.device.storeFault = false →
            (t.store.records.get? i).bind Image.loaded = some ((t.record? i).map Record.retained))) ∧
        (∀ i, (∀ l ∈ labels, findLabel s l ≠ some i) → t.record? i = s.record? i) ∧ KeepsLayout s t ∧
        t.fire = s.fire ∧ t.climate = s.climate ∧ t.hatch = s.hatch)

/-- R77: CANCEL_ORDER finishes an OPEN or READY order CANCELLED; R75: its deadline, when it expires, EXPIRED,
on every running part; either discards the deadline. R80: the record of each unhanded entry is released by its
state and place, and drops its order slot; every other record stands. The other orders keep their slots, and
the settings, nodes, fire records, climate, hatch, roster and settings image stand. -/
def Obligations.CancelAndDeadlineFinishOrder : Prop :=
  ∀ (s : State),
    let finishes := fun (k : Nat) (o : Order) (outcome : OOutcome) (t : State) =>
      t.order? k = some { o with state := .finished outcome, deadline := none } ∧
      (∀ j, j ≠ k → t.order? j = s.order? j) ∧
      (∀ i r, i ∈ o.unhanded → s.record? i = some r → ∃ y, t.record? i = some y ∧
        y.orderSlot = none ∧ y.location = r.location ∧
        y.state =
          (match r.state, r.location with
           | .reserved, .slot n => if n = r.home then .shelved else .reserved
           | .picked, .inHand | .picked, .hatch => .loose
           | .conditioning .outbound, .rack _ | .ready .outbound, .rack _ | .ready .outbound, .inHand => .loose
           | .staged, .hatch => .loose
           | .staged, .courier _ => .blocked .handoverUnresolved
           | st, _ => st)) ∧
      (∀ i, i ∉ o.unhanded → t.record? i = s.record? i) ∧
      KeepsLayout s t ∧ t.fire = s.fire ∧ t.climate = s.climate ∧ t.hatch = s.hatch
    (∀ tag orderTag : Byte, HostReady s → tag ≠ 0 →
      (orderTag = 0 → Refuses (.cancelOrder tag orderTag) tag 0x61 .badOperand s) ∧
      (orderTag ≠ 0 → findOrder s orderTag.toNat = none →
        Refuses (.cancelOrder tag orderTag) tag 0x61 .notFound s) ∧
      (∀ k o, orderTag ≠ 0 → findOrder s orderTag.toNat = some k → s.order? k = some o →
        (o.state.isWaiting = false → Refuses (.cancelOrder tag orderTag) tag 0x61 .wrongState s) ∧
        (o.state.isWaiting = true →
          ∃ t, Answers (.cancelOrder tag orderTag) tag 0x61 .ok [] s t ∧ finishes k o .cancelled t))) ∧
    (∀ (k : Fin 16) o, s.up = true → s.order? k.val = some o → o.state.isWaiting = true →
      o.deadline.isSome = true →
      ∃ t, Takes (.deadlineExpiry k) s t ∧ finishes k.val o .expired t)

/-- R82: GET_ORDER refuses tag 0 with BAD_OPERAND and a tag that no order holds with NOT_FOUND, and else
answers OK with the order's fields in the layout of Table 1-3, its deadline in minutes rounded up. -/
def Obligations.GetOrderReadsOrder : Prop :=
  ∀ (s : State) (tag orderTag : Byte), HostReady s → tag ≠ 0 →
    (orderTag = 0 → Refuses (.getOrder tag orderTag) tag 0x62 .badOperand s) ∧
    (orderTag ≠ 0 → findOrder s orderTag.toNat = none →
      Refuses (.getOrder tag orderTag) tag 0x62 .notFound s) ∧
    (∀ k o, orderTag ≠ 0 → findOrder s orderTag.toNat = some k → s.order? k = some o →
      Answers (.getOrder tag orderTag) tag 0x62 .ok
        ([byteOf k, byteOf o.tag] ++ field16 o.courier ++
          field16 ((o.deadline.map minutesUp).getD 0xFFFF) ++
          [byteOf o.state.code, byteOf o.state.outcomeCode, byteOf o.handedCount,
           byteOf o.entries.length] ++
          o.entries.flatMap fun e => field16 e.record ++ [flagByte e.handed])
        s (taken s))

/-! ## Couriers and handovers -/

/-- R148: ENROL_COURIER refuses by its first failing check, and else the entry that holds the ID, or the
lowest free one, takes the code, ACTIVE, with no failed attempt. Every other entry and block stands. R147,
R171: the entry's image holds it where the write was verified; the other images stand. -/
def Obligations.EnrolCourierTakesEntry : Prop :=
  ∀ (s : State) (tag : Byte) (courier : Half) (code : BitVec 24), HostReady s → tag ≠ 0 →
    let i := (findCourier s courier.toNat).getD s.handover.roster.lowestFree
    let c := Instr.enrolCourier tag courier code
    let idOk := 1 ≤ courier.toNat ∧ courier.toNat ≤ 65000
    (¬idOk ∨ 999999 < code.toNat → Refuses c tag 0x70 .badOperand s) ∧
    (idOk → code.toNat ≤ 999999 → s.device.storeFault = true → Refuses c tag 0x70 .storeFault s) ∧
    (idOk → code.toNat ≤ 999999 → s.device.storeFault = false → 64 ≤ i →
      Refuses c tag 0x70 .tableFull s) ∧
    (idOk → code.toNat ≤ 999999 → s.device.storeFault = false → i < 64 →
      ∃ t, Answers c tag 0x70 .ok [] s t ∧
        t.courierAt? i = some ⟨courier.toNat, code.toNat, .active, 0⟩ ∧
        (∀ j, j ≠ i → t.courierAt? j = s.courierAt? j) ∧
        (s.store.nextFails = false →
          (t.store.roster.get? i).bind Image.loaded = some (t.courierAt? i)) ∧
        (∀ j, j ≠ i → t.store.roster.get? j = s.store.roster.get? j) ∧
        t.store.records = s.store.records ∧ t.store.settings = s.store.settings ∧
        t.handover.contexts = s.handover.contexts ∧
        t = { taken s with handover := t.handover, store := t.store, device := t.device,
                           notices := t.notices })

/-- R149: REVOKE_COURIER, REINSTATE_COURIER and GET_COURIER: an ID out of range or held by no entry is
refused; a courier with an unfinished order or a live context is not revoked; an ACTIVE one is not
reinstated; else the entry's state changes alone, or is reported. R147, R171: a changed entry's image holds it
where the write was verified; the other images stand. R151: a TOKEN event, with service available and an entry
that is not LOCKED: a wrong code is counted, the third locks the entry, and WRONG_CODE or LOCKED is prompted;
the right code of an ACTIVE courier clears the count and, where he has no live context, a slot is free and there
is something to hand over, opens a context for him in the lowest free slot; so does a REVOKED courier's who
returns, while one who fetches is prompted REVOKED. A LOCKED entry is prompted LOCKED without effect on it. An
entry that stands at 3 failures without being LOCKED (a courier revoked while locked) is LOCKED by a wrong code,
its count kept at 3: the model's choice (log 48). R150, R154, R156, R157, R163, R165: CONFIRM and CANCEL are
taken by the terminal context, in its slot 0 or 1 (R152), as its phase states (`HeardConfirm`, `HeardCancel`). -/
def Obligations.CourierRequestsByEntry : Prop :=
  (∀ (s : State) (tag : Byte) (courier : Half), HostReady s → tag ≠ 0 →
    let others := fun (i : Nat) (t : State) =>
      (∀ j, j ≠ i → t.courierAt? j = s.courierAt? j) ∧ t.handover.contexts = s.handover.contexts ∧
      (t.courierAt? i ≠ s.courierAt? i → s.store.nextFails = false →
        (t.store.roster.get? i).bind Image.loaded = some (t.courierAt? i)) ∧
      (∀ j, j ≠ i → t.store.roster.get? j = s.store.roster.get? j) ∧
      t.store.records = s.store.records ∧ t.store.settings = s.store.settings ∧
      t = { taken s with handover := t.handover, store := t.store, device := t.device,
                         notices := t.notices }
    (courier.toNat = 0 ∨ 65000 < courier.toNat →
      Refuses (.revokeCourier tag courier) tag 0x71 .badOperand s ∧
      Refuses (.reinstateCourier tag courier) tag 0x72 .badOperand s ∧
      Refuses (.getCourier tag courier) tag 0x73 .badOperand s) ∧
    (1 ≤ courier.toNat → courier.toNat ≤ 65000 → findCourier s courier.toNat = none →
      Refuses (.revokeCourier tag courier) tag 0x71 .notFound s ∧
      Refuses (.reinstateCourier tag courier) tag 0x72 .notFound s ∧
      Refuses (.getCourier tag courier) tag 0x73 .notFound s) ∧
    (∀ i x, 1 ≤ courier.toNat → courier.toNat ≤ 65000 → findCourier s courier.toNat = some i →
      s.courierAt? i = some x →
      ((courierHasOrder s x.id = true ∨ (courierContext s x.id).isSome = true) →
        Refuses (.revokeCourier tag courier) tag 0x71 .inUse s) ∧
      (courierHasOrder s x.id = false → courierContext s x.id = none →
        ∃ t, Answers (.revokeCourier tag courier) tag 0x71 .ok [] s t ∧
          t.courierAt? i = some { x with state := .revoked } ∧ others i t) ∧
      (x.state = .active → Refuses (.reinstateCourier tag courier) tag 0x72 .wrongState s) ∧
      (x.state ≠ .active →
        ∃ t, Answers (.reinstateCourier tag courier) tag 0x72 .ok [] s t ∧
          t.courierAt? i = some { x with state := .active, failed := 0 } ∧ others i t) ∧
      Answers (.getCourier tag courier) tag 0x73 .ok
        (field16 x.id ++ [byteOf x.state.code, byteOf x.failed]) s (taken s))) ∧
  (∀ (s : State) (x : Transaction) (n : Node) (report : List Byte) (r : Report)
    (id code direction i node : Nat) (e : Courier) (d : Direction), ValidAnswer s x node n report r →
    n.binding.target = .terminal → NewBatch n r [.token id code direction] →
    s.device.condition = .running → s.device.storeFault = false → someFire s = false →
    (findNode s.nodes .hatch).isSome = true → tokenDirection direction = some d →
    1 ≤ id → id ≤ 65000 → code ≤ 999999 → findCourier s id = some i → s.courierAt? i = some e →
    (e.state = .locked →
      ∃ t, Takes (.fieldReportReceived report) s t ∧ t.handover = s.handover ∧ Prompts t [3, 0, 0]) ∧
    (e.state ≠ .locked → code ≠ e.code →
      ∃ t, Takes (.fieldReportReceived report) s t ∧ t.handover.contexts = s.handover.contexts ∧
        (e.failed < 2 → t.courierAt? i = some { e with failed := e.failed + 1 } ∧
          Prompts t [2, 0, byteOf (2 - e.failed)]) ∧
        (2 ≤ e.failed → t.courierAt? i = some { e with failed := 3, state := .locked } ∧
          Prompts t [3, 0, 0])) ∧
    (e.state = .revoked → d = .outbound → code = e.code →
      ∃ t, Takes (.fieldReportReceived report) s t ∧ t.handover.contexts = s.handover.contexts ∧
        t.courierAt? i = some { e with failed := 0 } ∧ Prompts t [4, 0, 0]) ∧
    (∀ c, (e.state = .active ∨ (e.state = .revoked ∧ d = .returning)) → code = e.code → courierContext s e.id = none → s.context? c = none →
      (c = 0 ∨ (c = 1 ∧ (s.context? 0).isSome = true)) →
      (d = .outbound → courierHasReady s e.id = true) → (d = .returning → outWith s e.id ≠ 0) →
      ∃ t y, Takes (.fieldReportReceived report) s t ∧ t.courierAt? i = some { e with failed := 0 } ∧
        t.context? c = some y ∧ y.courier = e.id ∧ y.direction = d ∧ y.manifest = [] ∧ y.finish = none ∧
        ((y.phase = .waitHatch ∧ c ∈ t.hatch.waiting) ∨
          (y.phase = d.firstPhase ∧ t.hatch.owner = .context c)))) ∧
  (∀ (s : State) (x : Transaction) (n : Node) (report : List Byte) (r : Report) (node : Nat)
    (c : Fin 2) (y : Context), ValidAnswer s x node n report r → n.binding.target = .terminal →
    AtTerminal s c.val y →
    (NewBatch n r [.confirm] → ∃ t, Takes (.fieldReportReceived report) s t ∧ HeardConfirm s t c.val y) ∧
    (NewBatch n r [.cancel] → ∃ t, Takes (.fieldReportReceived report) s t ∧ HeardCancel s t c.val y))

/-- R169: GET_HANDOVER refuses a context other than 0 and 1 with BAD_OPERAND, and else answers OK with the
slot's fields in the layout of Table 1-3, a FREE slot with the values the layout gives it. -/
def Obligations.GetHandoverReadsSlot : Prop :=
  ∀ (s : State) (tag context : Byte), HostReady s → tag ≠ 0 →
    (2 ≤ context.toNat → Refuses (.getHandover tag context) tag 0x80 .badOperand s) ∧
    (context.toNat < 2 → s.context? context.toNat = none →
      Answers (.getHandover tag context) tag 0x80 .ok
        ([context, 0] ++ field16 0 ++ [0, byteOf Phase.ended.code, 0xFF, 0] ++ field16 0xFFFF ++
          [0, 0, 0]) s (taken s)) ∧
    (∀ x, context.toNat < 2 → s.context? context.toNat = some x →
      Answers (.getHandover tag context) tag 0x80 .ok
        ([context, flagByte x.live] ++ field16 x.courier ++
          [byteOf x.direction.code, byteOf x.phase.code, byteOf (stepCode (x.finish.map (·.1))),
           flagByte (decide (s.hatch.yielded = some context.toNat))] ++
          field16 ((x.timer.map secondsUp).getD 0xFFFF) ++
          [byteOf (outcomeCode (x.finish.map (·.2))), byteOf x.manifest.length] ++
          x.manifest.flatMap (fun e => field16 e.record ++ [flagByte e.taken]) ++
          [byteOf x.rejected.length] ++ x.rejected.flatMap fieldLabel)
        s (taken s))

/-- R158, R159, R165: the host's decisions. Each refuses by its first failing check. ACCEPT_HANDOVER of a
context in AWAIT_RELEASE: outbound, every taken record is OUT at COURIER with its custodian and leaves the
manifest, counted; the context ends ACCEPTED where no record remains, else goes to WAIT_DRY; returning, every
manifest record is RECEIVED at HATCH and counted, the manifest is empty, and the context goes to WAIT_DRY.
DISPUTE_HANDOVER recalls it with the outcome DISPUTED. ABORT_HANDOVER, with the outcome HOST_ABORT: WAIT_HATCH
ends; LOADING makes every manifest record PICKED at HATCH and goes to WAIT_DRY; COLLECTING, LOADING_IN and
AWAIT_RELEASE are recalled; the other phases refuse it. The settings, nodes, fire records, climate, roster,
settings image and lines stand. -/
def Obligations.HostDecidesHandover : Prop :=
  ∀ (s : State) (tag context : Byte), HostReady s → tag ≠ 0 →
    let c := context.toNat
    let keeps := fun t : State => KeepsLayout s t ∧ t.fire = s.fire ∧ t.climate = s.climate
    let waits := ∃ x, liveContext? s c = some x ∧ x.phase = .awaitRelease
    (lockout s = true → Refuses (.acceptHandover tag context) tag 0x81 .fireUnacknowledged s) ∧
    (2 ≤ c →
      (lockout s = false → Refuses (.acceptHandover tag context) tag 0x81 .badOperand s) ∧
      Refuses (.disputeHandover tag context) tag 0x82 .badOperand s ∧
      Refuses (.abortHandover tag context) tag 0x83 .badOperand s) ∧
    (c < 2 → lockout s = false → s.device.storeFault = true →
      Refuses (.acceptHandover tag context) tag 0x81 .storeFault s) ∧
    (c < 2 → ¬waits →
      (lockout s = false → s.device.storeFault = false →
        Refuses (.acceptHandover tag context) tag 0x81 .wrongState s) ∧
      Refuses (.disputeHandover tag context) tag 0x82 .wrongState s) ∧
    (∀ x, c < 2 → liveContext? s c = some x → x.phase = .awaitRelease →
      (lockout s = false → s.device.storeFault = false →
        ∃ t y, Answers (.acceptHandover tag context) tag 0x81 .ok [] s t ∧ keeps t ∧
          t.context? c = some y ∧
          (x.direction = .outbound →
            (∀ i, x.isTaken i = true → (s.record? i).isSome = true → ∃ q, t.record? i = some q ∧
              q.state = .out ∧ q.location = .courier x.courier ∧ q.custodian = some x.courier) ∧
            let left :=
              { x with
                manifest := x.manifest.filter fun e => !x.isTaken e.record,
                accepted := x.accepted + ((x.manifest.filter (·.taken)).map (·.record)).eraseDups.length }
            (left.manifest = [] →
              y = { left with phase := .ended, timer := none,
                              finish := some (.awaitRelease, .accepted) }) ∧
            (left.manifest ≠ [] → LeftDrying s c .accepted left y)) ∧
          (x.direction = .returning →
            (∀ i, x.holds i = true → (s.record? i).isSome = true → RecordIs t i .received .hatch) ∧
            LeftDrying s c .accepted
              { x with manifest := [],
                       accepted := x.accepted + (x.manifest.map (·.record)).eraseDups.length } y)) ∧
      (∃ t y, Answers (.disputeHandover tag context) tag 0x82 .ok [] s t ∧ keeps t ∧
        t.context? c = some y ∧ LeftRecalled s c x.direction .disputed x y)) ∧
    (c < 2 → liveContext? s c = none →
      Refuses (.abortHandover tag context) tag 0x83 .wrongState s) ∧
    (∀ x, c < 2 → liveContext? s c = some x →
      let aborts := fun P : State → Context → Prop =>
        ∃ t y, Answers (.abortHandover tag context) tag 0x83 .ok [] s t ∧ keeps t ∧
          t.context? c = some y ∧ P t y
      (x.phase ∈ [.recall, .recallReturn, .waitDry, .unloading] →
        Refuses (.abortHandover tag context) tag 0x83 .wrongState s) ∧
      (x.phase = .waitHatch → aborts fun _ y =>
        y = { x with phase := .ended, timer := none, finish := some (.waitHatch, .hostAbort) }) ∧
      (x.phase = .loading → aborts fun t y =>
        LeftDrying s c .hostAbort { x with manifest := [] } y ∧
          ∀ i, x.holds i = true → (s.record? i).isSome = true → RecordIs t i .picked .hatch) ∧
      (x.phase = .collecting → aborts fun _ y => LeftRecalled s c .outbound .hostAbort x y) ∧
      (x.phase = .loadingIn → aborts fun _ y => LeftRecalled s c .returning .hostAbort x y) ∧
      (x.phase = .awaitRelease → aborts fun _ y => LeftRecalled s c x.direction .hostAbort x y))

/-- R153, R156, R157, R159, R160, R163, R164: the phase limits. Each acts on a live context in its phase whose
limit runs. WAIT_HATCH ends TIMED_OUT. LOADING makes every manifest record PICKED at HATCH and goes to WAIT_DRY
with the pending outcome TIMED_OUT; COLLECTING and LOADING_IN are recalled with it, AWAIT_RELEASE with
DISPUTED. In RECALL the taken records (STAGED at COURIER) become BLOCKED HANDOVER_UNRESOLVED at COURIER with the
courier as custodian and leave the manifest; in RECALL_RETURN every manifest record (INBOUND at HATCH) becomes
BLOCKED HANDOVER_UNRESOLVED at HATCH and the manifest is empty. Then the limit is stopped while the room door is
OPEN; with the door CLOSED a RECALL goes to WAIT_DRY (that a record taken again after the expiry is resolved then: log
40), a RECALL_RETURN ends where the hatch is empty and else goes to WAIT_DRY (that it ends at the expiry with an
empty hatch and a CLOSED door, as R164's end condition says without naming the expiry: DEDUCED, log 30). The settings, nodes, fire records, climate, roster, settings image and lines stand. -/
def Obligations.PhaseLimitsExpire : Prop :=
  ∀ (s : State) (c : Fin 2) (x : Context), s.up = true → liveContext? s c.val = some x →
    x.timer.isSome = true →
    let leaves := fun (i : Instr) (P : State → Context → Prop) =>
      ∃ t y, Takes i s t ∧ KeepsLayout s t ∧ t.fire = s.fire ∧ t.climate = s.climate ∧
        t.context? c.val = some y ∧ P t y
    (x.phase = .waitHatch → leaves (.hatchWaitLimitExpiry c) fun _ y =>
      y = { x with phase := .ended, timer := none, finish := some (.waitHatch, .timedOut) }) ∧
    (x.phase = .loading → leaves (.loadingLimitExpiry c) fun t y =>
      LeftDrying s c.val .timedOut { x with manifest := [] } y ∧
        ∀ i, x.holds i = true → (s.record? i).isSome = true → RecordIs t i .picked .hatch) ∧
    (x.phase = .loadingIn → leaves (.loadingLimitExpiry c) fun _ y =>
      LeftRecalled s c.val .returning .timedOut x y) ∧
    (x.phase = .collecting → leaves (.collectingLimitExpiry c) fun _ y =>
      LeftRecalled s c.val .outbound .timedOut x y) ∧
    (x.phase = .awaitRelease → leaves (.releaseWaitLimitExpiry c) fun _ y =>
      LeftRecalled s c.val x.direction .disputed x y) ∧
    (∀ o, x.phase = .recall → x.pendingOutcome = some o →
      (∀ i, x.isTaken i = true → RecordIs s i .staged (.courier x.courier)) →
      leaves (.recallLimitExpiry c) fun t y =>
        (∀ i, x.isTaken i = true → ∃ q, t.record? i = some q ∧ q.state = .blocked .handoverUnresolved ∧
          q.location = .courier x.courier ∧ q.custodian = some x.courier) ∧
        (∀ e ∈ y.manifest, e ∈ x.manifest ∧ e.taken = false) ∧
        (roomDoor s = .closed → LeftDrying s c.val o { x with manifest := y.manifest } y) ∧
        (roomDoor s = .opened → y = { x with manifest := y.manifest, timer := none })) ∧
    (∀ o, x.phase = .recallReturn → x.pendingOutcome = some o →
      (∀ i, x.holds i = true → RecordIs s i .inbound .hatch) →
      leaves (.recallLimitExpiry c) fun t y =>
        (∀ i, x.holds i = true → RecordIs t i (.blocked .handoverUnresolved) .hatch) ∧
        (roomDoor s = .closed → s.hatch.contents = [] →
          y = { x with manifest := [], phase := .ended, timer := none,
                       finish := some (.recallReturn, o) }) ∧
        (roomDoor s = .closed → s.hatch.contents ≠ [] →
          LeftDrying s c.val o { x with manifest := [] } y) ∧
        (roomDoor s = .opened → y = { x with manifest := [], timer := none }))

/-! ## Lines and restart -/

/-- R11, R175: power applied to a part that is not held, RST released under power, and a RESTART reply sent,
each leave the restart of the part, whose cause is theirs. R16, R49, R69, R97, R110, R131, R146, R170, R176:
the values every restart gives, whatever it finds in the retained store. R171, R177: a place whose two copies
fail their checks is free, and such a place or entry faults the store, which is posted. R178: usable settings
that cover every home slot and slot location are the working settings; where none can be loaded, or what is
loaded is not usable, the parameters are the defaults and settings-defaulted is set; where loaded usable
settings leave such a slot uncovered, zone 0 alone has a window, which covers every home slot and slot location.
R179: a loaded record is resolved; R180: a rack position takes the one record located there, and a further one
is BLOCKED MISSING at UNKNOWN, its reason kept (both where no label and no home slot repeats, R177). R181: the
start-up set is the bound nodes, and the part is RUNNING where it is empty, else STARTING. -/
def Obligations.RestartGivesValues : Prop :=
  ∀ (s : State),
    (∀ hrate, s.device.powered = false → s.device.rst = false →
      Takes (.powerOn hrate) s
        (restart .powerOn (s.withDevice { s.device with powered := true, hrateStrap := hrate }))) ∧
    (s.device.powered = true → s.device.rst = true →
      Takes .resetLineRelease s
        (restart (if s.device.powerOnPending then .powerOn else .resetLine)
          (s.withDevice { s.device with rst := false }))) ∧
    (∀ r, s.up = true → s.host.transmitting = some (.reply r) → r.isRestart = true →
      Takes .frameSent s (restart .restartRequest s)) ∧
    ∀ cause : Cause,
    let t := restart cause s
    let held := fun (i : Nat) (d : RecordData) =>
      (s.store.records.get? i).bind Image.loaded = some (some d)
    let apart := ∀ i j d e, held i d → held j e → i ≠ j → d.label ≠ e.label ∧ d.home ≠ e.home
    let slotOf := fun (d : RecordData) (n : Nat) => n = d.home ∨ d.location = .slot n
    t.device.cause = cause ∧
    t.host = { rate := if s.device.hrateStrap then .rate115200 else .rate57600, receiver := .hunt,
               frameTimer := none, buffer := none, executing := none, replies := [],
               transmitting := none, framesDiscarded := false } ∧
    t.notices.mask = 0 ∧ t.link.rate = 0 ∧ t.link.forward = none ∧ t.link.pendingBroadcast = none ∧
    (∀ i n, t.node? i = some n →
      n.health = .online ∧ n.misses = 0 ∧ n.accepted = none ∧ n.rate = 0) ∧
    t.orders = [] ∧ t.fire.alarmOut = false ∧
    (∀ z, t.zoneFire z =
      { state := .normal, drill := false, acknowledged := false, alertTimer := none,
        countdownTimer := none, ackTimer := none, ackExpired := false, headA := .clear,
        headB := .clear, hold := .released, valve := .notReported, equipmentLost := false }) ∧
    t.hatch =
      { owner := .nobody, waiting := [], yielded := none, air := .wet, report := none,
        roomLock := .locked, storeLock := .locked, exitLock := .unlocked, purgeCmd := .stop,
        purge := none, retry := none, wetDwell := none, contents := [] } ∧
    t.handover.contexts = [] ∧
    (∀ z, t.zoneClimate z =
      { control := .unknown, excursion := .inLimits, grace := none, minutes := 0, minuteTimer := none }) ∧
    (∀ y, (t.airAt y).reading = none ∧ (t.airAt y).disagree = false) ∧
    (∀ p : Fin 12, (t.position p).dwell = none) ∧
    t.notices.pending.get? 9 = some (.restarted cause t.device.settingsDefaulted) ∧
    t.device.startupSet = t.nodes.map (·.1) ∧
    t.device.condition = (if t.nodes = [] then .running else .starting) ∧
    (TablesOk s →
      (∀ i img, s.store.records.get? i = some img → img.first.sound = false →
        img.second.sound = false → t.record? i = none ∧ t.device.storeFault = true ∧
          t.notices.pending.get? 30 = some .storeFault) ∧
      (∀ i img, s.store.roster.get? i = some img → img.first.sound = false →
        img.second.sound = false → t.device.storeFault = true ∧
          t.notices.pending.get? 30 = some .storeFault) ∧
      (∀ d, s.store.settings.loaded = some (some d) → d.usable = true →
        (∀ i e n, held i e → slotOf e n → (zoneOfSlotIn d.zones n).isSome = true) →
        t.settings = ⟨d.params, d.zones⟩ ∧ t.device.settingsDefaulted = false ∧
          t.nodes.map (fun p => (p.1, p.2.binding)) = d.bindings) ∧
      ((∀ d, s.store.settings.loaded = some (some d) → d.usable = false) →
        t.settings.params = .defaults ∧ t.device.settingsDefaulted = true) ∧
      (apart → ∀ d i e m, s.store.settings.loaded = some (some d) → d.usable = true → held i e →
        slotOf e m → zoneOfSlotIn d.zones m = none →
        t.device.settingsDefaulted = true ∧ t.settings.params = d.params ∧
          (∃ w, (t.zone 0).window = some w ∧
            ∀ j f n, held j f → slotOf f n → w.base ≤ n ∧ n ≤ w.limit) ∧
          ∀ z, z ≠ 0 → (t.zone z).window = none) ∧
      (apart → ∀ i d, held i d →
        let resolved := match d.state with
          | .reserved => CState.shelved
          | .picked | .conditioning .outbound | .ready _ => .loose
          | .conditioning .returning => .received
          | .staged | .inbound => .blocked .powerLoss
          | st => st
        ((∀ p, d.location ≠ .rack p) → RecordIs t i resolved d.location) ∧
        (∀ p, d.location = .rack p → (∀ j e, held j e → e.location = .rack p → j = i) →
          RecordIs t i resolved (.rack p) ∧ t.position p = ⟨some (.record i), none, false⟩) ∧
        (∀ p j e, d.location = .rack p → held j e → e.location = .rack p → j < i →
          RecordIs t i (if resolved.isBlocked then resolved else .blocked .missing) .unknown)))

/-- R175: power applied to a part that is not held restarts it with cause POWER_ON, the strap read then; RST
released restarts it with cause RESET_LINE, or POWER_ON where power came up meanwhile; RST asserted, and power
lost, leave a part that takes no event, with ALARM OUT released and an idle host link. The model's choices: what
stands while the part is held or without power, that power loss too idles the links and releases ALARM OUT, that
power applied under RST waits for the release, and that an RST edge without power changes the line alone
(log 31); which image writes a power loss takes back (log 10). -/
def Obligations.LinesRestartAndHold : Prop :=
  ∀ (s : State),
    (∀ hrate, s.device.powered = false → s.device.rst = false →
      ∃ t, Takes (.powerOn hrate) s t ∧ t.up = true ∧ t.device.cause = .powerOn ∧
        t.host = .restarted hrate) ∧
    (s.device.powered = true → s.device.rst = true →
      ∃ t, Takes .resetLineRelease s t ∧ t.up = true ∧ t.host = .restarted s.device.hrateStrap ∧
        t.device.cause = (if s.device.powerOnPending then .powerOn else .resetLine)) ∧
    (s.device.powered = true →
      ∃ t, exec .resetLineAssert s = .next t ∧ t.device = { s.device with rst := true } ∧ t.up = false ∧
        t.fire.alarmOut = false ∧ t.host.receiver = .hunt ∧ t.host.replies = [] ∧
        t.host.transmitting = none ∧ t.link.activity = .idle ∧ t.nodes = s.nodes ∧
        t.settings = s.settings ∧ t.custody = s.custody ∧ t.orders = s.orders ∧ t.hatch = s.hatch ∧
        t.handover = s.handover ∧ t.notices = s.notices ∧ t.store = { s.store with undo := [] }) ∧
    (∀ n, s.device.powered = true →
      ∃ t, exec (.powerLoss n) s = .next t ∧
        t.device = { s.device with powered := false, powerOnPending := false } ∧ t.up = false ∧
        t.fire.alarmOut = false ∧ t.host.receiver = .hunt ∧ t.host.replies = [] ∧
        t.host.transmitting = none ∧ t.link.activity = .idle ∧ t.nodes = s.nodes ∧
        t.settings = s.settings ∧ t.custody = s.custody ∧ t.orders = s.orders ∧ t.hatch = s.hatch ∧
        t.handover = s.handover ∧ t.notices = s.notices ∧ t.store = undoWrites n s.store) ∧
    (∀ hrate, s.device.powered = false → s.device.rst = true →
      exec (.powerOn hrate) s = .next (s.withDevice
        { s.device with powered := true, hrateStrap := hrate, powerOnPending := true })) ∧
    (s.device.powered = false → s.device.rst = true →
      exec .resetLineRelease s = .next (s.withDevice { s.device with rst := false })) ∧
    (s.device.powered = false →
      exec .resetLineAssert s = .next ((startEvent s).withDevice { s.device with rst := true }))
end

