-- ==== Sys2Proof/Laws/State.lean ====
section
/-! SUPPORT. Laws/State: what each update of a block leaves in each block; true by rfl, so that no proof
unfolds a record update. -/

namespace Sys2Proof.Machine.State

@[simp] theorem withDevice_device (s : State) (x : Device) : (s.withDevice x).device = x := rfl
@[simp] theorem withDevice_host (s : State) (x : Device) : (s.withDevice x).host = s.host := rfl
@[simp] theorem withDevice_notices (s : State) (x : Device) : (s.withDevice x).notices = s.notices := rfl
@[simp] theorem withDevice_link (s : State) (x : Device) : (s.withDevice x).link = s.link := rfl
@[simp] theorem withDevice_nodes (s : State) (x : Device) : (s.withDevice x).nodes = s.nodes := rfl
@[simp] theorem withDevice_settings (s : State) (x : Device) : (s.withDevice x).settings = s.settings := rfl
@[simp] theorem withDevice_climate (s : State) (x : Device) : (s.withDevice x).climate = s.climate := rfl
@[simp] theorem withDevice_rack (s : State) (x : Device) : (s.withDevice x).rack = s.rack := rfl
@[simp] theorem withDevice_fire (s : State) (x : Device) : (s.withDevice x).fire = s.fire := rfl
@[simp] theorem withDevice_custody (s : State) (x : Device) : (s.withDevice x).custody = s.custody := rfl
@[simp] theorem withDevice_orders (s : State) (x : Device) : (s.withDevice x).orders = s.orders := rfl
@[simp] theorem withDevice_hatch (s : State) (x : Device) : (s.withDevice x).hatch = s.hatch := rfl
@[simp] theorem withDevice_handover (s : State) (x : Device) : (s.withDevice x).handover = s.handover := rfl
@[simp] theorem withDevice_store (s : State) (x : Device) : (s.withDevice x).store = s.store := rfl
@[simp] theorem withDevice_pending (s : State) (x : Device) : (s.withDevice x).pending = s.pending := rfl

@[simp] theorem withHost_device (s : State) (x : HostLink) : (s.withHost x).device = s.device := rfl
@[simp] theorem withHost_host (s : State) (x : HostLink) : (s.withHost x).host = x := rfl
@[simp] theorem withHost_notices (s : State) (x : HostLink) : (s.withHost x).notices = s.notices := rfl
@[simp] theorem withHost_link (s : State) (x : HostLink) : (s.withHost x).link = s.link := rfl
@[simp] theorem withHost_nodes (s : State) (x : HostLink) : (s.withHost x).nodes = s.nodes := rfl
@[simp] theorem withHost_settings (s : State) (x : HostLink) : (s.withHost x).settings = s.settings := rfl
@[simp] theorem withHost_climate (s : State) (x : HostLink) : (s.withHost x).climate = s.climate := rfl
@[simp] theorem withHost_rack (s : State) (x : HostLink) : (s.withHost x).rack = s.rack := rfl
@[simp] theorem withHost_fire (s : State) (x : HostLink) : (s.withHost x).fire = s.fire := rfl
@[simp] theorem withHost_custody (s : State) (x : HostLink) : (s.withHost x).custody = s.custody := rfl
@[simp] theorem withHost_orders (s : State) (x : HostLink) : (s.withHost x).orders = s.orders := rfl
@[simp] theorem withHost_hatch (s : State) (x : HostLink) : (s.withHost x).hatch = s.hatch := rfl
@[simp] theorem withHost_handover (s : State) (x : HostLink) : (s.withHost x).handover = s.handover := rfl
@[simp] theorem withHost_store (s : State) (x : HostLink) : (s.withHost x).store = s.store := rfl
@[simp] theorem withHost_pending (s : State) (x : HostLink) : (s.withHost x).pending = s.pending := rfl

@[simp] theorem withNotices_device (s : State) (x : NoticeUnit) : (s.withNotices x).device = s.device := rfl
@[simp] theorem withNotices_host (s : State) (x : NoticeUnit) : (s.withNotices x).host = s.host := rfl
@[simp] theorem withNotices_notices (s : State) (x : NoticeUnit) : (s.withNotices x).notices = x := rfl
@[simp] theorem withNotices_link (s : State) (x : NoticeUnit) : (s.withNotices x).link = s.link := rfl
@[simp] theorem withNotices_nodes (s : State) (x : NoticeUnit) : (s.withNotices x).nodes = s.nodes := rfl
@[simp] theorem withNotices_settings (s : State) (x : NoticeUnit) : (s.withNotices x).settings = s.settings := rfl
@[simp] theorem withNotices_climate (s : State) (x : NoticeUnit) : (s.withNotices x).climate = s.climate := rfl
@[simp] theorem withNotices_rack (s : State) (x : NoticeUnit) : (s.withNotices x).rack = s.rack := rfl
@[simp] theorem withNotices_fire (s : State) (x : NoticeUnit) : (s.withNotices x).fire = s.fire := rfl
@[simp] theorem withNotices_custody (s : State) (x : NoticeUnit) : (s.withNotices x).custody = s.custody := rfl
@[simp] theorem withNotices_orders (s : State) (x : NoticeUnit) : (s.withNotices x).orders = s.orders := rfl
@[simp] theorem withNotices_hatch (s : State) (x : NoticeUnit) : (s.withNotices x).hatch = s.hatch := rfl
@[simp] theorem withNotices_handover (s : State) (x : NoticeUnit) : (s.withNotices x).handover = s.handover := rfl
@[simp] theorem withNotices_store (s : State) (x : NoticeUnit) : (s.withNotices x).store = s.store := rfl
@[simp] theorem withNotices_pending (s : State) (x : NoticeUnit) : (s.withNotices x).pending = s.pending := rfl

@[simp] theorem withLink_device (s : State) (x : FieldLink) : (s.withLink x).device = s.device := rfl
@[simp] theorem withLink_host (s : State) (x : FieldLink) : (s.withLink x).host = s.host := rfl
@[simp] theorem withLink_notices (s : State) (x : FieldLink) : (s.withLink x).notices = s.notices := rfl
@[simp] theorem withLink_link (s : State) (x : FieldLink) : (s.withLink x).link = x := rfl
@[simp] theorem withLink_nodes (s : State) (x : FieldLink) : (s.withLink x).nodes = s.nodes := rfl
@[simp] theorem withLink_settings (s : State) (x : FieldLink) : (s.withLink x).settings = s.settings := rfl
@[simp] theorem withLink_climate (s : State) (x : FieldLink) : (s.withLink x).climate = s.climate := rfl
@[simp] theorem withLink_rack (s : State) (x : FieldLink) : (s.withLink x).rack = s.rack := rfl
@[simp] theorem withLink_fire (s : State) (x : FieldLink) : (s.withLink x).fire = s.fire := rfl
@[simp] theorem withLink_custody (s : State) (x : FieldLink) : (s.withLink x).custody = s.custody := rfl
@[simp] theorem withLink_orders (s : State) (x : FieldLink) : (s.withLink x).orders = s.orders := rfl
@[simp] theorem withLink_hatch (s : State) (x : FieldLink) : (s.withLink x).hatch = s.hatch := rfl
@[simp] theorem withLink_handover (s : State) (x : FieldLink) : (s.withLink x).handover = s.handover := rfl
@[simp] theorem withLink_store (s : State) (x : FieldLink) : (s.withLink x).store = s.store := rfl
@[simp] theorem withLink_pending (s : State) (x : FieldLink) : (s.withLink x).pending = s.pending := rfl

@[simp] theorem withNodes_device (s : State) (x : Table Node) : (s.withNodes x).device = s.device := rfl
@[simp] theorem withNodes_host (s : State) (x : Table Node) : (s.withNodes x).host = s.host := rfl
@[simp] theorem withNodes_notices (s : State) (x : Table Node) : (s.withNodes x).notices = s.notices := rfl
@[simp] theorem withNodes_link (s : State) (x : Table Node) : (s.withNodes x).link = s.link := rfl
@[simp] theorem withNodes_nodes (s : State) (x : Table Node) : (s.withNodes x).nodes = x := rfl
@[simp] theorem withNodes_settings (s : State) (x : Table Node) : (s.withNodes x).settings = s.settings := rfl
@[simp] theorem withNodes_climate (s : State) (x : Table Node) : (s.withNodes x).climate = s.climate := rfl
@[simp] theorem withNodes_rack (s : State) (x : Table Node) : (s.withNodes x).rack = s.rack := rfl
@[simp] theorem withNodes_fire (s : State) (x : Table Node) : (s.withNodes x).fire = s.fire := rfl
@[simp] theorem withNodes_custody (s : State) (x : Table Node) : (s.withNodes x).custody = s.custody := rfl
@[simp] theorem withNodes_orders (s : State) (x : Table Node) : (s.withNodes x).orders = s.orders := rfl
@[simp] theorem withNodes_hatch (s : State) (x : Table Node) : (s.withNodes x).hatch = s.hatch := rfl
@[simp] theorem withNodes_handover (s : State) (x : Table Node) : (s.withNodes x).handover = s.handover := rfl
@[simp] theorem withNodes_store (s : State) (x : Table Node) : (s.withNodes x).store = s.store := rfl
@[simp] theorem withNodes_pending (s : State) (x : Table Node) : (s.withNodes x).pending = s.pending := rfl

@[simp] theorem withSettings_device (s : State) (x : Settings) : (s.withSettings x).device = s.device := rfl
@[simp] theorem withSettings_host (s : State) (x : Settings) : (s.withSettings x).host = s.host := rfl
@[simp] theorem withSettings_notices (s : State) (x : Settings) : (s.withSettings x).notices = s.notices := rfl
@[simp] theorem withSettings_link (s : State) (x : Settings) : (s.withSettings x).link = s.link := rfl
@[simp] theorem withSettings_nodes (s : State) (x : Settings) : (s.withSettings x).nodes = s.nodes := rfl
@[simp] theorem withSettings_settings (s : State) (x : Settings) : (s.withSettings x).settings = x := rfl
@[simp] theorem withSettings_climate (s : State) (x : Settings) : (s.withSettings x).climate = s.climate := rfl
@[simp] theorem withSettings_rack (s : State) (x : Settings) : (s.withSettings x).rack = s.rack := rfl
@[simp] theorem withSettings_fire (s : State) (x : Settings) : (s.withSettings x).fire = s.fire := rfl
@[simp] theorem withSettings_custody (s : State) (x : Settings) : (s.withSettings x).custody = s.custody := rfl
@[simp] theorem withSettings_orders (s : State) (x : Settings) : (s.withSettings x).orders = s.orders := rfl
@[simp] theorem withSettings_hatch (s : State) (x : Settings) : (s.withSettings x).hatch = s.hatch := rfl
@[simp] theorem withSettings_handover (s : State) (x : Settings) : (s.withSettings x).handover = s.handover := rfl
@[simp] theorem withSettings_store (s : State) (x : Settings) : (s.withSettings x).store = s.store := rfl
@[simp] theorem withSettings_pending (s : State) (x : Settings) : (s.withSettings x).pending = s.pending := rfl

@[simp] theorem withClimate_device (s : State) (x : Climate) : (s.withClimate x).device = s.device := rfl
@[simp] theorem withClimate_host (s : State) (x : Climate) : (s.withClimate x).host = s.host := rfl
@[simp] theorem withClimate_notices (s : State) (x : Climate) : (s.withClimate x).notices = s.notices := rfl
@[simp] theorem withClimate_link (s : State) (x : Climate) : (s.withClimate x).link = s.link := rfl
@[simp] theorem withClimate_nodes (s : State) (x : Climate) : (s.withClimate x).nodes = s.nodes := rfl
@[simp] theorem withClimate_settings (s : State) (x : Climate) : (s.withClimate x).settings = s.settings := rfl
@[simp] theorem withClimate_climate (s : State) (x : Climate) : (s.withClimate x).climate = x := rfl
@[simp] theorem withClimate_rack (s : State) (x : Climate) : (s.withClimate x).rack = s.rack := rfl
@[simp] theorem withClimate_fire (s : State) (x : Climate) : (s.withClimate x).fire = s.fire := rfl
@[simp] theorem withClimate_custody (s : State) (x : Climate) : (s.withClimate x).custody = s.custody := rfl
@[simp] theorem withClimate_orders (s : State) (x : Climate) : (s.withClimate x).orders = s.orders := rfl
@[simp] theorem withClimate_hatch (s : State) (x : Climate) : (s.withClimate x).hatch = s.hatch := rfl
@[simp] theorem withClimate_handover (s : State) (x : Climate) : (s.withClimate x).handover = s.handover := rfl
@[simp] theorem withClimate_store (s : State) (x : Climate) : (s.withClimate x).store = s.store := rfl
@[simp] theorem withClimate_pending (s : State) (x : Climate) : (s.withClimate x).pending = s.pending := rfl

@[simp] theorem withRack_device (s : State) (x : Rack) : (s.withRack x).device = s.device := rfl
@[simp] theorem withRack_host (s : State) (x : Rack) : (s.withRack x).host = s.host := rfl
@[simp] theorem withRack_notices (s : State) (x : Rack) : (s.withRack x).notices = s.notices := rfl
@[simp] theorem withRack_link (s : State) (x : Rack) : (s.withRack x).link = s.link := rfl
@[simp] theorem withRack_nodes (s : State) (x : Rack) : (s.withRack x).nodes = s.nodes := rfl
@[simp] theorem withRack_settings (s : State) (x : Rack) : (s.withRack x).settings = s.settings := rfl
@[simp] theorem withRack_climate (s : State) (x : Rack) : (s.withRack x).climate = s.climate := rfl
@[simp] theorem withRack_rack (s : State) (x : Rack) : (s.withRack x).rack = x := rfl
@[simp] theorem withRack_fire (s : State) (x : Rack) : (s.withRack x).fire = s.fire := rfl
@[simp] theorem withRack_custody (s : State) (x : Rack) : (s.withRack x).custody = s.custody := rfl
@[simp] theorem withRack_orders (s : State) (x : Rack) : (s.withRack x).orders = s.orders := rfl
@[simp] theorem withRack_hatch (s : State) (x : Rack) : (s.withRack x).hatch = s.hatch := rfl
@[simp] theorem withRack_handover (s : State) (x : Rack) : (s.withRack x).handover = s.handover := rfl
@[simp] theorem withRack_store (s : State) (x : Rack) : (s.withRack x).store = s.store := rfl
@[simp] theorem withRack_pending (s : State) (x : Rack) : (s.withRack x).pending = s.pending := rfl

@[simp] theorem withFire_device (s : State) (x : Fire) : (s.withFire x).device = s.device := rfl
@[simp] theorem withFire_host (s : State) (x : Fire) : (s.withFire x).host = s.host := rfl
@[simp] theorem withFire_notices (s : State) (x : Fire) : (s.withFire x).notices = s.notices := rfl
@[simp] theorem withFire_link (s : State) (x : Fire) : (s.withFire x).link = s.link := rfl
@[simp] theorem withFire_nodes (s : State) (x : Fire) : (s.withFire x).nodes = s.nodes := rfl
@[simp] theorem withFire_settings (s : State) (x : Fire) : (s.withFire x).settings = s.settings := rfl
@[simp] theorem withFire_climate (s : State) (x : Fire) : (s.withFire x).climate = s.climate := rfl
@[simp] theorem withFire_rack (s : State) (x : Fire) : (s.withFire x).rack = s.rack := rfl
@[simp] theorem withFire_fire (s : State) (x : Fire) : (s.withFire x).fire = x := rfl
@[simp] theorem withFire_custody (s : State) (x : Fire) : (s.withFire x).custody = s.custody := rfl
@[simp] theorem withFire_orders (s : State) (x : Fire) : (s.withFire x).orders = s.orders := rfl
@[simp] theorem withFire_hatch (s : State) (x : Fire) : (s.withFire x).hatch = s.hatch := rfl
@[simp] theorem withFire_handover (s : State) (x : Fire) : (s.withFire x).handover = s.handover := rfl
@[simp] theorem withFire_store (s : State) (x : Fire) : (s.withFire x).store = s.store := rfl
@[simp] theorem withFire_pending (s : State) (x : Fire) : (s.withFire x).pending = s.pending := rfl

@[simp] theorem withCustody_device (s : State) (x : Custody) : (s.withCustody x).device = s.device := rfl
@[simp] theorem withCustody_host (s : State) (x : Custody) : (s.withCustody x).host = s.host := rfl
@[simp] theorem withCustody_notices (s : State) (x : Custody) : (s.withCustody x).notices = s.notices := rfl
@[simp] theorem withCustody_link (s : State) (x : Custody) : (s.withCustody x).link = s.link := rfl
@[simp] theorem withCustody_nodes (s : State) (x : Custody) : (s.withCustody x).nodes = s.nodes := rfl
@[simp] theorem withCustody_settings (s : State) (x : Custody) : (s.withCustody x).settings = s.settings := rfl
@[simp] theorem withCustody_climate (s : State) (x : Custody) : (s.withCustody x).climate = s.climate := rfl
@[simp] theorem withCustody_rack (s : State) (x : Custody) : (s.withCustody x).rack = s.rack := rfl
@[simp] theorem withCustody_fire (s : State) (x : Custody) : (s.withCustody x).fire = s.fire := rfl
@[simp] theorem withCustody_custody (s : State) (x : Custody) : (s.withCustody x).custody = x := rfl
@[simp] theorem withCustody_orders (s : State) (x : Custody) : (s.withCustody x).orders = s.orders := rfl
@[simp] theorem withCustody_hatch (s : State) (x : Custody) : (s.withCustody x).hatch = s.hatch := rfl
@[simp] theorem withCustody_handover (s : State) (x : Custody) : (s.withCustody x).handover = s.handover := rfl
@[simp] theorem withCustody_store (s : State) (x : Custody) : (s.withCustody x).store = s.store := rfl
@[simp] theorem withCustody_pending (s : State) (x : Custody) : (s.withCustody x).pending = s.pending := rfl

@[simp] theorem withOrders_device (s : State) (x : Table Order) : (s.withOrders x).device = s.device := rfl
@[simp] theorem withOrders_host (s : State) (x : Table Order) : (s.withOrders x).host = s.host := rfl
@[simp] theorem withOrders_notices (s : State) (x : Table Order) : (s.withOrders x).notices = s.notices := rfl
@[simp] theorem withOrders_link (s : State) (x : Table Order) : (s.withOrders x).link = s.link := rfl
@[simp] theorem withOrders_nodes (s : State) (x : Table Order) : (s.withOrders x).nodes = s.nodes := rfl
@[simp] theorem withOrders_settings (s : State) (x : Table Order) : (s.withOrders x).settings = s.settings := rfl
@[simp] theorem withOrders_climate (s : State) (x : Table Order) : (s.withOrders x).climate = s.climate := rfl
@[simp] theorem withOrders_rack (s : State) (x : Table Order) : (s.withOrders x).rack = s.rack := rfl
@[simp] theorem withOrders_fire (s : State) (x : Table Order) : (s.withOrders x).fire = s.fire := rfl
@[simp] theorem withOrders_custody (s : State) (x : Table Order) : (s.withOrders x).custody = s.custody := rfl
@[simp] theorem withOrders_orders (s : State) (x : Table Order) : (s.withOrders x).orders = x := rfl
@[simp] theorem withOrders_hatch (s : State) (x : Table Order) : (s.withOrders x).hatch = s.hatch := rfl
@[simp] theorem withOrders_handover (s : State) (x : Table Order) : (s.withOrders x).handover = s.handover := rfl
@[simp] theorem withOrders_store (s : State) (x : Table Order) : (s.withOrders x).store = s.store := rfl
@[simp] theorem withOrders_pending (s : State) (x : Table Order) : (s.withOrders x).pending = s.pending := rfl

@[simp] theorem withHatch_device (s : State) (x : Hatch) : (s.withHatch x).device = s.device := rfl
@[simp] theorem withHatch_host (s : State) (x : Hatch) : (s.withHatch x).host = s.host := rfl
@[simp] theorem withHatch_notices (s : State) (x : Hatch) : (s.withHatch x).notices = s.notices := rfl
@[simp] theorem withHatch_link (s : State) (x : Hatch) : (s.withHatch x).link = s.link := rfl
@[simp] theorem withHatch_nodes (s : State) (x : Hatch) : (s.withHatch x).nodes = s.nodes := rfl
@[simp] theorem withHatch_settings (s : State) (x : Hatch) : (s.withHatch x).settings = s.settings := rfl
@[simp] theorem withHatch_climate (s : State) (x : Hatch) : (s.withHatch x).climate = s.climate := rfl
@[simp] theorem withHatch_rack (s : State) (x : Hatch) : (s.withHatch x).rack = s.rack := rfl
@[simp] theorem withHatch_fire (s : State) (x : Hatch) : (s.withHatch x).fire = s.fire := rfl
@[simp] theorem withHatch_custody (s : State) (x : Hatch) : (s.withHatch x).custody = s.custody := rfl
@[simp] theorem withHatch_orders (s : State) (x : Hatch) : (s.withHatch x).orders = s.orders := rfl
@[simp] theorem withHatch_hatch (s : State) (x : Hatch) : (s.withHatch x).hatch = x := rfl
@[simp] theorem withHatch_handover (s : State) (x : Hatch) : (s.withHatch x).handover = s.handover := rfl
@[simp] theorem withHatch_store (s : State) (x : Hatch) : (s.withHatch x).store = s.store := rfl
@[simp] theorem withHatch_pending (s : State) (x : Hatch) : (s.withHatch x).pending = s.pending := rfl

@[simp] theorem withHandover_device (s : State) (x : Handover) : (s.withHandover x).device = s.device := rfl
@[simp] theorem withHandover_host (s : State) (x : Handover) : (s.withHandover x).host = s.host := rfl
@[simp] theorem withHandover_notices (s : State) (x : Handover) : (s.withHandover x).notices = s.notices := rfl
@[simp] theorem withHandover_link (s : State) (x : Handover) : (s.withHandover x).link = s.link := rfl
@[simp] theorem withHandover_nodes (s : State) (x : Handover) : (s.withHandover x).nodes = s.nodes := rfl
@[simp] theorem withHandover_settings (s : State) (x : Handover) : (s.withHandover x).settings = s.settings := rfl
@[simp] theorem withHandover_climate (s : State) (x : Handover) : (s.withHandover x).climate = s.climate := rfl
@[simp] theorem withHandover_rack (s : State) (x : Handover) : (s.withHandover x).rack = s.rack := rfl
@[simp] theorem withHandover_fire (s : State) (x : Handover) : (s.withHandover x).fire = s.fire := rfl
@[simp] theorem withHandover_custody (s : State) (x : Handover) : (s.withHandover x).custody = s.custody := rfl
@[simp] theorem withHandover_orders (s : State) (x : Handover) : (s.withHandover x).orders = s.orders := rfl
@[simp] theorem withHandover_hatch (s : State) (x : Handover) : (s.withHandover x).hatch = s.hatch := rfl
@[simp] theorem withHandover_handover (s : State) (x : Handover) : (s.withHandover x).handover = x := rfl
@[simp] theorem withHandover_store (s : State) (x : Handover) : (s.withHandover x).store = s.store := rfl
@[simp] theorem withHandover_pending (s : State) (x : Handover) : (s.withHandover x).pending = s.pending := rfl

@[simp] theorem withStore_device (s : State) (x : Store) : (s.withStore x).device = s.device := rfl
@[simp] theorem withStore_host (s : State) (x : Store) : (s.withStore x).host = s.host := rfl
@[simp] theorem withStore_notices (s : State) (x : Store) : (s.withStore x).notices = s.notices := rfl
@[simp] theorem withStore_link (s : State) (x : Store) : (s.withStore x).link = s.link := rfl
@[simp] theorem withStore_nodes (s : State) (x : Store) : (s.withStore x).nodes = s.nodes := rfl
@[simp] theorem withStore_settings (s : State) (x : Store) : (s.withStore x).settings = s.settings := rfl
@[simp] theorem withStore_climate (s : State) (x : Store) : (s.withStore x).climate = s.climate := rfl
@[simp] theorem withStore_rack (s : State) (x : Store) : (s.withStore x).rack = s.rack := rfl
@[simp] theorem withStore_fire (s : State) (x : Store) : (s.withStore x).fire = s.fire := rfl
@[simp] theorem withStore_custody (s : State) (x : Store) : (s.withStore x).custody = s.custody := rfl
@[simp] theorem withStore_orders (s : State) (x : Store) : (s.withStore x).orders = s.orders := rfl
@[simp] theorem withStore_hatch (s : State) (x : Store) : (s.withStore x).hatch = s.hatch := rfl
@[simp] theorem withStore_handover (s : State) (x : Store) : (s.withStore x).handover = s.handover := rfl
@[simp] theorem withStore_store (s : State) (x : Store) : (s.withStore x).store = x := rfl
@[simp] theorem withStore_pending (s : State) (x : Store) : (s.withStore x).pending = s.pending := rfl

@[simp] theorem withPending_device (s : State) (x : List Instr) : (s.withPending x).device = s.device := rfl
@[simp] theorem withPending_host (s : State) (x : List Instr) : (s.withPending x).host = s.host := rfl
@[simp] theorem withPending_notices (s : State) (x : List Instr) : (s.withPending x).notices = s.notices := rfl
@[simp] theorem withPending_link (s : State) (x : List Instr) : (s.withPending x).link = s.link := rfl
@[simp] theorem withPending_nodes (s : State) (x : List Instr) : (s.withPending x).nodes = s.nodes := rfl
@[simp] theorem withPending_settings (s : State) (x : List Instr) : (s.withPending x).settings = s.settings := rfl
@[simp] theorem withPending_climate (s : State) (x : List Instr) : (s.withPending x).climate = s.climate := rfl
@[simp] theorem withPending_rack (s : State) (x : List Instr) : (s.withPending x).rack = s.rack := rfl
@[simp] theorem withPending_fire (s : State) (x : List Instr) : (s.withPending x).fire = s.fire := rfl
@[simp] theorem withPending_custody (s : State) (x : List Instr) : (s.withPending x).custody = s.custody := rfl
@[simp] theorem withPending_orders (s : State) (x : List Instr) : (s.withPending x).orders = s.orders := rfl
@[simp] theorem withPending_hatch (s : State) (x : List Instr) : (s.withPending x).hatch = s.hatch := rfl
@[simp] theorem withPending_handover (s : State) (x : List Instr) : (s.withPending x).handover = s.handover := rfl
@[simp] theorem withPending_store (s : State) (x : List Instr) : (s.withPending x).store = s.store := rfl
@[simp] theorem withPending_pending (s : State) (x : List Instr) : (s.withPending x).pending = x := rfl

end Sys2Proof.Machine.State
end

