-- ==== Sys2Proof/Laws/Table.lean ====
section
/-! SUPPORT. Laws/Table: every operation on a table keeps its canonical form, and reads after writes. -/

namespace Sys2Proof.Machine.Table

variable {α β : Type}

theorem risingFrom_mono {t : Table α} {a b : Nat} (hab : a ≤ b) (h : t.risingFrom b) : t.risingFrom a := by
  cases t with
  | nil => trivial
  | cons p t => exact ⟨Nat.le_trans hab h.1, h.2⟩

theorem put_risingFrom {t : Table α} {lo n : Nat} {a : α} (hn : lo ≤ n) (h : t.risingFrom lo) :
    (t.put n a).risingFrom lo := by
  induction t generalizing lo with
  | nil => exact ⟨hn, trivial⟩
  | cons p t ih =>
    obtain ⟨k, v⟩ := p
    obtain ⟨hk, ht⟩ := h
    unfold put
    split
    · exact ⟨hn, by omega, ht⟩
    · split
      · next heq => subst heq; exact ⟨hn, ht⟩
      · exact ⟨hk, ih (by omega) ht⟩

/-- Putting an entry keeps the canonical form. -/
theorem put_rising {t : Table α} {n : Nat} {a : α} (h : t.rising) : (t.put n a).rising :=
  put_risingFrom (Nat.zero_le n) h

theorem erase_risingFrom {t : Table α} {lo n : Nat} (h : t.risingFrom lo) : (t.erase n).risingFrom lo := by
  induction t generalizing lo with
  | nil => trivial
  | cons p t ih =>
    obtain ⟨k, v⟩ := p
    obtain ⟨hk, ht⟩ := h
    unfold erase
    split
    · exact risingFrom_mono (Nat.le_succ_of_le hk) (ih ht)
    · exact ⟨hk, ih ht⟩

/-- Freeing a place keeps the canonical form. -/
theorem erase_rising {t : Table α} {n : Nat} (h : t.rising) : (t.erase n).rising := erase_risingFrom h

/-- Setting or freeing a place keeps the canonical form. -/
theorem set_rising {t : Table α} {n : Nat} {o : Option α} (h : t.rising) : (t.set n o).rising := by
  cases o with
  | none => exact erase_rising h
  | some a => exact put_rising h

theorem map_risingFrom {t : Table α} {f : Nat × α → β} {lo : Nat} (h : t.risingFrom lo) :
    Table.risingFrom (t.map fun p => (p.1, f p)) lo := by
  induction t generalizing lo with
  | nil => trivial
  | cons p t ih =>
    obtain ⟨k, v⟩ := p
    exact ⟨h.1, ih h.2⟩

/-- Changing every entry in its place keeps the canonical form. -/
theorem map_rising {t : Table α} {f : Nat × α → β} (h : t.rising) :
    Table.rising (t.map fun p => (p.1, f p)) := map_risingFrom h

theorem filter_risingFrom {t : Table α} {f : Nat × α → Bool} {lo : Nat} (h : t.risingFrom lo) :
    Table.risingFrom (t.filter f) lo := by
  induction t generalizing lo with
  | nil => trivial
  | cons p t ih =>
    obtain ⟨k, v⟩ := p
    obtain ⟨hk, ht⟩ := h
    rw [List.filter_cons]
    split
    · exact ⟨hk, ih ht⟩
    · exact risingFrom_mono (Nat.le_succ_of_le hk) (ih ht)

/-- Keeping some entries keeps the canonical form. -/
theorem filter_rising {t : Table α} {f : Nat × α → Bool} (h : t.rising) :
    Table.rising (t.filter f) := filter_risingFrom h

/-- An entry put at a place is read there. -/
@[simp] theorem get?_put_same (t : Table α) (n : Nat) (a : α) : (t.put n a).get? n = some a := by
  induction t with
  | nil => simp [put, get?]
  | cons p t ih =>
    obtain ⟨k, v⟩ := p
    unfold put
    split
    · simp [get?]
    · split
      · simp [get?]
      · next h1 h2 =>
        have : k ≠ n := fun h => h2 h.symm
        simp [get?, this, ih]

/-- An entry put at another place is not read here. -/
theorem get?_put_other (t : Table α) {n m : Nat} (a : α) (h : m ≠ n) : (t.put n a).get? m = t.get? m := by
  induction t with
  | nil => simp [put, get?, Ne.symm h]
  | cons p t ih =>
    obtain ⟨k, v⟩ := p
    unfold put
    split
    · simp [get?, Ne.symm h]
    · split
      · next heq => subst heq; simp [get?, Ne.symm h]
      · simp only [get?]; split
        · rfl
        · exact ih

/-- A freed place reads as free. -/
@[simp] theorem get?_erase_same (t : Table α) (n : Nat) : (t.erase n).get? n = none := by
  induction t with
  | nil => rfl
  | cons p t ih =>
    obtain ⟨k, v⟩ := p
    unfold erase
    split
    · exact ih
    · next h => simp [get?, h, ih]

/-- Freeing another place changes nothing here. -/
theorem get?_erase_other (t : Table α) {n m : Nat} (h : m ≠ n) : (t.erase n).get? m = t.get? m := by
  induction t with
  | nil => rfl
  | cons p t ih =>
    obtain ⟨k, v⟩ := p
    unfold erase
    split
    · next heq => subst heq; simp [get?, Ne.symm h, ih]
    · simp only [get?]; split
      · rfl
      · exact ih

end Sys2Proof.Machine.Table
end

