-- ==== Sys2Proof/Laws/Moves.lean ====
section
/-! SUPPORT. Laws/Moves: what the operations inside an event can do, said once. `Moves A s t`: t comes from
s by updates of the blocks that A allows, which keep the lines, the waiting commands, and each invariant of
Safety. Every operation of the model is such a move (the other Moves files), so an invariant, or a frame, is
shown once for the moves. -/

namespace Sys2Proof.Machine

/-- The lines of a device. -/
def Device.lines (d : Device) : Bool × Bool × Bool × Bool :=
  (d.powered, d.rst, d.powerOnPending, d.hrateStrap)

/-- Whether a table update of a block keeps the canonical form. -/
def KeepsRising {α : Type} (a b : Table α) : Prop := a.rising → b.rising

theorem Table.put_keeps {α : Type} {t : Table α} {n : Nat} {a : α} : KeepsRising t (t.put n a) :=
  fun h => Table.put_rising h

theorem Table.erase_keeps {α : Type} {t : Table α} {n : Nat} : KeepsRising t (t.erase n) :=
  fun h => Table.erase_rising h

theorem Table.set_keeps {α : Type} {t : Table α} {n : Nat} {o : Option α} : KeepsRising t (t.set n o) :=
  fun h => Table.set_rising h

theorem Table.map_keeps {α : Type} {t : Table α} {f : Nat × α → α} :
    KeepsRising t (t.map fun p => (p.1, f p)) := fun h => Table.map_rising h

theorem Table.filter_keeps {α : Type} {t : Table α} {f : Nat × α → Bool} : KeepsRising t (t.filter f) :=
  fun h => Table.filter_rising h

/-- The blocks that a move may touch: `contexts` and `roster` are the two parts of the Handover Sequencer,
`image` is the settings image of the retained store, `air` the air state of the hatch. -/
structure Allow where
  (device host notices link nodes settings climate rack fire custody orders hatch contexts roster : Prop)
  (store image air : Prop)

/-- Every block. -/
def Allow.all : Allow :=
  ⟨True, True, True, True, True, True, True, True, True, True, True, True, True, True, True, True, True⟩

/-- A move by updates of blocks. -/
inductive Moves (A : Allow) (s : State) : State → Prop where
  | refl : Moves A s s
  | post {t : State} (n : Notice) : A.notices → Moves A s t → Moves A s (post n t)
  | notices {t : State} (m : Byte) : A.notices → Moves A s t →
      Moves A s (t.withNotices { t.notices with mask := m })
  | device {t : State} (x : Device) : A.device → x.lines = t.device.lines → Moves A s t →
      Moves A s (t.withDevice x)
  | host {t : State} (x : HostLink) : A.host → keptTotal x = keptTotal t.host →
      (refusalTotal t.host ≤ 4 → refusalTotal x ≤ 4) → Moves A s t → Moves A s (t.withHost x)
  | link {t : State} (x : FieldLink) : A.link → (QueueOk t.link → QueueOk x) → Moves A s t →
      Moves A s (t.withLink x)
  | nodes {t : State} (x : Table Node) : A.nodes → KeepsRising t.nodes x → Moves A s t →
      Moves A s (t.withNodes x)
  | settings {t : State} (x : Settings) : A.settings → Moves A s t → Moves A s (t.withSettings x)
  | climate {t : State} (x : Climate) : A.climate → KeepsRising t.climate.probes x.probes → Moves A s t →
      Moves A s (t.withClimate x)
  | rack {t : State} (x : Rack) : A.rack → Moves A s t → Moves A s (t.withRack x)
  | fire {t : State} (x : Fire) : A.fire → Moves A s t → Moves A s (t.withFire x)
  | custody {t : State} (x : Custody) : A.custody → KeepsRising t.custody.records x.records →
      Moves A s t → Moves A s (t.withCustody x)
  | orders {t : State} (x : Table Order) : A.orders → KeepsRising t.orders x → Moves A s t →
      Moves A s (t.withOrders x)
  | hatch {t : State} (x : Hatch) : A.hatch → (LocksSafe t.hatch → LocksSafe x) →
      (x.exitLock = t.hatch.exitLock ∨ x.exitLock = exitLockWanted t) →
      (A.air ∨ x.air = t.hatch.air) → Moves A s t →
      Moves A s (t.withHatch x)
  | contexts {t : State} (x : Table Context) : A.contexts → KeepsRising t.handover.contexts x →
      Moves A s t → Moves A s (t.withHandover { t.handover with contexts := x })
  | roster {t : State} (x : Table Courier) : A.roster → KeepsRising t.handover.roster x →
      Moves A s t → Moves A s (t.withHandover { t.handover with roster := x })
  | store {t : State} (x : Store) : A.store → (A.image ∨ x.settings = t.store.settings) →
      KeepsRising t.store.records x.records → KeepsRising t.store.roster x.roster → Moves A s t →
      Moves A s (t.withStore x)

namespace Moves

variable {A B : Allow} {s t u : State}

theorem trans (h : Moves A s t) (g : Moves A t u) : Moves A s u := by
  induction g with
  | refl => exact h
  | post n a _ ih => exact .post n a ih
  | notices m a _ ih => exact .notices m a ih
  | device x a h1 _ ih => exact .device x a h1 ih
  | host x a h1 h2 _ ih => exact .host x a h1 h2 ih
  | link x a h1 _ ih => exact .link x a h1 ih
  | nodes x a h1 _ ih => exact .nodes x a h1 ih
  | settings x a _ ih => exact .settings x a ih
  | climate x a h1 _ ih => exact .climate x a h1 ih
  | rack x a _ ih => exact .rack x a ih
  | fire x a _ ih => exact .fire x a ih
  | custody x a h1 _ ih => exact .custody x a h1 ih
  | orders x a h1 _ ih => exact .orders x a h1 ih
  | hatch x a h1 h2 h3 _ ih => exact .hatch x a h1 h2 h3 ih
  | contexts x a h1 _ ih => exact .contexts x a h1 ih
  | roster x a h1 _ ih => exact .roster x a h1 ih
  | store x a h1 h2 h3 _ ih => exact .store x a h1 h2 h3 ih

/-- A fold of moves is a move. -/
theorem foldl {α : Type} {f : State → α → State} (l : List α)
    (hf : ∀ a t, Moves A s t → Moves A s (f t a)) (h : Moves A s t) : Moves A s (l.foldl f t) := by
  induction l generalizing t with
  | nil => exact h
  | cons a l ih => exact ih (hf a t h)

end Moves

/-! ## What every move keeps -/

/-! ### Invariants -/

theorem post_noticesOk (n : Notice) {s : State} (h : NoticesOk s.notices) :
    NoticesOk (post n s).notices := by
  refine ⟨Table.put_rising h.1, ?_⟩
  have key : ∀ (t : Table Notice), (∀ p ∈ t, p.1 = p.2.rank) → ∀ p ∈ t.put n.rank n, p.1 = p.2.rank := by
    intro t
    induction t with
    | nil => intro _ p hp; simp only [Table.put, List.mem_singleton] at hp; subst hp; rfl
    | cons q t ih =>
      intro hq p hp
      obtain ⟨k, v⟩ := q
      unfold Table.put at hp
      split at hp
      · rcases List.mem_cons.1 hp with rfl | hp
        · rfl
        · exact hq p hp
      · split at hp
        · rcases List.mem_cons.1 hp with rfl | hp
          · rfl
          · exact hq p (List.mem_cons_of_mem _ hp)
        · rcases List.mem_cons.1 hp with rfl | hp
          · exact hq _ List.mem_cons_self
          · exact ih (fun p hp => hq p (List.mem_cons_of_mem _ hp)) p hp
  exact key _ h.2

theorem Moves.outside {A : Allow} {s t : State} (h : Moves A s t) : t.outside = s.outside := by
  induction h with
  | refl => rfl
  | device x _ hx _ ih =>
    simp only [State.outside, Device.lines, Prod.mk.injEq] at *
    obtain ⟨h1, h2, h3, h4⟩ := hx
    exact ⟨h1.trans ih.1, h2.trans ih.2.1, h3.trans ih.2.2.1, h4.trans ih.2.2.2.1, ih.2.2.2.2⟩
  | _ => assumption

theorem Moves.keptTotal {A : Allow} {s t : State} (h : Moves A s t) :
    Machine.keptTotal t.host = Machine.keptTotal s.host := by
  induction h with
  | refl => rfl
  | host x _ h1 _ _ ih => exact h1.trans ih
  | _ => assumption

theorem Moves.refusals {A : Allow} {s t : State} (h : Moves A s t) (hs : refusalTotal s.host ≤ 4) :
    refusalTotal t.host ≤ 4 := by
  induction h with
  | refl => exact hs
  | host x _ _ h2 _ ih => exact h2 ih
  | _ => assumption

theorem Moves.repliesOk {A : Allow} {s t : State} (h : Moves A s t) (hs : RepliesOk s.host) :
    RepliesOk t.host := ⟨by rw [h.keptTotal]; exact hs.1, h.refusals hs.2⟩

theorem Moves.noticesOk {A : Allow} {s t : State} (h : Moves A s t) (hs : NoticesOk s.notices) :
    NoticesOk t.notices := by
  induction h with
  | refl => exact hs
  | post n _ _ ih => exact post_noticesOk n ih
  | _ => assumption

theorem Moves.queueOk {A : Allow} {s t : State} (h : Moves A s t) (hs : QueueOk s.link) :
    QueueOk t.link := by
  induction h with
  | refl => exact hs
  | link x _ h1 _ ih => exact h1 ih
  | _ => assumption

theorem Moves.locksSafe {A : Allow} {s t : State} (h : Moves A s t) (hs : LocksSafe s.hatch) :
    LocksSafe t.hatch := by
  induction h with
  | refl => exact hs
  | hatch x _ h1 _ _ _ ih => exact h1 ih
  | _ => assumption

theorem Moves.tablesOk {A : Allow} {s t : State} (h : Moves A s t) (hs : TablesOk s) : TablesOk t := by
  induction h with
  | refl => exact hs
  | nodes x _ h1 _ ih => obtain ⟨a, b⟩ := ih; exact ⟨h1 a, b⟩
  | climate x _ h1 _ ih => obtain ⟨a, b, c, d, e, f, g⟩ := ih; exact ⟨a, b, c, d, e, h1 f, g⟩
  | custody x _ h1 _ ih => obtain ⟨a, b, c⟩ := ih; exact ⟨a, h1 b, c⟩
  | orders x _ h1 _ ih => obtain ⟨a, b, c, d⟩ := ih; exact ⟨a, b, h1 c, d⟩
  | contexts x _ h1 _ ih => obtain ⟨a, b, c, d, e⟩ := ih; exact ⟨a, b, c, h1 d, e⟩
  | roster x _ h1 _ ih => obtain ⟨a, b, c, d, e, f⟩ := ih; exact ⟨a, b, c, d, h1 e, f⟩
  | store x _ _ h1 h2 _ ih =>
    obtain ⟨a, b, c, d, e, f, g, i⟩ := ih; exact ⟨a, b, c, d, e, f, h1 g, h2 i⟩
  | _ => assumption

/-- R134: while some zone is in fire, a move that leaves the fire records alone keeps the exit lock unlocked. -/
theorem Moves.exitUnlocked {A : Allow} {s t : State} (h : Moves A s t) (n : ¬A.fire)
    (hs : someFire s = true) (hl : s.hatch.exitLock = .unlocked) :
    t.hatch.exitLock = .unlocked ∧ t.fire = s.fire := by
  induction h with
  | refl => exact ⟨hl, rfl⟩
  | fire _ a => exact absurd a n
  | hatch x _ _ h2 _ _ ih =>
    refine ⟨?_, ih.2⟩
    rcases h2 with h2 | h2
    · exact h2.trans ih.1
    · rw [State.withHatch_hatch, h2]
      have e : ∀ u : State, u.fire = s.fire → someFire u = someFire s := by
        intro u hu; simp only [someFire, State.zoneFire, hu]
      simp only [exitLockWanted, e _ ih.2, hs, Bool.not_true, Bool.and_false, Bool.false_eq_true, if_false]
  | _ => assumption

/-! ### Frames: a block that a move may not touch stands -/

theorem Moves.host_eq {A : Allow} {s t : State} (h : Moves A s t) (n : ¬A.host) : t.host = s.host := by
  induction h with
  | refl => rfl
  | host _ a => exact absurd a n
  | _ => assumption

theorem Moves.link_eq {A : Allow} {s t : State} (h : Moves A s t) (n : ¬A.link) : t.link = s.link := by
  induction h with
  | refl => rfl
  | link _ a => exact absurd a n
  | _ => assumption

theorem Moves.nodes_eq {A : Allow} {s t : State} (h : Moves A s t) (n : ¬A.nodes) : t.nodes = s.nodes := by
  induction h with
  | refl => rfl
  | nodes _ a => exact absurd a n
  | _ => assumption

theorem Moves.settings_eq {A : Allow} {s t : State} (h : Moves A s t) (n : ¬A.settings) : t.settings = s.settings := by
  induction h with
  | refl => rfl
  | settings _ a => exact absurd a n
  | _ => assumption

theorem Moves.climate_eq {A : Allow} {s t : State} (h : Moves A s t) (n : ¬A.climate) : t.climate = s.climate := by
  induction h with
  | refl => rfl
  | climate _ a => exact absurd a n
  | _ => assumption

theorem Moves.rack_eq {A : Allow} {s t : State} (h : Moves A s t) (n : ¬A.rack) : t.rack = s.rack := by
  induction h with
  | refl => rfl
  | rack _ a => exact absurd a n
  | _ => assumption

theorem Moves.fire_eq {A : Allow} {s t : State} (h : Moves A s t) (n : ¬A.fire) : t.fire = s.fire := by
  induction h with
  | refl => rfl
  | fire _ a => exact absurd a n
  | _ => assumption

theorem Moves.custody_eq {A : Allow} {s t : State} (h : Moves A s t) (n : ¬A.custody) : t.custody = s.custody := by
  induction h with
  | refl => rfl
  | custody _ a => exact absurd a n
  | _ => assumption

theorem Moves.orders_eq {A : Allow} {s t : State} (h : Moves A s t) (n : ¬A.orders) : t.orders = s.orders := by
  induction h with
  | refl => rfl
  | orders _ a => exact absurd a n
  | _ => assumption

theorem Moves.hatch_eq {A : Allow} {s t : State} (h : Moves A s t) (n : ¬A.hatch) : t.hatch = s.hatch := by
  induction h with
  | refl => rfl
  | hatch _ a => exact absurd a n
  | _ => assumption

theorem Moves.device_eq {A : Allow} {s t : State} (h : Moves A s t) (n : ¬A.device) :
    t.device = s.device := by
  induction h with
  | refl => rfl
  | device _ a => exact absurd a n
  | _ => assumption

theorem Moves.notices_eq {A : Allow} {s t : State} (h : Moves A s t) (n : ¬A.notices) :
    t.notices = s.notices := by
  induction h with
  | refl => rfl
  | post _ a => exact absurd a n
  | notices _ a => exact absurd a n
  | _ => assumption

theorem Moves.contexts_eq {A : Allow} {s t : State} (h : Moves A s t) (n : ¬A.contexts) :
    t.handover.contexts = s.handover.contexts := by
  induction h with
  | refl => rfl
  | contexts _ a => exact absurd a n
  | _ => assumption

theorem Moves.roster_eq {A : Allow} {s t : State} (h : Moves A s t) (n : ¬A.roster) :
    t.handover.roster = s.handover.roster := by
  induction h with
  | refl => rfl
  | roster _ a => exact absurd a n
  | _ => assumption

theorem Moves.air_eq {A : Allow} {s t : State} (h : Moves A s t) (n : ¬A.air) :
    t.hatch.air = s.hatch.air := by
  induction h with
  | refl => rfl
  | hatch x _ _ _ e _ ih => exact (e.resolve_left n).trans ih
  | _ => assumption

theorem Moves.store_eq {A : Allow} {s t : State} (h : Moves A s t) (n : ¬A.store) :
    t.store = s.store := by
  induction h with
  | refl => rfl
  | store _ a => exact absurd a n
  | _ => assumption

theorem Moves.image_eq {A : Allow} {s t : State} (h : Moves A s t) (n : ¬A.image) :
    t.store.settings = s.store.settings := by
  induction h with
  | refl => rfl
  | store x _ e _ _ _ ih => exact (e.resolve_left n).trans ih
  | _ => assumption

end Sys2Proof.Machine
end

