-- ==== Sys2Proof/Laws/MovesOps.lean ====
section
/-! SUPPORT. Laws/MovesOps: the operations of Machine/Ops are moves. -/

namespace Sys2Proof.Machine

variable {A : Allow} {s₀ s : State}

theorem post_moves (n : Notice) (hs : Moves A s₀ s) (aN : A.notices) : Moves A s₀ (post n s) :=
  .post n aN hs

/-- The entry of a node and command is the only one of its key (R38). -/
theorem postTo_queueOk (node : Nat) (cmd : CmdKind) (data : List Byte) (l : FieldLink) (h : QueueOk l) :
    QueueOk { l with queue := (l.queue.filter fun e => !(e.node == node && e.cmd == cmd)) ++
      [{ node := node, cmd := cmd, data := data, inFlight := false }] } := by
  unfold QueueOk at *
  rw [List.map_append, List.nodup_append]
  refine ⟨(List.Sublist.map _ List.filter_sublist).nodup h, by simp, ?_⟩
  intro a ha b hb hab
  simp only [List.map_cons, List.map_nil, List.mem_singleton] at hb
  subst hb; subst hab
  obtain ⟨e, he, heq⟩ := List.mem_map.1 ha
  have := (List.mem_filter.1 he).2
  simp only [Prod.mk.injEq] at heq
  simp [heq.1, heq.2] at this

theorem postTo_moves (node : Nat) (cmd : CmdKind) (data : List Byte) (hs : Moves A s₀ s) (aL : A.link) :
    Moves A s₀ (postTo node cmd data s) := .link _ aL (postTo_queueOk node cmd data _) hs

theorem postCommand_moves (t : Target) (cmd : CmdKind) (data : List Byte) (hs : Moves A s₀ s) (aL :
    A.link) :
    Moves A s₀ (postCommand t cmd data s) := by
  unfold postCommand
  (try dsimp only)
  repeat' first
    | with_reducible assumption | with_reducible apply postTo_moves | split

theorem postMode_moves (z : Fin 8) (hs : Moves A s₀ s) (aL : A.link) :
    Moves A s₀ (postMode z s) := by
  unfold postMode
  (try dsimp only)
  repeat' first
    | with_reducible assumption | with_reducible apply postCommand_moves

theorem postRelease_moves (z : Fin 8) (hs : Moves A s₀ s) (aL : A.link) :
    Moves A s₀ (postRelease z s) := by
  unfold postRelease
  (try dsimp only)
  repeat' first
    | with_reducible assumption | with_reducible apply postCommand_moves

theorem postPrompt_moves (p : Prompt) (arg : Nat) (hs : Moves A s₀ s) (aL : A.link) :
    Moves A s₀ (postPrompt p arg s) := by
  unfold postPrompt
  (try dsimp only)
  repeat' first
    | with_reducible assumption | with_reducible apply postCommand_moves

theorem signalReject_moves (hs : Moves A s₀ s) (aL : A.link) :
    Moves A s₀ (signalReject s) := by
  unfold signalReject
  (try dsimp only)
  repeat' first
    | with_reducible assumption | with_reducible apply postCommand_moves

theorem faultStore_moves (hs : Moves A s₀ s) (aD : A.device) (aN : A.notices) :
    Moves A s₀ (faultStore s) := by
  unfold faultStore
  (try dsimp only)
  repeat' first
    | with_reducible assumption | with_reducible apply post_moves | with_reducible apply Moves.device
    | rfl | exact (fun hx => hx) | split

theorem afterWrite_moves (fails : Bool) (hs : Moves A s₀ s) (aD : A.device) (aN : A.notices) :
    Moves A s₀ (afterWrite fails s) := by
  unfold afterWrite
  (try dsimp only)
  repeat' first
    | with_reducible assumption | with_reducible apply faultStore_moves | split

theorem writeRecord_moves (i : Nat) (hs : Moves A s₀ s) (aD : A.device) (aN : A.notices)
    (aM : A.store) : Moves A s₀ (writeRecord i s) :=
  afterWrite_moves _ (.store _ aM (.inr rfl) Table.put_keeps (fun hx => hx) hs) aD aN

theorem writeCourier_moves (i : Nat) (hs : Moves A s₀ s) (aD : A.device) (aN : A.notices)
    (aM : A.store) : Moves A s₀ (writeCourier i s) :=
  afterWrite_moves _ (.store _ aM (.inr rfl) (fun hx => hx) Table.put_keeps hs) aD aN

theorem writeSettings_moves (hs : Moves A s₀ s) (aD : A.device) (aN : A.notices) (aM : A.store)
    (aI : A.image) : Moves A s₀ (writeSettings s) :=
  afterWrite_moves _ (.store _ aM (.inl aI) (fun hx => hx) (fun hx => hx) hs) aD aN

theorem putRecord_moves (i : Nat) (r : Record) (hs : Moves A s₀ s) (aU : A.custody) :
    Moves A s₀ (putRecord i r s) := by
  unfold putRecord
  (try dsimp only)
  repeat' first
    | with_reducible assumption | with_reducible apply Moves.custody | exact Table.put_keeps
    | exact (fun hx => hx)

theorem setNewest_moves (n : Option Nat) (hs : Moves A s₀ s) (aU : A.custody) :
    Moves A s₀ (setNewest n s) := by
  unfold setNewest
  (try dsimp only)
  repeat' first
    | with_reducible assumption | with_reducible apply Moves.custody | exact (fun hx => hx)

theorem blockedNote_moves (quiet : Bool) (i : Nat) (before after : CState) (hs : Moves A s₀ s) (aN :
    A.notices) (aU : A.custody) :
    Moves A s₀ (blockedNote quiet i before after s) := by
  unfold blockedNote
  (try dsimp only)
  repeat' first
    | with_reducible assumption | with_reducible apply setNewest_moves | with_reducible apply post_moves
    | split

theorem basicChange_moves (quiet : Bool) (i : Nat) (new : Record) (hs : Moves A s₀ s) (aD : A.device)
    (aN : A.notices) (aU : A.custody) (aM : A.store) :
    Moves A s₀ (basicChange quiet i new s) := by
  unfold basicChange
  (try dsimp only)
  repeat' first
    | with_reducible assumption | with_reducible apply blockedNote_moves
    | with_reducible apply writeRecord_moves | with_reducible apply putRecord_moves | split

theorem dropOrderSlot_moves (i : Nat) (hs : Moves A s₀ s) (aD : A.device) (aN : A.notices) (aU :
    A.custody) (aM : A.store) :
    Moves A s₀ (dropOrderSlot i s) := by
  unfold dropOrderSlot
  (try dsimp only)
  repeat' first
    | with_reducible assumption | with_reducible apply writeRecord_moves
    | with_reducible apply putRecord_moves | split

theorem setPosition_moves (p : Fin 12) (x : Position) (hs : Moves A s₀ s) (aR : A.rack) :
    Moves A s₀ (setPosition p x s) := by
  unfold setPosition
  (try dsimp only)
  repeat' first
    | with_reducible assumption | with_reducible apply Moves.rack | exact (fun hx => hx)

theorem postRack_moves (p : Fin 12) (event : RackEvent) (item : Option Occupant) (hs : Moves A s₀ s) (aN
    : A.notices) :
    Moves A s₀ (postRack p event item s) := by
  unfold postRack
  (try dsimp only)
  repeat' first
    | with_reducible assumption | with_reducible apply post_moves | split

theorem emptyPosition_moves (p : Fin 12) (hs : Moves A s₀ s) (aN : A.notices) (aR : A.rack) :
    Moves A s₀ (emptyPosition p s) := by
  unfold emptyPosition
  (try dsimp only)
  repeat' first
    | with_reducible assumption | with_reducible apply postRack_moves
    | with_reducible apply setPosition_moves | split

theorem rackTold_moves (i : Nat) (old : Record) (hs : Moves A s₀ s) (aN : A.notices) (aR : A.rack) :
    Moves A s₀ (rackTold i old s) := by
  unfold rackTold
  (try dsimp only)
  repeat' first
    | with_reducible assumption | with_reducible apply emptyPosition_moves
    | with_reducible apply postRack_moves | with_reducible apply setPosition_moves | split

theorem putContext_moves (c : Nat) (x : Context) (hs : Moves A s₀ s) (aX : A.contexts) :
    Moves A s₀ (putContext c x s) := by
  unfold putContext
  (try dsimp only)
  repeat' first
    | with_reducible assumption | with_reducible apply Moves.contexts | exact Table.put_keeps
    | exact (fun hx => hx)

theorem manifestPrompt_moves (c : Nat) (hs : Moves A s₀ s) (aL : A.link) :
    Moves A s₀ (manifestPrompt c s) := by
  unfold manifestPrompt
  (try dsimp only)
  repeat' first
    | with_reducible assumption | with_reducible apply postPrompt_moves | split

theorem dropManifest_moves (c i : Nat) (hs : Moves A s₀ s) (aX : A.contexts) :
    Moves A s₀ (dropManifest c i s) := by
  unfold dropManifest
  (try dsimp only)
  repeat' first
    | with_reducible assumption | with_reducible apply putContext_moves | split | intro

theorem handoverTold_moves (i : Nat) (old : Record) (hs : Moves A s₀ s) (aL : A.link) (aX : A.contexts)
    :
    Moves A s₀ (handoverTold i old s) := by
  unfold handoverTold
  (try dsimp only)
  repeat' first
    | with_reducible assumption | with_reducible apply manifestPrompt_moves
    | with_reducible apply dropManifest_moves | with_reducible apply Moves.foldl | split | intro

theorem expose_moves (i : Nat) (hs : Moves A s₀ s) (aD : A.device) (aN : A.notices) (aU : A.custody) (aM
    : A.store) :
    Moves A s₀ (expose i s) := by
  unfold expose
  (try dsimp only)
  repeat' first
    | with_reducible assumption | with_reducible apply writeRecord_moves
    | with_reducible apply putRecord_moves | split

theorem climateTold_moves (i : Nat) (old : Option Location) (hs : Moves A s₀ s) (aD : A.device) (aN :
    A.notices) (aU : A.custody) (aM : A.store) :
    Moves A s₀ (climateTold i old s) := by
  unfold climateTold
  (try dsimp only)
  repeat' first
    | with_reducible assumption | with_reducible apply expose_moves | split

theorem tellOthers_moves (who : Claimant) (i : Nat) (old : Record) (hs : Moves A s₀ s) (aD : A.device)
    (aN : A.notices) (aL : A.link) (aR : A.rack) (aU : A.custody) (aX : A.contexts) (aM : A.store) :
    Moves A s₀ (tellOthers who i old s) := by
  unfold tellOthers
  (try dsimp only)
  repeat' first
    | with_reducible assumption | with_reducible apply handoverTold_moves
    | with_reducible apply rackTold_moves | with_reducible apply climateTold_moves | split

theorem putOrder_moves (k : Nat) (o : Order) (hs : Moves A s₀ s) (aQ : A.orders) :
    Moves A s₀ (putOrder k o s) := by
  unfold putOrder
  (try dsimp only)
  repeat' first
    | with_reducible assumption | with_reducible apply Moves.orders | exact Table.put_keeps
    | exact (fun hx => hx)

theorem postOrder_moves (k : Nat) (hs : Moves A s₀ s) (aN : A.notices) :
    Moves A s₀ (postOrder k s) := by
  unfold postOrder
  (try dsimp only)
  repeat' first
    | with_reducible assumption | with_reducible apply post_moves | split

theorem evaluateOrder_moves (k : Nat) (hs : Moves A s₀ s) (aN : A.notices) (aQ : A.orders) :
    Moves A s₀ (evaluateOrder k s) := by
  unfold evaluateOrder
  (try dsimp only)
  repeat' first
    | with_reducible assumption | with_reducible apply postOrder_moves
    | with_reducible apply putOrder_moves | split

theorem releaseEntry_moves (i : Nat) (hs : Moves A s₀ s) (aD : A.device) (aN : A.notices) (aL : A.link)
    (aR : A.rack) (aU : A.custody) (aX : A.contexts) (aM : A.store) :
    Moves A s₀ (releaseEntry i s) := by
  unfold releaseEntry
  (try dsimp only)
  repeat' first
    | with_reducible assumption | with_reducible apply tellOthers_moves
    | with_reducible apply basicChange_moves | with_reducible apply dropOrderSlot_moves | split

theorem finishOrder_moves (k : Nat) (outcome : OOutcome) (hs : Moves A s₀ s) (aD : A.device) (aN :
    A.notices) (aL : A.link) (aR : A.rack) (aU : A.custody) (aQ : A.orders) (aX : A.contexts) (aM :
    A.store) :
    Moves A s₀ (finishOrder k outcome s) := by
  unfold finishOrder
  (try dsimp only)
  repeat' first
    | with_reducible assumption | with_reducible apply postOrder_moves
    | with_reducible apply releaseEntry_moves | with_reducible apply putOrder_moves
    | with_reducible apply Moves.foldl | split | intro

theorem markHanded_moves (k i : Nat) (hs : Moves A s₀ s) (aD : A.device) (aN : A.notices) (aU :
    A.custody) (aQ : A.orders) (aM : A.store) :
    Moves A s₀ (markHanded k i s) := by
  unfold markHanded
  (try dsimp only)
  repeat' first
    | with_reducible assumption | with_reducible apply postOrder_moves
    | with_reducible apply dropOrderSlot_moves | with_reducible apply putOrder_moves | split | intro

theorem orderTold_moves (who : Claimant) (i : Nat) (hs : Moves A s₀ s) (aD : A.device) (aN : A.notices)
    (aL : A.link) (aR : A.rack) (aU : A.custody) (aQ : A.orders) (aX : A.contexts) (aM : A.store) :
    Moves A s₀ (orderTold who i s) := by
  unfold orderTold
  (try dsimp only)
  repeat' first
    | with_reducible assumption | with_reducible apply evaluateOrder_moves
    | with_reducible apply postOrder_moves | with_reducible apply putOrder_moves
    | with_reducible apply markHanded_moves | with_reducible apply finishOrder_moves | split

theorem changeRecord_moves (who : Claimant) (quiet : Bool) (i : Nat) (new : Record) (hs : Moves A s₀ s)
    (aD : A.device) (aN : A.notices) (aL : A.link) (aR : A.rack) (aU : A.custody) (aQ : A.orders) (aX :
    A.contexts) (aM : A.store) :
    Moves A s₀ (changeRecord who quiet i new s) := by
  unfold changeRecord
  (try dsimp only)
  repeat' first
    | with_reducible assumption | with_reducible apply basicChange_moves
    | with_reducible apply orderTold_moves | with_reducible apply tellOthers_moves | split

theorem claim_moves (who : Claimant) (i : Nat) (expected : Record → Bool) (new : Record → Record) (hs :
    Moves A s₀ s) (aD : A.device) (aN : A.notices) (aL : A.link) (aR : A.rack) (aU : A.custody) (aQ :
    A.orders) (aX : A.contexts) (aM : A.store) :
    Moves A s₀ (claim who i expected new s) := by
  unfold claim
  (try dsimp only)
  repeat' first
    | with_reducible assumption | with_reducible apply changeRecord_moves | split

theorem markMissing_moves (who : Claimant) (i : Nat) (hs : Moves A s₀ s) (aD : A.device) (aN :
    A.notices) (aL : A.link) (aR : A.rack) (aU : A.custody) (aQ : A.orders) (aX : A.contexts) (aM :
    A.store) :
    Moves A s₀ (markMissing who i s) := by
  unfold markMissing
  (try dsimp only)
  repeat' first
    | with_reducible assumption | with_reducible apply claim_moves | intro

theorem exposeAll_moves (is : List Nat) (hs : Moves A s₀ s) (aD : A.device) (aN : A.notices) (aU :
    A.custody) (aM : A.store) :
    Moves A s₀ (exposeAll is s) := by
  unfold exposeAll
  (try dsimp only)
  repeat' first
    | with_reducible assumption | with_reducible apply expose_moves | with_reducible apply Moves.foldl
    | intro

theorem zoneExposureSweep_moves (z : Fin 8) (hs : Moves A s₀ s) (aD : A.device) (aN : A.notices) (aU :
    A.custody) (aM : A.store) :
    Moves A s₀ (zoneExposureSweep z s) := by
  unfold zoneExposureSweep
  (try dsimp only)
  repeat' first
    | with_reducible assumption | with_reducible apply exposeAll_moves | intro

theorem hatchExposureSweep_moves (hs : Moves A s₀ s) (aD : A.device) (aN : A.notices) (aU : A.custody)
    (aM : A.store) :
    Moves A s₀ (hatchExposureSweep s) := by
  unfold hatchExposureSweep
  (try dsimp only)
  repeat' first
    | with_reducible assumption | with_reducible apply exposeAll_moves | intro

theorem quarantine_moves (z : Fin 8) (hs : Moves A s₀ s) (aD : A.device) (aN : A.notices) (aL : A.link)
    (aR : A.rack) (aU : A.custody) (aQ : A.orders) (aX : A.contexts) (aM : A.store) :
    Moves A s₀ (quarantine z s) := by
  unfold quarantine
  (try dsimp only)
  repeat' first
    | with_reducible assumption | with_reducible apply changeRecord_moves
    | with_reducible apply setNewest_moves | with_reducible apply post_moves
    | with_reducible apply Moves.foldl | split | intro

theorem ordersContextEnded_moves (c : Nat) (hs : Moves A s₀ s) (aD : A.device) (aN : A.notices) (aL :
    A.link) (aR : A.rack) (aU : A.custody) (aQ : A.orders) (aX : A.contexts) (aM : A.store) :
    Moves A s₀ (ordersContextEnded c s) := by
  unfold ordersContextEnded
  (try dsimp only)
  repeat' first
    | with_reducible assumption | with_reducible apply finishOrder_moves
    | with_reducible apply postOrder_moves | with_reducible apply putOrder_moves
    | with_reducible apply Moves.foldl | split | intro

theorem ordersFailFire_moves (z : Fin 8) (hs : Moves A s₀ s) (aD : A.device) (aN : A.notices) (aL :
    A.link) (aR : A.rack) (aU : A.custody) (aQ : A.orders) (aX : A.contexts) (aM : A.store) :
    Moves A s₀ (ordersFailFire z s) := by
  unfold ordersFailFire
  (try dsimp only)
  repeat' first
    | with_reducible assumption | with_reducible apply finishOrder_moves
    | with_reducible apply Moves.foldl | split | intro

end Sys2Proof.Machine
end

