-- ==== Sys2Proof/Laws/MovesRecords.lean ====
section
/-! SUPPORT. Laws/MovesRecords: the operations of the rack, the Custody Table and the climate are moves. -/

namespace Sys2Proof.Machine

variable {A : Allow} {s₀ s : State}

theorem shelfDepart_moves (i : Nat) (hs : Moves A s₀ s) (aD : A.device) (aN : A.notices) (aL : A.link)
    (aR : A.rack) (aU : A.custody) (aQ : A.orders) (aX : A.contexts) (aM : A.store) :
    Moves A s₀ (shelfDepart i s) := by
  unfold shelfDepart
  (try dsimp only)
  repeat' first
    | with_reducible assumption | with_reducible apply claim_moves | intro

theorem shelfRemoved_moves (n : Nat) (hs : Moves A s₀ s) (aD : A.device) (aN : A.notices) (aL : A.link)
    (aR : A.rack) (aU : A.custody) (aQ : A.orders) (aX : A.contexts) (aM : A.store) :
    Moves A s₀ (shelfRemoved n s) := by
  unfold shelfRemoved
  (try dsimp only)
  repeat' first
    | with_reducible assumption | with_reducible apply shelfDepart_moves | split

theorem leavePosition_moves (i : Nat) (p : Fin 12) (hs : Moves A s₀ s) (aN : A.notices) (aR : A.rack) :
    Moves A s₀ (leavePosition i p s) := by
  unfold leavePosition
  repeat' first
    | with_reducible assumption | with_reducible apply emptyPosition_moves
    | with_reducible apply postRack_moves | split

theorem rackDepart_moves (i : Nat) (p : Fin 12) (hs : Moves A s₀ s) (aD : A.device) (aN : A.notices) (aL
    : A.link) (aR : A.rack) (aU : A.custody) (aQ : A.orders) (aX : A.contexts) (aM : A.store) :
    Moves A s₀ (rackDepart i p s) := by
  unfold rackDepart
  (try dsimp only)
  repeat' first
    | with_reducible assumption | with_reducible apply leavePosition_moves
    | with_reducible apply claim_moves | split | intro

theorem rackRemoved_moves (p : Fin 12) (hs : Moves A s₀ s) (aD : A.device) (aN : A.notices) (aL :
    A.link) (aR : A.rack) (aU : A.custody) (aQ : A.orders) (aX : A.contexts) (aM : A.store) :
    Moves A s₀ (rackRemoved p s) := by
  unfold rackRemoved
  (try dsimp only)
  repeat' first
    | with_reducible assumption | with_reducible apply emptyPosition_moves
    | with_reducible apply rackDepart_moves | split

theorem missedDeparture_moves (i : Nat) (place : Location) (hs : Moves A s₀ s) (aD : A.device) (aN :
    A.notices) (aL : A.link) (aR : A.rack) (aU : A.custody) (aQ : A.orders) (aX : A.contexts) (aM :
    A.store) :
    Moves A s₀ (missedDeparture i place s) := by
  unfold missedDeparture
  (try dsimp only)
  repeat' first
    | with_reducible assumption | with_reducible apply shelfDepart_moves
    | with_reducible apply rackDepart_moves | split

theorem completeDwell_moves (p : Fin 12) (hs : Moves A s₀ s) (aD : A.device) (aN : A.notices) (aL :
    A.link) (aR : A.rack) (aU : A.custody) (aQ : A.orders) (aX : A.contexts) (aM : A.store) :
    Moves A s₀ (completeDwell p s) := by
  unfold completeDwell
  (try dsimp only)
  repeat' first
    | with_reducible assumption | with_reducible apply setPosition_moves
    | with_reducible apply postRack_moves | with_reducible apply changeRecord_moves | split

theorem startDwell_moves (p : Fin 12) (i : Nat) (hs : Moves A s₀ s) (aD : A.device) (aN : A.notices) (aL
    : A.link) (aR : A.rack) (aU : A.custody) (aQ : A.orders) (aX : A.contexts) (aM : A.store) :
    Moves A s₀ (startDwell p i s) := by
  unfold startDwell
  (try dsimp only)
  repeat' first
    | with_reducible assumption | with_reducible apply postRack_moves
    | with_reducible apply setPosition_moves | with_reducible apply completeDwell_moves | split

theorem pausePosition_moves (paused : Bool) (p : Fin 12) (hs : Moves A s₀ s) (aD : A.device) (aN :
    A.notices) (aL : A.link) (aR : A.rack) (aU : A.custody) (aQ : A.orders) (aX : A.contexts) (aM :
    A.store) :
    Moves A s₀ (pausePosition paused p s) := by
  unfold pausePosition
  (try dsimp only)
  repeat' first
    | with_reducible assumption | with_reducible apply postRack_moves
    | with_reducible apply setPosition_moves | with_reducible apply completeDwell_moves | split

theorem updateRackPause_moves (hs : Moves A s₀ s) (aD : A.device) (aN : A.notices) (aL : A.link) (aR :
    A.rack) (aU : A.custody) (aQ : A.orders) (aX : A.contexts) (aM : A.store) :
    Moves A s₀ (updateRackPause s) := by
  unfold updateRackPause
  (try dsimp only)
  repeat' first
    | with_reducible assumption | with_reducible apply pausePosition_moves
    | with_reducible apply Moves.rack | with_reducible apply Moves.foldl | exact (fun hx => hx) | split
    | intro

theorem takeIntoRack_moves (i : Nat) (p : Fin 12) (hs : Moves A s₀ s) (aD : A.device) (aN : A.notices)
    (aL : A.link) (aR : A.rack) (aU : A.custody) (aQ : A.orders) (aX : A.contexts) (aM : A.store) :
    Moves A s₀ (takeIntoRack i p s) := by
  unfold takeIntoRack
  (try dsimp only)
  repeat' first
    | with_reducible assumption | with_reducible apply setPosition_moves
    | with_reducible apply claim_moves | with_reducible apply startDwell_moves
    | with_reducible apply postRack_moves | split | intro

theorem rackInserted_moves (snapshot : Bool) (p : Fin 12) (l : Label) (hs : Moves A s₀ s) (aD :
    A.device) (aN : A.notices) (aL : A.link) (aR : A.rack) (aU : A.custody) (aQ : A.orders) (aX :
    A.contexts) (aM : A.store) :
    Moves A s₀ (rackInserted snapshot p l s) := by
  unfold rackInserted
  (try dsimp only)
  repeat' first
    | with_reducible assumption | with_reducible apply post_moves | with_reducible apply postRack_moves
    | with_reducible apply setPosition_moves | with_reducible apply rackRemoved_moves
    | with_reducible apply takeIntoRack_moves | with_reducible apply missedDeparture_moves | split

theorem rackUnshown_moves (entries : List SnapEntry) (p : Fin 12) (hs : Moves A s₀ s) (aD : A.device)
    (aN : A.notices) (aL : A.link) (aR : A.rack) (aU : A.custody) (aQ : A.orders) (aX : A.contexts) (aM
    : A.store) :
    Moves A s₀ (rackUnshown entries p s) := by
  unfold rackUnshown
  (try dsimp only)
  repeat' first
    | with_reducible assumption | with_reducible apply markMissing_moves
    | with_reducible apply leavePosition_moves | with_reducible apply emptyPosition_moves | with_reducible apply Moves.foldl | split | intro

theorem rackSnapshot_moves (entries : List SnapEntry) (hs : Moves A s₀ s) (aD : A.device) (aN :
    A.notices) (aL : A.link) (aR : A.rack) (aU : A.custody) (aQ : A.orders) (aX : A.contexts) (aM :
    A.store) :
    Moves A s₀ (rackSnapshot entries s) := by
  unfold rackSnapshot
  (try dsimp only)
  repeat' first
    | with_reducible assumption | with_reducible apply rackInserted_moves
    | with_reducible apply rackUnshown_moves | with_reducible apply Moves.foldl | split | intro

theorem carryExpired_moves (i : Nat) (hs : Moves A s₀ s) (aD : A.device) (aN : A.notices) (aL : A.link)
    (aR : A.rack) (aU : A.custody) (aQ : A.orders) (aX : A.contexts) (aM : A.store) :
    Moves A s₀ (carryExpired i s) := by
  unfold carryExpired
  (try dsimp only)
  repeat' first
    | with_reducible assumption | with_reducible apply changeRecord_moves
    | with_reducible apply postRack_moves | split

theorem shelfInserted_moves (snapshot : Bool) (n : Nat) (l : Label) (hs : Moves A s₀ s) (aD : A.device)
    (aN : A.notices) (aL : A.link) (aR : A.rack) (aU : A.custody) (aQ : A.orders) (aX : A.contexts) (aM
    : A.store) :
    Moves A s₀ (shelfInserted snapshot n l s) := by
  unfold shelfInserted
  (try dsimp only)
  repeat' first
    | with_reducible assumption | with_reducible apply post_moves
    | with_reducible apply missedDeparture_moves | with_reducible apply shelfDepart_moves
    | with_reducible apply claim_moves | split | intro

theorem hatchSighted_moves (l : Label) (hs : Moves A s₀ s) (aD : A.device) (aN : A.notices) (aL :
    A.link) (aR : A.rack) (aU : A.custody) (aQ : A.orders) (aX : A.contexts) (aM : A.store) :
    Moves A s₀ (hatchSighted l s) := by
  unfold hatchSighted
  (try dsimp only)
  repeat' first
    | with_reducible assumption | with_reducible apply post_moves | with_reducible apply claim_moves
    | with_reducible apply missedDeparture_moves | split | intro

theorem hatchDeparted_moves (l : Label) (hs : Moves A s₀ s) (aD : A.device) (aN : A.notices) (aL :
    A.link) (aR : A.rack) (aU : A.custody) (aQ : A.orders) (aX : A.contexts) (aM : A.store) :
    Moves A s₀ (hatchDeparted l s) := by
  unfold hatchDeparted
  (try dsimp only)
  repeat' first
    | with_reducible assumption | with_reducible apply claim_moves | split | intro

theorem shelfSnapshot_moves (base limit : Nat) (entries : List SnapEntry) (hs : Moves A s₀ s) (aD :
    A.device) (aN : A.notices) (aL : A.link) (aR : A.rack) (aU : A.custody) (aQ : A.orders) (aX :
    A.contexts) (aM : A.store) :
    Moves A s₀ (shelfSnapshot base limit entries s) := by
  unfold shelfSnapshot
  (try dsimp only)
  repeat' first
    | with_reducible assumption | with_reducible apply shelfInserted_moves
    | with_reducible apply markMissing_moves | with_reducible apply Moves.foldl | split | intro

theorem hatchSnapshotUnowned_moves (labels : List Label) (hs : Moves A s₀ s) (aD : A.device) (aN :
    A.notices) (aL : A.link) (aR : A.rack) (aU : A.custody) (aQ : A.orders) (aX : A.contexts) (aM :
    A.store) :
    Moves A s₀ (hatchSnapshotUnowned labels s) := by
  unfold hatchSnapshotUnowned
  (try dsimp only)
  repeat' first
    | with_reducible assumption | with_reducible apply hatchSighted_moves
    | with_reducible apply markMissing_moves | with_reducible apply Moves.foldl | intro

theorem setAir_moves (z : Fin 9) (a : AirReading) (hs : Moves A s₀ s) (aC : A.climate) :
    Moves A s₀ (setAir z a s) := by
  unfold setAir
  (try dsimp only)
  repeat' first
    | with_reducible assumption | with_reducible apply Moves.climate | exact Table.set_keeps
    | exact (fun hx => hx)

theorem setZoneClimate_moves (z : Fin 8) (c : ZoneClimate) (hs : Moves A s₀ s) (aC : A.climate) :
    Moves A s₀ (setZoneClimate z c s) := by
  unfold setZoneClimate
  (try dsimp only)
  repeat' first
    | with_reducible assumption | with_reducible apply Moves.climate | exact Table.set_keeps
    | exact (fun hx => hx)

theorem setProbe_moves (i : Nat) (p : Option Probe) (hs : Moves A s₀ s) (aC : A.climate) :
    Moves A s₀ (setProbe i p s) := by
  unfold setProbe
  (try dsimp only)
  repeat' first
    | with_reducible assumption | with_reducible apply Moves.climate | exact Table.set_keeps
    | exact (fun hx => hx)

theorem postZoneClimate_moves (z : Fin 8) (hs : Moves A s₀ s) (aN : A.notices) :
    Moves A s₀ (postZoneClimate z s) := by
  unfold postZoneClimate
  (try dsimp only)
  repeat' first
    | with_reducible assumption | with_reducible apply post_moves

theorem takeZoneClimate_moves (z : Fin 8) (new : ZoneClimate) (passed : Bool) (hs : Moves A s₀ s) (aD :
    A.device) (aN : A.notices) (aL : A.link) (aC : A.climate) (aR : A.rack) (aU : A.custody) (aQ :
    A.orders) (aX : A.contexts) (aM : A.store) :
    Moves A s₀ (takeZoneClimate z new passed s) := by
  unfold takeZoneClimate
  (try dsimp only)
  repeat' first
    | with_reducible assumption | with_reducible apply setZoneClimate_moves
    | with_reducible apply postMode_moves | with_reducible apply postZoneClimate_moves
    | with_reducible apply updateRackPause_moves | split

theorem evaluateZone_moves (z : Fin 8) (passed : Bool) (hs : Moves A s₀ s) (aD : A.device) (aN :
    A.notices) (aL : A.link) (aC : A.climate) (aR : A.rack) (aU : A.custody) (aQ : A.orders) (aX :
    A.contexts) (aM : A.store) :
    Moves A s₀ (evaluateZone z passed s) := by
  unfold evaluateZone
  (try dsimp only)
  repeat' first
    | with_reducible assumption | with_reducible apply takeZoneClimate_moves

theorem refreshReading_moves (z : Fin 9) (hs : Moves A s₀ s) (aD : A.device) (aN : A.notices) (aL :
    A.link) (aC : A.climate) (aR : A.rack) (aU : A.custody) (aQ : A.orders) (aX : A.contexts) (aM :
    A.store) :
    Moves A s₀ (refreshReading z s) := by
  unfold refreshReading
  (try dsimp only)
  repeat' first
    | with_reducible assumption | with_reducible apply setAir_moves
    | with_reducible apply evaluateZone_moves | split

theorem setDisagree_moves (z : Fin 9) (flag : Bool) (hs : Moves A s₀ s) (aD : A.device) (aN : A.notices)
    (aL : A.link) (aC : A.climate) (aR : A.rack) (aU : A.custody) (aQ : A.orders) (aX : A.contexts) (aM
    : A.store) :
    Moves A s₀ (setDisagree z flag s) := by
  unfold setDisagree
  (try dsimp only)
  repeat' first
    | with_reducible assumption | with_reducible apply refreshReading_moves
    | with_reducible apply setAir_moves | with_reducible apply postZoneClimate_moves | split

theorem resetAgreement_moves (z : Fin 9) (hs : Moves A s₀ s) (aD : A.device) (aN : A.notices) (aL :
    A.link) (aC : A.climate) (aR : A.rack) (aU : A.custody) (aQ : A.orders) (aX : A.contexts) (aM :
    A.store) :
    Moves A s₀ (resetAgreement z s) := by
  unfold resetAgreement
  (try dsimp only)
  repeat' first
    | with_reducible assumption | with_reducible apply setDisagree_moves
    | with_reducible apply setAir_moves

theorem takeSample_moves (z : Fin 9) (i : Nat) (hs : Moves A s₀ s) (aD : A.device) (aN : A.notices) (aL
    : A.link) (aC : A.climate) (aR : A.rack) (aU : A.custody) (aQ : A.orders) (aX : A.contexts) (aM :
    A.store) :
    Moves A s₀ (takeSample z i s) := by
  unfold takeSample
  (try dsimp only)
  repeat' first
    | with_reducible assumption | with_reducible apply setAir_moves
    | with_reducible apply setDisagree_moves | split

theorem takeProbe_moves (i : Nat) (z : Fin 9) (r : ProbeReport) (hs : Moves A s₀ s) (aD : A.device) (aN
    : A.notices) (aL : A.link) (aC : A.climate) (aR : A.rack) (aU : A.custody) (aQ : A.orders) (aX :
    A.contexts) (aM : A.store) :
    Moves A s₀ (takeProbe i z r s) := by
  unfold takeProbe
  (try dsimp only)
  repeat' first
    | with_reducible assumption | with_reducible apply takeSample_moves
    | with_reducible apply refreshReading_moves | with_reducible apply setProbe_moves

theorem probeAgeExpired_moves (i : Nat) (hs : Moves A s₀ s) (aD : A.device) (aN : A.notices) (aL :
    A.link) (aC : A.climate) (aR : A.rack) (aU : A.custody) (aQ : A.orders) (aX : A.contexts) (aM :
    A.store) :
    Moves A s₀ (probeAgeExpired i s) := by
  unfold probeAgeExpired
  (try dsimp only)
  repeat' first
    | with_reducible assumption | with_reducible apply refreshReading_moves
    | with_reducible apply setProbe_moves | split

theorem takeAir_moves (z : Fin 8) (mode : AirMode) (carried : Nat) (hs : Moves A s₀ s) (aL : A.link) :
    Moves A s₀ (takeAir z mode carried s) := by
  unfold takeAir
  (try dsimp only)
  repeat' first
    | with_reducible assumption | with_reducible apply postMode_moves | split

theorem takeControl_moves (z : Fin 8) (c : Control) (hs : Moves A s₀ s) (aN : A.notices) (aL : A.link)
    (aC : A.climate) :
    Moves A s₀ (takeControl z c s) := by
  unfold takeControl
  (try dsimp only)
  repeat' first
    | with_reducible assumption | with_reducible apply postZoneClimate_moves
    | with_reducible apply postMode_moves | with_reducible apply setZoneClimate_moves

theorem climateFireTold_moves (z : Fin 8) (old new : FireState) (hs : Moves A s₀ s) (aN : A.notices) (aL
    : A.link) (aC : A.climate) :
    Moves A s₀ (climateFireTold z old new s) := by
  unfold climateFireTold
  (try dsimp only)
  repeat' first
    | with_reducible assumption | with_reducible apply takeControl_moves | split

theorem graceExpired_moves (z : Fin 8) (hs : Moves A s₀ s) (aD : A.device) (aN : A.notices) (aL :
    A.link) (aC : A.climate) (aR : A.rack) (aU : A.custody) (aQ : A.orders) (aX : A.contexts) (aM :
    A.store) :
    Moves A s₀ (graceExpired z s) := by
  unfold graceExpired
  (try dsimp only)
  repeat' first
    | with_reducible assumption | with_reducible apply takeZoneClimate_moves | split

theorem minuteExpired_moves (z : Fin 8) (hs : Moves A s₀ s) (aD : A.device) (aN : A.notices) (aL :
    A.link) (aC : A.climate) (aR : A.rack) (aU : A.custody) (aQ : A.orders) (aX : A.contexts) (aM :
    A.store) :
    Moves A s₀ (minuteExpired z s) := by
  unfold minuteExpired
  (try dsimp only)
  repeat' first
    | with_reducible assumption | with_reducible apply takeZoneClimate_moves
    | with_reducible apply zoneExposureSweep_moves | with_reducible apply setZoneClimate_moves | split

end Sys2Proof.Machine
end

