-- ==== Sys2Proof/Laws/MovesHatch.lean ====
section
/-! SUPPORT. Laws/MovesHatch: what a lock command does (R133, R134), and that the operations of the hatch and the
handovers are moves. -/

namespace Sys2Proof.Machine

variable {A : Allow} {s₀ s : State}

/-- What a command of locks does: the queue may gain entries, and the hatch takes the values given. -/
def Commanded (s : State) (x : Hatch) (u : State) : Prop :=
  ∃ q, (QueueOk s.link → QueueOk q) ∧ u = (s.withLink q).withHatch x

theorem Commanded.trans {x y : Hatch} {u v : State} (h : Commanded s x u) (g : Commanded u y v) :
    Commanded s y v := by
  obtain ⟨q, hq, rfl⟩ := h
  obtain ⟨p, hp, rfl⟩ := g
  exact ⟨p, fun k => hp (hq k), rfl⟩

theorem Commanded.refl : Commanded s s.hatch s := ⟨s.link, fun k => k, rfl⟩

theorem Commanded.hatch {x : Hatch} {u : State} (h : Commanded s x u) : u.hatch = x := by
  obtain ⟨q, _, rfl⟩ := h; rfl

/-- A posted node command leaves everything but the queue. -/
theorem postCommand_link (g : Target) (cmd : CmdKind) (data : List Byte) (s : State) :
    ∃ q, (QueueOk s.link → QueueOk q) ∧ postCommand g cmd data s = s.withLink q := by
  unfold postCommand
  split
  · exact ⟨_, postTo_queueOk _ _ _ _, rfl⟩
  · exact ⟨s.link, fun k => k, rfl⟩

theorem commandRoom_spec (l : Lock) (s : State) :
    Commanded s { s.hatch with roomLock := l } (commandRoom l s) := by
  unfold commandRoom
  split
  · next e => subst e; exact .refl
  · obtain ⟨q, hq, e⟩ := postCommand_link .hatch .roomLock [byteOf l.code]
      (s.withHatch { s.hatch with roomLock := l })
    rw [e]; exact ⟨q, hq, rfl⟩

theorem commandStore_spec (l : Lock) (s : State) :
    Commanded s { s.hatch with storeLock := l } (commandStore l s) := by
  unfold commandStore
  split
  · next e => subst e; exact .refl
  · obtain ⟨q, hq, e⟩ := postCommand_link .hatch .storeLock [byteOf l.code]
      (s.withHatch { s.hatch with storeLock := l })
    rw [e]; exact ⟨q, hq, rfl⟩

theorem commandExit_spec (l : Lock) (s : State) :
    Commanded s { s.hatch with exitLock := l } (commandExit l s) := by
  unfold commandExit
  split
  · next e => subst e; exact .refl
  · obtain ⟨q, hq, e⟩ := postCommand_link .hatch .exitLock [byteOf l.code]
      (s.withHatch { s.hatch with exitLock := l })
    rw [e]; exact ⟨q, hq, rfl⟩

/-- The hatch after the wanted locks that equal l have been commanded. -/
def Hatch.commandedAll (h : Hatch) (l room store exit : Lock) : Hatch :=
  { h with
    roomLock := if room = l then l else h.roomLock,
    storeLock := if store = l then l else h.storeLock,
    exitLock := if exit = l then l else h.exitLock }

theorem commandAll_spec (l room store exit : Lock) (s : State) :
    Commanded s (s.hatch.commandedAll l room store exit) (commandAll l room store exit s) := by
  have h1 : Commanded s { s.hatch with storeLock := if store = l then l else s.hatch.storeLock }
      (if store = l then commandStore l s else s) := by
    split
    · exact commandStore_spec l s
    · exact .refl
  have h2 : ∀ u : State, Commanded u { u.hatch with roomLock := if room = l then l else u.hatch.roomLock }
      (if room = l then commandRoom l u else u) := by
    intro u
    split
    · exact commandRoom_spec l u
    · exact .refl
  have h3 : ∀ u : State, Commanded u { u.hatch with exitLock := if exit = l then l else u.hatch.exitLock }
      (if exit = l then commandExit l u else u) := by
    intro u
    split
    · exact commandExit_spec l u
    · exact .refl
  have h := (h1.trans (h2 _)).trans (h3 _)
  rw [(h1.trans (h2 _)).hatch, h1.hatch] at h
  exact h

/-- R133, R134: after the locks are worked out, each is as its condition calls for. -/
theorem updateLocks_spec (s : State) :
    Commanded s
      { s.hatch with roomLock := roomLockWanted s, storeLock := storeLockWanted s,
                     exitLock := exitLockWanted s }
      (updateLocks s) := by
  have h := (commandAll_spec .locked (roomLockWanted s) (storeLockWanted s) (exitLockWanted s) s).trans
    (commandAll_spec .unlocked (roomLockWanted s) (storeLockWanted s) (exitLockWanted s) _)
  rw [(commandAll_spec .locked (roomLockWanted s) (storeLockWanted s) (exitLockWanted s) s).hatch] at h
  have e : (s.hatch.commandedAll .locked (roomLockWanted s) (storeLockWanted s)
      (exitLockWanted s)).commandedAll .unlocked (roomLockWanted s) (storeLockWanted s)
      (exitLockWanted s) =
      { s.hatch with roomLock := roomLockWanted s, storeLock := storeLockWanted s,
                     exitLock := exitLockWanted s } := by
    cases roomLockWanted s <;> cases storeLockWanted s <;> cases exitLockWanted s <;> rfl
  rw [e] at h
  exact h

/-- R133: the wanted locks are safe. -/
theorem wanted_locksSafe (s : State) :
    LocksSafe { s.hatch with roomLock := roomLockWanted s, storeLock := storeLockWanted s,
                             exitLock := exitLockWanted s } := by
  refine ⟨?_, ?_⟩
  · intro h
    simp only [roomLockWanted, storeLockWanted] at h
    split at h
    · split at h
      · next a b => exact absurd (a.1.symm.trans b.1) (by decide)
      · exact absurd h.2 (by decide)
    · exact absurd h.1 (by decide)
  · intro h
    simp only [storeLockWanted] at h
    split at h
    · next a => exact a.2.1
    · exact absurd h (by decide)

theorem updateLocks_moves (hs : Moves A s₀ s) (aL : A.link) (aT : A.hatch) :
    Moves A s₀ (updateLocks s) := by
  obtain ⟨q, hq, e⟩ := updateLocks_spec s
  rw [e]
  exact .hatch _ aT (fun _ => wanted_locksSafe s) (.inr rfl) (.inr rfl) (.link q aL hq hs)

theorem updateExit_moves (hs : Moves A s₀ s) (aL : A.link) (aT : A.hatch) :
    Moves A s₀ (updateExit s) := by
  unfold updateExit commandExit
  split
  · exact hs
  · apply postCommand_moves
    · exact .hatch _ aT (fun k => k) (.inr rfl) (.inr rfl) hs
    · exact aL

/-- A change of air with the locks that follow it in the same event (R133). -/
theorem updateLocks_setAirField_moves (a : Air) (hs : Moves A s₀ s) (aL : A.link) (aT : A.hatch)
    (aA : A.air) : Moves A s₀ (updateLocks (setAirField a s)) := by
  obtain ⟨q, hq, e⟩ := updateLocks_spec (setAirField a s)
  rw [e]
  exact .hatch (t := s.withLink q) _ aT (fun _ => wanted_locksSafe (setAirField a s)) (.inr rfl)
    (.inl aA) (.link q aL hq hs)

theorem setAirField_dry_moves (hs : Moves A s₀ s) (aT : A.hatch) (aA : A.air) :
    Moves A s₀ (setAirField .dry s) :=
  .hatch _ aT (fun k => ⟨k.1, fun _ => rfl⟩) (.inl rfl) (.inl aA) hs

theorem commandPurge_moves (p : PurgeCmd) (hs : Moves A s₀ s) (aL : A.link) (aT : A.hatch) :
    Moves A s₀ (commandPurge p s) := by
  unfold commandPurge
  split
  · exact hs
  · exact postCommand_moves _ _ _ (.hatch _ aT (fun hx => hx) (.inl rfl) (.inr rfl) hs) aL

theorem postHatchCommands_moves (hs : Moves A s₀ s) (aL : A.link) :
    Moves A s₀ (postHatchCommands s) := by
  unfold postHatchCommands
  (try dsimp only)
  repeat' first
    | with_reducible assumption | with_reducible apply postCommand_moves

theorem postHatchAir_moves (e : HatchEvent) (hs : Moves A s₀ s) (aN : A.notices) :
    Moves A s₀ (postHatchAir e s) := by
  unfold postHatchAir
  (try dsimp only)
  repeat' first
    | with_reducible assumption | with_reducible apply post_moves

theorem updateWetDwell_moves (hs : Moves A s₀ s) (aT : A.hatch) :
    Moves A s₀ (updateWetDwell s) := by
  unfold updateWetDwell
  (try dsimp only)
  repeat' first
    | with_reducible assumption | with_reducible apply Moves.hatch | exact (fun hx => hx) | exact .inl rfl
    | exact .inr rfl | split

theorem setHatchAir_moves (a : Air) (e : HatchEvent) (hs : Moves A s₀ s) (aN : A.notices) (aL : A.link)
    (aT : A.hatch) (aA : A.air) : Moves A s₀ (setHatchAir a e s) :=
  updateWetDwell_moves (postHatchAir_moves e (updateLocks_setAirField_moves a hs aL aT aA) aN) aT

theorem postHandover_moves (c : Nat) (hs : Moves A s₀ s) (aN : A.notices) :
    Moves A s₀ (postHandover c s) := by
  unfold postHandover
  (try dsimp only)
  repeat' first
    | with_reducible assumption | with_reducible apply post_moves | split

theorem promptClosed_moves (c : Nat) (hs : Moves A s₀ s) (aL : A.link) :
    Moves A s₀ (promptClosed c s) := by
  unfold promptClosed
  (try dsimp only)
  repeat' first
    | with_reducible assumption | with_reducible apply postPrompt_moves | split

theorem setPhase_moves (c : Nat) (ph : Phase) (hs : Moves A s₀ s) (aN : A.notices) (aX : A.contexts) :
    Moves A s₀ (setPhase c ph s) := by
  unfold setPhase
  (try dsimp only)
  repeat' first
    | with_reducible assumption | with_reducible apply postHandover_moves
    | with_reducible apply putContext_moves | split

theorem promptRemove_moves (c : Nat) (hs : Moves A s₀ s) (aL : A.link) :
    Moves A s₀ (promptRemove c s) := by
  unfold promptRemove
  (try dsimp only)
  repeat' first
    | with_reducible assumption | with_reducible apply postPrompt_moves | split

theorem blockedToHatch_moves (c : Nat) (l : Label) (hs : Moves A s₀ s) (aD : A.device) (aN : A.notices)
    (aL : A.link) (aR : A.rack) (aU : A.custody) (aQ : A.orders) (aX : A.contexts) (aM : A.store) :
    Moves A s₀ (blockedToHatch c l s) := by
  unfold blockedToHatch
  (try dsimp only)
  repeat' first
    | with_reducible assumption | with_reducible apply claim_moves | split | intro

theorem grantContext_moves (c : Nat) (hs : Moves A s₀ s) (aD : A.device) (aN : A.notices) (aL : A.link)
    (aR : A.rack) (aU : A.custody) (aQ : A.orders) (aT : A.hatch) (aX : A.contexts) (aM : A.store) :
    Moves A s₀ (grantContext c s) := by
  unfold grantContext
  (try dsimp only)
  repeat' first
    | with_reducible assumption | with_reducible apply putContext_moves
    | with_reducible apply manifestPrompt_moves | with_reducible apply updateLocks_moves
    | with_reducible apply setPhase_moves | with_reducible apply blockedToHatch_moves
    | with_reducible apply promptRemove_moves | with_reducible apply signalReject_moves
    | with_reducible apply Moves.hatch | with_reducible apply Moves.foldl | exact (fun hx => hx)
    | exact .inl rfl | exact .inr rfl | split | intro

theorem startPurge_moves (hs : Moves A s₀ s) (aN : A.notices) (aL : A.link) (aT : A.hatch) :
    Moves A s₀ (startPurge s) := by
  unfold startPurge
  (try dsimp only)
  repeat' first
    | with_reducible assumption | with_reducible apply postHatchAir_moves
    | with_reducible apply updateLocks_moves | with_reducible apply commandPurge_moves
    | with_reducible apply Moves.hatch | exact (fun hx => hx) | exact .inl rfl | exact .inr rfl | split

theorem grantEval_moves (hs : Moves A s₀ s) (aD : A.device) (aN : A.notices) (aL : A.link) (aR : A.rack)
    (aU : A.custody) (aQ : A.orders) (aT : A.hatch) (aX : A.contexts) (aM : A.store) :
    Moves A s₀ (grantEval s) := by
  unfold grantEval
  (try dsimp only)
  repeat' first
    | with_reducible assumption | with_reducible apply startPurge_moves
    | with_reducible apply grantContext_moves | split

theorem leaveHatch_moves (c : Nat) (hs : Moves A s₀ s) (aD : A.device) (aN : A.notices) (aL : A.link)
    (aR : A.rack) (aU : A.custody) (aQ : A.orders) (aT : A.hatch) (aX : A.contexts) (aM : A.store) :
    Moves A s₀ (leaveHatch c s) := by
  unfold leaveHatch
  (try dsimp only)
  repeat' first
    | with_reducible assumption | with_reducible apply grantEval_moves
    | with_reducible apply updateLocks_moves | with_reducible apply Moves.hatch | exact (fun hx => hx)
    | exact .inl rfl | exact .inr rfl | split

theorem promptEnd_moves (c : Nat) (o : HOutcome) (hs : Moves A s₀ s) (aL : A.link) :
    Moves A s₀ (promptEnd c o s) := by
  unfold promptEnd
  (try dsimp only)
  repeat' first
    | with_reducible assumption | with_reducible apply postPrompt_moves | split

theorem endContext_moves (c : Nat) (o : HOutcome) (hs : Moves A s₀ s) (aD : A.device) (aN : A.notices)
    (aL : A.link) (aR : A.rack) (aU : A.custody) (aQ : A.orders) (aT : A.hatch) (aX : A.contexts) (aM :
    A.store) :
    Moves A s₀ (endContext c o s) := by
  unfold endContext
  (try dsimp only)
  repeat' first
    | with_reducible assumption | with_reducible apply putContext_moves
    | with_reducible apply promptEnd_moves | with_reducible apply postHandover_moves
    | with_reducible apply ordersContextEnded_moves | with_reducible apply leaveHatch_moves
    | with_reducible apply updateExit_moves | split

theorem enterPhase_moves (c : Nat) (ph : Phase) (hs : Moves A s₀ s) (aD : A.device) (aN : A.notices) (aL
    : A.link) (aR : A.rack) (aU : A.custody) (aQ : A.orders) (aT : A.hatch) (aX : A.contexts) (aM :
    A.store) :
    Moves A s₀ (enterPhase c ph s) := by
  unfold enterPhase
  (try dsimp only)
  repeat' first
    | with_reducible assumption | with_reducible apply updateLocks_moves
    | with_reducible apply setPhase_moves | with_reducible apply grantEval_moves | split

theorem testUnloading_moves (c : Nat) (hs : Moves A s₀ s) (aD : A.device) (aN : A.notices) (aL : A.link)
    (aR : A.rack) (aU : A.custody) (aQ : A.orders) (aT : A.hatch) (aX : A.contexts) (aM : A.store) :
    Moves A s₀ (testUnloading c s) := by
  unfold testUnloading
  (try dsimp only)
  repeat' first
    | with_reducible assumption | with_reducible apply endContext_moves | split

theorem testWaitDry_moves (c : Nat) (hs : Moves A s₀ s) (aD : A.device) (aN : A.notices) (aL : A.link)
    (aR : A.rack) (aU : A.custody) (aQ : A.orders) (aT : A.hatch) (aX : A.contexts) (aM : A.store) :
    Moves A s₀ (testWaitDry c s) := by
  unfold testWaitDry
  (try dsimp only)
  repeat' first
    | with_reducible assumption | with_reducible apply testUnloading_moves
    | with_reducible apply enterPhase_moves | split

theorem enterWaitDry_moves (accepted : Bool) (c : Nat) (hs : Moves A s₀ s) (aD : A.device) (aN :
    A.notices) (aL : A.link) (aR : A.rack) (aU : A.custody) (aQ : A.orders) (aT : A.hatch) (aX :
    A.contexts) (aM : A.store) :
    Moves A s₀ (enterWaitDry accepted c s) := by
  unfold enterWaitDry
  (try dsimp only)
  repeat' first
    | with_reducible assumption | with_reducible apply setPhase_moves
    | with_reducible apply updateLocks_moves | with_reducible apply promptClosed_moves
    | with_reducible apply testWaitDry_moves | with_reducible apply grantEval_moves | split

theorem resolveManifest_moves (c : Nat) (pick : ManifestEntry → Bool) (new : ManifestEntry → Record →
    Record) (hs : Moves A s₀ s) (aD : A.device) (aN : A.notices) (aL : A.link) (aR : A.rack) (aU :
    A.custody) (aQ : A.orders) (aX : A.contexts) (aM : A.store) :
    Moves A s₀ (resolveManifest c pick new s) := by
  unfold resolveManifest
  (try dsimp only)
  repeat' first
    | with_reducible assumption | with_reducible apply claim_moves
    | with_reducible apply dropManifest_moves | with_reducible apply Moves.foldl | split | intro

theorem resolveTaken_moves (c : Nat) (x : Context) (hs : Moves A s₀ s) (aD : A.device) (aN : A.notices)
    (aL : A.link) (aR : A.rack) (aU : A.custody) (aQ : A.orders) (aX : A.contexts) (aM : A.store) :
    Moves A s₀ (resolveTaken c x s) := by
  unfold resolveTaken
  with_reducible apply resolveManifest_moves <;> assumption

theorem testRecall_moves (c : Nat) (hs : Moves A s₀ s) (aD : A.device) (aN : A.notices) (aL : A.link)
    (aR : A.rack) (aU : A.custody) (aQ : A.orders) (aT : A.hatch) (aX : A.contexts) (aM : A.store) :
    Moves A s₀ (testRecall c s) := by
  unfold testRecall
  (try dsimp only)
  repeat' first
    | with_reducible assumption | with_reducible apply enterWaitDry_moves
    | with_reducible apply resolveTaken_moves | split

theorem testRecallReturn_moves (c : Nat) (hs : Moves A s₀ s) (aD : A.device) (aN : A.notices) (aL :
    A.link) (aR : A.rack) (aU : A.custody) (aQ : A.orders) (aT : A.hatch) (aX : A.contexts) (aM :
    A.store) :
    Moves A s₀ (testRecallReturn c s) := by
  unfold testRecallReturn
  (try dsimp only)
  repeat' first
    | with_reducible assumption | with_reducible apply endContext_moves
    | with_reducible apply enterWaitDry_moves | split

theorem testPhase_moves (c : Nat) (hs : Moves A s₀ s) (aD : A.device) (aN : A.notices) (aL : A.link) (aR
    : A.rack) (aU : A.custody) (aQ : A.orders) (aT : A.hatch) (aX : A.contexts) (aM : A.store) :
    Moves A s₀ (testPhase c s) := by
  unfold testPhase
  (try dsimp only)
  repeat' first
    | with_reducible assumption | with_reducible apply testWaitDry_moves
    | with_reducible apply testUnloading_moves | with_reducible apply testRecall_moves
    | with_reducible apply testRecallReturn_moves | split

theorem testOwner_moves (hs : Moves A s₀ s) (aD : A.device) (aN : A.notices) (aL : A.link) (aR : A.rack)
    (aU : A.custody) (aQ : A.orders) (aT : A.hatch) (aX : A.contexts) (aM : A.store) :
    Moves A s₀ (testOwner s) := by
  unfold testOwner
  (try dsimp only)
  repeat' first
    | with_reducible assumption | with_reducible apply testPhase_moves | split

theorem returnHatch_moves (hs : Moves A s₀ s) (aD : A.device) (aN : A.notices) (aL : A.link) (aR :
    A.rack) (aU : A.custody) (aQ : A.orders) (aT : A.hatch) (aX : A.contexts) (aM : A.store) :
    Moves A s₀ (returnHatch s) := by
  unfold returnHatch
  (try dsimp only)
  repeat' first
    | with_reducible assumption | with_reducible apply grantEval_moves
    | with_reducible apply testOwner_moves | with_reducible apply updateLocks_moves
    | with_reducible apply Moves.hatch | exact (fun hx => hx) | exact .inl rfl | exact .inr rfl | split

theorem stopRun_moves (hs : Moves A s₀ s) (aL : A.link) (aT : A.hatch) :
    Moves A s₀ (stopRun s) := by
  unfold stopRun
  (try dsimp only)
  repeat' first
    | with_reducible assumption | with_reducible apply commandPurge_moves
    | with_reducible apply Moves.hatch | exact (fun hx => hx) | exact .inl rfl | exact .inr rfl

theorem purgeComplete_moves (hs : Moves A s₀ s) (aD : A.device) (aN : A.notices) (aL : A.link) (aR :
    A.rack) (aU : A.custody) (aQ : A.orders) (aT : A.hatch) (aX : A.contexts) (aM : A.store) (aA :
    A.air) :
    Moves A s₀ (purgeComplete s) := by
  unfold purgeComplete
  (try dsimp only)
  repeat' first
    | with_reducible assumption | with_reducible apply returnHatch_moves
    | with_reducible apply setHatchAir_moves | with_reducible apply stopRun_moves

theorem purgeFail_moves (hs : Moves A s₀ s) (aD : A.device) (aN : A.notices) (aL : A.link) (aR : A.rack)
    (aU : A.custody) (aQ : A.orders) (aT : A.hatch) (aX : A.contexts) (aM : A.store) :
    Moves A s₀ (purgeFail s) := by
  unfold purgeFail
  (try dsimp only)
  repeat' first
    | with_reducible assumption | with_reducible apply stopRun_moves
    | with_reducible apply returnHatch_moves | with_reducible apply postHatchAir_moves
    | with_reducible apply Moves.hatch | exact (fun hx => hx) | exact .inl rfl | exact .inr rfl

theorem purgeMinExpired_moves (hs : Moves A s₀ s) (aD : A.device) (aN : A.notices) (aL : A.link) (aR :
    A.rack) (aU : A.custody) (aQ : A.orders) (aT : A.hatch) (aX : A.contexts) (aM : A.store) (aA :
    A.air) :
    Moves A s₀ (purgeMinExpired s) := by
  unfold purgeMinExpired
  (try dsimp only)
  repeat' first
    | with_reducible assumption | with_reducible apply purgeComplete_moves
    | with_reducible apply Moves.hatch | exact (fun hx => hx) | exact .inl rfl | exact .inr rfl | split

theorem purgeMaxExpired_moves (hs : Moves A s₀ s) (aD : A.device) (aN : A.notices) (aL : A.link) (aR :
    A.rack) (aU : A.custody) (aQ : A.orders) (aT : A.hatch) (aX : A.contexts) (aM : A.store) (aA :
    A.air) :
    Moves A s₀ (purgeMaxExpired s) := by
  unfold purgeMaxExpired
  (try dsimp only)
  repeat' first
    | with_reducible assumption | with_reducible apply purgeComplete_moves
    | with_reducible apply purgeFail_moves | split

theorem retryExpired_moves (hs : Moves A s₀ s) (aD : A.device) (aN : A.notices) (aL : A.link) (aR :
    A.rack) (aU : A.custody) (aQ : A.orders) (aT : A.hatch) (aX : A.contexts) (aM : A.store) :
    Moves A s₀ (retryExpired s) := by
  unfold retryExpired
  (try dsimp only)
  repeat' first
    | with_reducible assumption | with_reducible apply grantEval_moves | with_reducible apply Moves.hatch
    | exact (fun hx => hx) | exact .inl rfl | exact .inr rfl | split

theorem wetDwellExpired_moves (hs : Moves A s₀ s) (aD : A.device) (aN : A.notices) (aU : A.custody) (aT
    : A.hatch) (aM : A.store) :
    Moves A s₀ (wetDwellExpired s) := by
  unfold wetDwellExpired
  (try dsimp only)
  repeat' first
    | with_reducible assumption | with_reducible apply postHatchAir_moves
    | with_reducible apply hatchExposureSweep_moves | with_reducible apply Moves.hatch
    | exact (fun hx => hx) | exact .inl rfl | exact .inr rfl | split

theorem repost_moves (cmd : CmdKind) (commanded reported : Nat) (hs : Moves A s₀ s) (aL : A.link) :
    Moves A s₀ (repost cmd commanded reported s) := by
  unfold repost
  (try dsimp only)
  repeat' first
    | with_reducible assumption | with_reducible apply postCommand_moves | split

theorem checkCommanded_moves (code : Nat) (r : HatchReport) (hs : Moves A s₀ s) (aL : A.link) :
    Moves A s₀ (checkCommanded code r s) := by
  unfold checkCommanded
  (try dsimp only)
  repeat' first
    | with_reducible assumption | with_reducible apply repost_moves | split

theorem doorTold_moves (c : Nat) (roomBefore storeBefore : Door) (hs : Moves A s₀ s) (aD : A.device) (aN
    : A.notices) (aL : A.link) (aR : A.rack) (aU : A.custody) (aQ : A.orders) (aT : A.hatch) (aX :
    A.contexts) (aM : A.store) :
    Moves A s₀ (doorTold c roomBefore storeBefore s) := by
  unfold doorTold
  (try dsimp only)
  repeat' first
    | with_reducible assumption | with_reducible apply signalReject_moves
    | with_reducible apply manifestPrompt_moves | with_reducible apply enterPhase_moves
    | with_reducible apply endContext_moves | with_reducible apply testPhase_moves | split

theorem ownerDoors_moves (owner : Owner) (roomBefore storeBefore : Door) (hs : Moves A s₀ s) (aD :
    A.device) (aN : A.notices) (aL : A.link) (aR : A.rack) (aU : A.custody) (aQ : A.orders) (aT :
    A.hatch) (aX : A.contexts) (aM : A.store) :
    Moves A s₀ (ownerDoors owner roomBefore storeBefore s) := by
  unfold ownerDoors
  (try dsimp only)
  repeat' first
    | with_reducible assumption | with_reducible apply doorTold_moves | split

theorem purgeReport_moves (hs : Moves A s₀ s) (aD : A.device) (aN : A.notices) (aL : A.link) (aR :
    A.rack) (aU : A.custody) (aQ : A.orders) (aT : A.hatch) (aX : A.contexts) (aM : A.store) (aA :
    A.air) :
    Moves A s₀ (purgeReport s) := by
  unfold purgeReport
  (try dsimp only)
  repeat' first
    | with_reducible assumption | with_reducible apply purgeFail_moves
    | with_reducible apply purgeComplete_moves | with_reducible apply Moves.hatch | exact (fun hx => hx)
    | exact .inl rfl | exact .inr rfl | split

theorem takeHatch_moves (r : HatchReport) (code : Nat) (hs : Moves A s₀ s) (aD : A.device) (aN :
    A.notices) (aL : A.link) (aR : A.rack) (aU : A.custody) (aQ : A.orders) (aT : A.hatch) (aX :
    A.contexts) (aM : A.store) (aA : A.air) :
    Moves A s₀ (takeHatch r code s) := by
  unfold takeHatch
  (try dsimp only)
  repeat' first
    | with_reducible assumption | with_reducible apply setHatchAir_moves
    | with_reducible apply checkCommanded_moves | with_reducible apply updateLocks_moves
    | with_reducible apply ownerDoors_moves | with_reducible apply purgeReport_moves
    | with_reducible apply grantEval_moves | with_reducible apply Moves.hatch | exact (fun hx => hx)
    | exact .inl rfl | exact .inr rfl | split

theorem bindHatch_moves (hs : Moves A s₀ s) (aD : A.device) (aN : A.notices) (aL : A.link) (aR : A.rack)
    (aU : A.custody) (aQ : A.orders) (aT : A.hatch) (aX : A.contexts) (aM : A.store) (aA : A.air) :
    Moves A s₀ (bindHatch s) := by
  unfold bindHatch
  (try dsimp only)
  repeat' first
    | with_reducible assumption | with_reducible apply setHatchAir_moves
    | with_reducible apply grantEval_moves | with_reducible apply postHatchCommands_moves
    | with_reducible apply updateLocks_moves | with_reducible apply Moves.hatch | exact (fun hx => hx)
    | exact .inl rfl | exact .inr rfl | split

theorem unbindHatch_moves (hs : Moves A s₀ s) (aT : A.hatch) :
    Moves A s₀ (unbindHatch s) := by
  unfold unbindHatch
  (try dsimp only)
  repeat' first
    | with_reducible assumption | with_reducible apply Moves.hatch | exact (fun hx => hx) | exact .inl rfl
    | exact .inr rfl

theorem hatchFireTold_moves (z : Fin 8) (hs : Moves A s₀ s) (aD : A.device) (aN : A.notices) (aL :
    A.link) (aR : A.rack) (aU : A.custody) (aQ : A.orders) (aT : A.hatch) (aX : A.contexts) (aM :
    A.store) :
    Moves A s₀ (hatchFireTold z s) := by
  unfold hatchFireTold
  (try dsimp only)
  repeat' first
    | with_reducible assumption | with_reducible apply updateLocks_moves
    | with_reducible apply stopRun_moves | with_reducible apply grantEval_moves
    | with_reducible apply Moves.hatch | exact (fun hx => hx) | exact .inl rfl | exact .inr rfl | split

theorem hatchDryOverrideEffect_moves (hs : Moves A s₀ s) (aD : A.device) (aN : A.notices) (aL : A.link)
    (aR : A.rack) (aU : A.custody) (aQ : A.orders) (aT : A.hatch) (aX : A.contexts) (aM : A.store) (aA :
    A.air) :
    Moves A s₀ (hatchDryOverrideEffect s) := by
  unfold hatchDryOverrideEffect
  have k : ∀ u, Moves A s₀ u →
      Moves A s₀ (updateWetDwell (postHatchAir .override (hatchExposureSweep (setAirField .dry u)))) :=
    fun u hu => updateWetDwell_moves
      (postHatchAir_moves _ (hatchExposureSweep_moves (setAirField_dry_moves hu aT aA) aD aN aU aM) aN) aT
  dsimp only
  by_cases r : s.hatch.purge.isSome = true
  · simp only [r, if_true]
    exact (returnHatch_moves (k _ (stopRun_moves hs aL aT)) aD aN aL aR aU aQ aT aX aM)
  · simp only [r, Bool.false_eq_true, if_false]
    exact (grantEval_moves (testOwner_moves (updateLocks_moves (k _ hs) aL aT) aD aN aL aR aU aQ aT aX aM) aD aN aL aR aU aQ aT aX aM)

theorem markTaken_moves (c i : Nat) (taken : Bool) (hs : Moves A s₀ s) (aX : A.contexts) :
    Moves A s₀ (markTaken c i taken s) := by
  unfold markTaken
  (try dsimp only)
  repeat' first
    | with_reducible assumption | with_reducible apply putContext_moves | split | intro

theorem addManifest_moves (c i : Nat) (hs : Moves A s₀ s) (aX : A.contexts) :
    Moves A s₀ (addManifest c i s) := by
  unfold addManifest
  (try dsimp only)
  repeat' first
    | with_reducible assumption | with_reducible apply putContext_moves | split

theorem addRejected_moves (c : Nat) (l : Label) (hs : Moves A s₀ s) (aX : A.contexts) :
    Moves A s₀ (addRejected c l s) := by
  unfold addRejected
  (try dsimp only)
  repeat' first
    | with_reducible assumption | with_reducible apply putContext_moves | split

theorem dropRejected_moves (c : Nat) (l : Label) (hs : Moves A s₀ s) (aX : A.contexts) :
    Moves A s₀ (dropRejected c l s) := by
  unfold dropRejected
  (try dsimp only)
  repeat' first
    | with_reducible assumption | with_reducible apply putContext_moves | split

theorem changePrompt_moves (c : Nat) (hs : Moves A s₀ s) (aL : A.link) :
    Moves A s₀ (changePrompt c s) := by
  unfold changePrompt
  (try dsimp only)
  repeat' first
    | with_reducible assumption | with_reducible apply manifestPrompt_moves | split

theorem setOutcome_moves (c : Nat) (o : HOutcome) (hs : Moves A s₀ s) (aX : A.contexts) :
    Moves A s₀ (setOutcome c o s) := by
  unfold setOutcome
  (try dsimp only)
  repeat' first
    | with_reducible assumption | with_reducible apply putContext_moves | split

theorem enteredFull_moves (l : Label) (hs : Moves A s₀ s) (aD : A.device) (aN : A.notices) (aL : A.link)
    (aR : A.rack) (aU : A.custody) (aQ : A.orders) (aX : A.contexts) (aM : A.store) :
    Moves A s₀ (enteredFull l s) := by
  unfold enteredFull
  (try dsimp only)
  repeat' first
    | with_reducible assumption | with_reducible apply hatchSighted_moves
    | with_reducible apply signalReject_moves

theorem unnamedEntered_moves (c : Nat) (l : Label) (hs : Moves A s₀ s) (aD : A.device) (aN : A.notices)
    (aL : A.link) (aR : A.rack) (aU : A.custody) (aQ : A.orders) (aX : A.contexts) (aM : A.store) :
    Moves A s₀ (unnamedEntered c l s) := by
  unfold unnamedEntered
  (try dsimp only)
  repeat' first
    | with_reducible assumption | with_reducible apply blockedToHatch_moves
    | with_reducible apply signalReject_moves | with_reducible apply addRejected_moves
    | with_reducible apply post_moves | with_reducible apply promptRemove_moves
    | with_reducible apply enteredFull_moves | split

theorem departHatch_moves (c : Nat) (l : Label) (hs : Moves A s₀ s) (aD : A.device) (aN : A.notices) (aL
    : A.link) (aR : A.rack) (aU : A.custody) (aQ : A.orders) (aX : A.contexts) (aM : A.store) :
    Moves A s₀ (departHatch c l s) := by
  unfold departHatch
  (try dsimp only)
  repeat' first
    | with_reducible assumption | with_reducible apply claim_moves | split | intro

theorem unnamedLeft_moves (c : Nat) (l : Label) (hs : Moves A s₀ s) (aD : A.device) (aN : A.notices) (aL
    : A.link) (aR : A.rack) (aU : A.custody) (aQ : A.orders) (aX : A.contexts) (aM : A.store) :
    Moves A s₀ (unnamedLeft c l s) := by
  unfold unnamedLeft
  (try dsimp only)
  repeat' first
    | with_reducible assumption | with_reducible apply departHatch_moves
    | with_reducible apply dropRejected_moves | with_reducible apply changePrompt_moves
    | with_reducible apply claim_moves | with_reducible apply dropManifest_moves | split | intro

theorem stage_moves (c i : Nat) (hs : Moves A s₀ s) (aD : A.device) (aN : A.notices) (aL : A.link) (aR :
    A.rack) (aU : A.custody) (aQ : A.orders) (aX : A.contexts) (aM : A.store) :
    Moves A s₀ (stage c i s) := by
  unfold stage
  (try dsimp only)
  repeat' first
    | with_reducible assumption | with_reducible apply changePrompt_moves
    | with_reducible apply addManifest_moves | with_reducible apply claim_moves
    | with_reducible apply missedDeparture_moves | intro

theorem enteredLoading_moves (c : Nat) (x : Context) (l : Label) (hs : Moves A s₀ s) (aD : A.device) (aN
    : A.notices) (aL : A.link) (aR : A.rack) (aU : A.custody) (aQ : A.orders) (aX : A.contexts) (aM :
    A.store) :
    Moves A s₀ (enteredLoading c x l s) := by
  unfold enteredLoading
  (try dsimp only)
  repeat' first
    | with_reducible assumption | with_reducible apply unnamedEntered_moves
    | with_reducible apply stage_moves | with_reducible apply enteredFull_moves | split

theorem enteredLoadingIn_moves (c : Nat) (x : Context) (l : Label) (hs : Moves A s₀ s) (aD : A.device)
    (aN : A.notices) (aL : A.link) (aR : A.rack) (aU : A.custody) (aQ : A.orders) (aX : A.contexts) (aM
    : A.store) :
    Moves A s₀ (enteredLoadingIn c x l s) := by
  unfold enteredLoadingIn
  (try dsimp only)
  repeat' first
    | with_reducible assumption | with_reducible apply unnamedEntered_moves
    | with_reducible apply changePrompt_moves | with_reducible apply addManifest_moves
    | with_reducible apply claim_moves | with_reducible apply enteredFull_moves | split | intro

theorem putBack_moves (c i : Nat) (hs : Moves A s₀ s) (aD : A.device) (aN : A.notices) (aL : A.link) (aR
    : A.rack) (aU : A.custody) (aQ : A.orders) (aX : A.contexts) (aM : A.store) :
    Moves A s₀ (putBack c i s) := by
  unfold putBack
  (try dsimp only)
  repeat' first
    | with_reducible assumption | with_reducible apply changePrompt_moves
    | with_reducible apply claim_moves | with_reducible apply markTaken_moves | intro

theorem enteredTaken_moves (c : Nat) (x : Context) (l : Label) (hs : Moves A s₀ s) (aD : A.device) (aN :
    A.notices) (aL : A.link) (aR : A.rack) (aU : A.custody) (aQ : A.orders) (aX : A.contexts) (aM :
    A.store) :
    Moves A s₀ (enteredTaken c x l s) := by
  unfold enteredTaken
  (try dsimp only)
  repeat' first
    | with_reducible assumption | with_reducible apply putBack_moves
    | with_reducible apply unnamedEntered_moves | split

theorem contextEntered_moves (c : Nat) (l : Label) (hs : Moves A s₀ s) (aD : A.device) (aN : A.notices)
    (aL : A.link) (aR : A.rack) (aU : A.custody) (aQ : A.orders) (aT : A.hatch) (aX : A.contexts) (aM :
    A.store) :
    Moves A s₀ (contextEntered c l s) := by
  unfold contextEntered
  (try dsimp only)
  repeat' first
    | with_reducible assumption | with_reducible apply enteredLoading_moves
    | with_reducible apply enteredLoadingIn_moves | with_reducible apply enteredTaken_moves
    | with_reducible apply testRecall_moves | with_reducible apply unnamedEntered_moves | split

theorem takeOut_moves (c i courier : Nat) (hs : Moves A s₀ s) (aD : A.device) (aN : A.notices) (aL :
    A.link) (aR : A.rack) (aU : A.custody) (aQ : A.orders) (aX : A.contexts) (aM : A.store) :
    Moves A s₀ (takeOut c i courier s) := by
  unfold takeOut
  (try dsimp only)
  repeat' first
    | with_reducible assumption | with_reducible apply changePrompt_moves
    | with_reducible apply claim_moves | with_reducible apply markTaken_moves | intro

theorem leftManifest_moves (c i : Nat) (new : Record → Record) (hs : Moves A s₀ s) (aD : A.device) (aN :
    A.notices) (aL : A.link) (aR : A.rack) (aU : A.custody) (aQ : A.orders) (aX : A.contexts) (aM :
    A.store) :
    Moves A s₀ (leftManifest c i new s) := by
  unfold leftManifest
  (try dsimp only)
  repeat' first
    | with_reducible assumption | with_reducible apply changePrompt_moves
    | with_reducible apply claim_moves | with_reducible apply dropManifest_moves | intro

theorem leftEffect_moves (c : Nat) (l : Label) (hs : Moves A s₀ s) (aD : A.device) (aN : A.notices) (aL
    : A.link) (aR : A.rack) (aU : A.custody) (aQ : A.orders) (aX : A.contexts) (aM : A.store) :
    Moves A s₀ (leftEffect c l s) := by
  unfold leftEffect
  (try dsimp only)
  repeat' first
    | with_reducible assumption | with_reducible apply leftManifest_moves
    | with_reducible apply unnamedLeft_moves | with_reducible apply takeOut_moves | split | intro

theorem contextLeft_moves (c : Nat) (l : Label) (hs : Moves A s₀ s) (aD : A.device) (aN : A.notices) (aL
    : A.link) (aR : A.rack) (aU : A.custody) (aQ : A.orders) (aT : A.hatch) (aX : A.contexts) (aM :
    A.store) :
    Moves A s₀ (contextLeft c l s) := by
  unfold contextLeft
  (try dsimp only)
  repeat' first
    | with_reducible assumption | with_reducible apply testRecallReturn_moves
    | with_reducible apply testUnloading_moves | with_reducible apply leftEffect_moves

theorem snapshotShown_moves (c : Nat) (l : Label) (hs : Moves A s₀ s) (aD : A.device) (aN : A.notices)
    (aL : A.link) (aR : A.rack) (aU : A.custody) (aQ : A.orders) (aX : A.contexts) (aM : A.store) :
    Moves A s₀ (snapshotShown c l s) := by
  unfold snapshotShown
  (try dsimp only)
  repeat' first
    | with_reducible assumption | with_reducible apply putBack_moves
    | with_reducible apply unnamedEntered_moves | split

theorem contextSnapshot_moves (c : Nat) (labels : List Label) (hs : Moves A s₀ s) (aD : A.device) (aN :
    A.notices) (aL : A.link) (aR : A.rack) (aU : A.custody) (aQ : A.orders) (aT : A.hatch) (aX :
    A.contexts) (aM : A.store) :
    Moves A s₀ (contextSnapshot c labels s) := by
  unfold contextSnapshot
  (try dsimp only)
  repeat' first
    | with_reducible assumption | with_reducible apply snapshotShown_moves
    | with_reducible apply leftEffect_moves | with_reducible apply testPhase_moves
    | with_reducible apply markMissing_moves | with_reducible apply Moves.foldl | split | intro

theorem passEvent_moves {f : Nat → State → State} {g : State → State}
    (hf : ∀ c u, Moves A s₀ u → Moves A s₀ (f c u)) (hg : ∀ u, Moves A s₀ u → Moves A s₀ (g u))
    (h : Moves A s₀ s) : Moves A s₀ (passEvent f g s) := by
  unfold passEvent
  split
  · exact hf _ _ h
  all_goals exact hg _ h

theorem hatchEntered_moves (l : Label) (hs : Moves A s₀ s) (aD : A.device) (aN : A.notices) (aL :
    A.link) (aR : A.rack) (aU : A.custody) (aQ : A.orders) (aT : A.hatch) (aX : A.contexts) (aM :
    A.store) :
    Moves A s₀ (hatchEntered l s) := by
  unfold hatchEntered
  (try dsimp only)
  repeat' first
    | with_reducible assumption | with_reducible apply grantEval_moves
    | with_reducible apply updateWetDwell_moves | with_reducible apply passEvent_moves
    | with_reducible apply contextEntered_moves | with_reducible apply hatchSighted_moves
    | with_reducible apply Moves.hatch | exact (fun hx => hx) | exact .inl rfl | exact .inr rfl | split
    | intro

theorem hatchLeft_moves (l : Label) (hs : Moves A s₀ s) (aD : A.device) (aN : A.notices) (aL : A.link)
    (aR : A.rack) (aU : A.custody) (aQ : A.orders) (aT : A.hatch) (aX : A.contexts) (aM : A.store) :
    Moves A s₀ (hatchLeft l s) := by
  unfold hatchLeft
  (try dsimp only)
  repeat' first
    | with_reducible assumption | with_reducible apply grantEval_moves
    | with_reducible apply updateWetDwell_moves | with_reducible apply passEvent_moves
    | with_reducible apply contextLeft_moves | with_reducible apply hatchDeparted_moves
    | with_reducible apply Moves.hatch | exact (fun hx => hx) | exact .inl rfl | exact .inr rfl | intro

theorem hatchSnapshot_moves (labels : List Label) (hs : Moves A s₀ s) (aD : A.device) (aN : A.notices)
    (aL : A.link) (aR : A.rack) (aU : A.custody) (aQ : A.orders) (aT : A.hatch) (aX : A.contexts) (aM :
    A.store) :
    Moves A s₀ (hatchSnapshot labels s) := by
  unfold hatchSnapshot
  (try dsimp only)
  repeat' first
    | with_reducible assumption | with_reducible apply grantEval_moves
    | with_reducible apply updateWetDwell_moves | with_reducible apply passEvent_moves
    | with_reducible apply contextSnapshot_moves | with_reducible apply hatchSnapshotUnowned_moves
    | with_reducible apply Moves.hatch | exact (fun hx => hx) | exact .inl rfl | exact .inr rfl | intro

theorem putCourier_moves (i : Nat) (x : Courier) (hs : Moves A s₀ s) (aD : A.device) (aN : A.notices)
    (aP : A.roster) (aM : A.store) :
    Moves A s₀ (putCourier i x s) := by
  unfold putCourier
  (try dsimp only)
  repeat' first
    | with_reducible assumption | with_reducible apply writeCourier_moves
    | with_reducible apply Moves.roster | exact Table.put_keeps | exact (fun hx => hx)

theorem changeCourier_moves (i : Nat) (old new : Courier) (hs : Moves A s₀ s) (aD : A.device) (aN :
    A.notices) (aP : A.roster) (aM : A.store) :
    Moves A s₀ (changeCourier i old new s) := by
  unfold changeCourier
  (try dsimp only)
  repeat' first
    | with_reducible assumption | with_reducible apply putCourier_moves | split

theorem openContext_moves (c courier : Nat) (d : Direction) (hs : Moves A s₀ s) (aD : A.device) (aN :
    A.notices) (aL : A.link) (aR : A.rack) (aU : A.custody) (aQ : A.orders) (aT : A.hatch) (aX :
    A.contexts) (aM : A.store) :
    Moves A s₀ (openContext c courier d s) := by
  unfold openContext
  (try dsimp only)
  repeat' first
    | with_reducible assumption | with_reducible apply putContext_moves
    | with_reducible apply grantEval_moves | with_reducible apply postHandover_moves
    | with_reducible apply postPrompt_moves | with_reducible apply Moves.hatch | exact (fun hx => hx)
    | exact .inl rfl | exact .inr rfl

theorem tokenAccepted_moves (x : Courier) (d : Direction) (hs : Moves A s₀ s) (aD : A.device) (aN :
    A.notices) (aL : A.link) (aR : A.rack) (aU : A.custody) (aQ : A.orders) (aT : A.hatch) (aX :
    A.contexts) (aM : A.store) :
    Moves A s₀ (tokenAccepted x d s) := by
  unfold tokenAccepted
  (try dsimp only)
  repeat' first
    | with_reducible assumption | with_reducible apply postPrompt_moves
    | with_reducible apply openContext_moves | split

theorem tokenWrong_moves (i : Nat) (x : Courier) (hs : Moves A s₀ s) (aD : A.device) (aN : A.notices)
    (aL : A.link) (aP : A.roster) (aM : A.store) :
    Moves A s₀ (tokenWrong i x s) := by
  unfold tokenWrong
  (try dsimp only)
  repeat' first
    | with_reducible assumption | with_reducible apply postPrompt_moves
    | with_reducible apply putCourier_moves | split

theorem takeToken_moves (courier code direction : Nat) (hs : Moves A s₀ s) (aD : A.device) (aN :
    A.notices) (aL : A.link) (aR : A.rack) (aU : A.custody) (aQ : A.orders) (aT : A.hatch) (aX :
    A.contexts) (aP : A.roster) (aM : A.store) :
    Moves A s₀ (takeToken courier code direction s) := by
  unfold takeToken
  (try dsimp only)
  repeat' first
    | with_reducible assumption | with_reducible apply postPrompt_moves
    | with_reducible apply tokenWrong_moves | with_reducible apply tokenAccepted_moves
    | with_reducible apply changeCourier_moves | split

theorem phasePrompt_moves (c : Nat) (hs : Moves A s₀ s) (aL : A.link) :
    Moves A s₀ (phasePrompt c s) := by
  unfold phasePrompt
  (try dsimp only)
  repeat' first
    | with_reducible assumption | with_reducible apply postPrompt_moves
    | with_reducible apply promptClosed_moves | with_reducible apply manifestPrompt_moves | split

theorem enterAwait_moves (c : Nat) (hs : Moves A s₀ s) (aD : A.device) (aN : A.notices) (aL : A.link)
    (aR : A.rack) (aU : A.custody) (aQ : A.orders) (aT : A.hatch) (aX : A.contexts) (aM : A.store) :
    Moves A s₀ (enterAwait c s) := by
  unfold enterAwait
  (try dsimp only)
  repeat' first
    | with_reducible assumption | with_reducible apply postPrompt_moves
    | with_reducible apply updateLocks_moves | with_reducible apply setPhase_moves
    | with_reducible apply grantEval_moves | split

theorem confirmRoomSide_moves (c : Nat) (x : Context) (hs : Moves A s₀ s) (aD : A.device) (aN :
    A.notices) (aL : A.link) (aR : A.rack) (aU : A.custody) (aQ : A.orders) (aT : A.hatch) (aX :
    A.contexts) (aM : A.store) :
    Moves A s₀ (confirmRoomSide c x s) := by
  unfold confirmRoomSide
  (try dsimp only)
  repeat' first
    | with_reducible assumption | with_reducible apply postPrompt_moves
    | with_reducible apply promptRemove_moves | with_reducible apply endContext_moves
    | with_reducible apply enterAwait_moves | split

theorem takeConfirm_moves (hs : Moves A s₀ s) (aD : A.device) (aN : A.notices) (aL : A.link) (aR :
    A.rack) (aU : A.custody) (aQ : A.orders) (aT : A.hatch) (aX : A.contexts) (aM : A.store) :
    Moves A s₀ (takeConfirm s) := by
  unfold takeConfirm
  (try dsimp only)
  repeat' first
    | with_reducible assumption | with_reducible apply confirmRoomSide_moves
    | with_reducible apply phasePrompt_moves | split

theorem abandonLoading_moves (c : Nat) (o : HOutcome) (hs : Moves A s₀ s) (aD : A.device) (aN :
    A.notices) (aL : A.link) (aR : A.rack) (aU : A.custody) (aQ : A.orders) (aT : A.hatch) (aX :
    A.contexts) (aM : A.store) :
    Moves A s₀ (abandonLoading c o s) := by
  unfold abandonLoading
  (try dsimp only)
  repeat' first
    | with_reducible assumption | with_reducible apply enterWaitDry_moves
    | with_reducible apply setOutcome_moves | with_reducible apply resolveManifest_moves | intro

theorem enterRecall_moves (c : Nat) (o : HOutcome) (hs : Moves A s₀ s) (aD : A.device) (aN : A.notices)
    (aL : A.link) (aR : A.rack) (aU : A.custody) (aQ : A.orders) (aT : A.hatch) (aX : A.contexts) (aM :
    A.store) :
    Moves A s₀ (enterRecall c o s) := by
  unfold enterRecall
  (try dsimp only)
  repeat' first
    | with_reducible assumption | with_reducible apply testRecall_moves
    | with_reducible apply manifestPrompt_moves | with_reducible apply enterPhase_moves
    | with_reducible apply setOutcome_moves

theorem enterRecallReturn_moves (c : Nat) (o : HOutcome) (hs : Moves A s₀ s) (aD : A.device) (aN :
    A.notices) (aL : A.link) (aR : A.rack) (aU : A.custody) (aQ : A.orders) (aT : A.hatch) (aX :
    A.contexts) (aM : A.store) :
    Moves A s₀ (enterRecallReturn c o s) := by
  unfold enterRecallReturn
  (try dsimp only)
  repeat' first
    | with_reducible assumption | with_reducible apply testRecallReturn_moves
    | with_reducible apply manifestPrompt_moves | with_reducible apply enterPhase_moves
    | with_reducible apply setOutcome_moves

theorem enterRecallOf_moves (d : Direction) (c : Nat) (o : HOutcome) (hs : Moves A s₀ s) (aD : A.device)
    (aN : A.notices) (aL : A.link) (aR : A.rack) (aU : A.custody) (aQ : A.orders) (aT : A.hatch) (aX :
    A.contexts) (aM : A.store) :
    Moves A s₀ (enterRecallOf d c o s) := by
  unfold enterRecallOf
  (try dsimp only)
  repeat' first
    | with_reducible assumption | with_reducible apply enterRecall_moves
    | with_reducible apply enterRecallReturn_moves | split

theorem takeCancel_moves (hs : Moves A s₀ s) (aD : A.device) (aN : A.notices) (aL : A.link) (aR :
    A.rack) (aU : A.custody) (aQ : A.orders) (aT : A.hatch) (aX : A.contexts) (aM : A.store) :
    Moves A s₀ (takeCancel s) := by
  unfold takeCancel
  (try dsimp only)
  repeat' first
    | with_reducible assumption | with_reducible apply endContext_moves
    | with_reducible apply abandonLoading_moves | with_reducible apply enterRecall_moves
    | with_reducible apply enterRecallReturn_moves | with_reducible apply phasePrompt_moves | split

theorem waitLimitExpired_moves (c : Nat) (hs : Moves A s₀ s) (aD : A.device) (aN : A.notices) (aL :
    A.link) (aR : A.rack) (aU : A.custody) (aQ : A.orders) (aT : A.hatch) (aX : A.contexts) (aM :
    A.store) :
    Moves A s₀ (waitLimitExpired c s) := by
  unfold waitLimitExpired
  (try dsimp only)
  repeat' first
    | with_reducible assumption | with_reducible apply endContext_moves | split

theorem loadingLimitExpired_moves (c : Nat) (hs : Moves A s₀ s) (aD : A.device) (aN : A.notices) (aL :
    A.link) (aR : A.rack) (aU : A.custody) (aQ : A.orders) (aT : A.hatch) (aX : A.contexts) (aM :
    A.store) :
    Moves A s₀ (loadingLimitExpired c s) := by
  unfold loadingLimitExpired
  (try dsimp only)
  repeat' first
    | with_reducible assumption | with_reducible apply abandonLoading_moves
    | with_reducible apply enterRecallReturn_moves | split

theorem collectingLimitExpired_moves (c : Nat) (hs : Moves A s₀ s) (aD : A.device) (aN : A.notices) (aL
    : A.link) (aR : A.rack) (aU : A.custody) (aQ : A.orders) (aT : A.hatch) (aX : A.contexts) (aM :
    A.store) :
    Moves A s₀ (collectingLimitExpired c s) := by
  unfold collectingLimitExpired
  (try dsimp only)
  repeat' first
    | with_reducible assumption | with_reducible apply enterRecall_moves | split

theorem disputeEffect_moves (c : Nat) (hs : Moves A s₀ s) (aD : A.device) (aN : A.notices) (aL : A.link)
    (aR : A.rack) (aU : A.custody) (aQ : A.orders) (aT : A.hatch) (aX : A.contexts) (aM : A.store) :
    Moves A s₀ (disputeEffect c s) := by
  unfold disputeEffect
  (try dsimp only)
  repeat' first
    | with_reducible assumption | with_reducible apply enterRecallOf_moves | split

theorem releaseLimitExpired_moves (c : Nat) (hs : Moves A s₀ s) (aD : A.device) (aN : A.notices) (aL :
    A.link) (aR : A.rack) (aU : A.custody) (aQ : A.orders) (aT : A.hatch) (aX : A.contexts) (aM :
    A.store) :
    Moves A s₀ (releaseLimitExpired c s) := by
  unfold releaseLimitExpired
  (try dsimp only)
  repeat' first
    | with_reducible assumption | with_reducible apply disputeEffect_moves | split

theorem stopPhaseTimer_moves (c : Nat) (hs : Moves A s₀ s) (aX : A.contexts) :
    Moves A s₀ (stopPhaseTimer c s) := by
  unfold stopPhaseTimer
  (try dsimp only)
  repeat' first
    | with_reducible assumption | with_reducible apply putContext_moves | split

theorem recallLimitExpired_moves (c : Nat) (hs : Moves A s₀ s) (aD : A.device) (aN : A.notices) (aL :
    A.link) (aR : A.rack) (aU : A.custody) (aQ : A.orders) (aT : A.hatch) (aX : A.contexts) (aM :
    A.store) :
    Moves A s₀ (recallLimitExpired c s) := by
  unfold recallLimitExpired
  (try dsimp only)
  repeat' first
    | with_reducible assumption | with_reducible apply testRecall_moves
    | with_reducible apply manifestPrompt_moves | with_reducible apply resolveManifest_moves
    | with_reducible apply resolveTaken_moves | with_reducible apply stopPhaseTimer_moves | with_reducible apply testRecallReturn_moves | split
    | intro

theorem acceptOne_moves (c i : Nat) (new : Record → Record) (hs : Moves A s₀ s) (aD : A.device) (aN :
    A.notices) (aL : A.link) (aR : A.rack) (aU : A.custody) (aQ : A.orders) (aX : A.contexts) (aM :
    A.store) :
    Moves A s₀ (acceptOne c i new s) := by
  unfold acceptOne
  (try dsimp only)
  repeat' first
    | with_reducible assumption | with_reducible apply claim_moves | with_reducible apply putContext_moves
    | split | intro

theorem promptDone_moves (c : Nat) (hs : Moves A s₀ s) (aL : A.link) :
    Moves A s₀ (promptDone c s) := by
  unfold promptDone
  (try dsimp only)
  repeat' first
    | with_reducible assumption | with_reducible apply postPrompt_moves | split

theorem acceptEffect_moves (c : Nat) (hs : Moves A s₀ s) (aD : A.device) (aN : A.notices) (aL : A.link)
    (aR : A.rack) (aU : A.custody) (aQ : A.orders) (aT : A.hatch) (aX : A.contexts) (aM : A.store) :
    Moves A s₀ (acceptEffect c s) := by
  unfold acceptEffect
  (try dsimp only)
  repeat' first
    | with_reducible assumption | with_reducible apply acceptOne_moves
    | with_reducible apply endContext_moves | with_reducible apply promptDone_moves
    | with_reducible apply enterWaitDry_moves | with_reducible apply setOutcome_moves
    | with_reducible apply Moves.foldl | split | intro

theorem fireResolve_moves (c : Nat) (x : Context) (hs : Moves A s₀ s) (aD : A.device) (aN : A.notices)
    (aL : A.link) (aR : A.rack) (aU : A.custody) (aQ : A.orders) (aX : A.contexts) (aM : A.store) :
    Moves A s₀ (fireResolve c x s) := by
  unfold fireResolve
  (try dsimp only)
  repeat' first
    | with_reducible assumption | with_reducible apply resolveManifest_moves | split | intro

theorem fireAbortOne_moves (c : Nat) (hs : Moves A s₀ s) (aD : A.device) (aN : A.notices) (aL : A.link)
    (aR : A.rack) (aU : A.custody) (aQ : A.orders) (aT : A.hatch) (aX : A.contexts) (aM : A.store) :
    Moves A s₀ (fireAbortOne c s) := by
  unfold fireAbortOne
  (try dsimp only)
  repeat' first
    | with_reducible assumption | with_reducible apply endContext_moves
    | with_reducible apply fireResolve_moves | split

theorem fireAbort_moves (hs : Moves A s₀ s) (aD : A.device) (aN : A.notices) (aL : A.link) (aR : A.rack)
    (aU : A.custody) (aQ : A.orders) (aT : A.hatch) (aX : A.contexts) (aM : A.store) :
    Moves A s₀ (fireAbort s) := by
  unfold fireAbort
  (try dsimp only)
  repeat' first
    | with_reducible assumption | with_reducible apply fireAbortOne_moves

end Sys2Proof.Machine
end

