-- ==== Sys2Proof/Laws/MovesFire.lean ====
section
/-! SUPPORT. Laws/MovesFire: the operations of the Fire Controller are moves. -/

namespace Sys2Proof.Machine

variable {A : Allow} {s₀ s : State}

theorem refusals_eq (s : State) : refusals s = refusalTotal s.host := rfl

/-- A reply joining the end of the queue counts in its own place. -/
theorem keptTotal_append (h : HostLink) (rs : List Reply) :
    keptTotal { h with replies := h.replies ++ rs } =
      keptTotal h + (rs.filter fun r => r.place == .kept).length := by
  unfold keptTotal
  simp only [List.filter_append, List.length_append]
  omega

theorem refusalTotal_append (h : HostLink) (rs : List Reply) :
    refusalTotal { h with replies := h.replies ++ rs } =
      refusalTotal h + (rs.filter fun r => r.place == .refusal).length := by
  unfold refusalTotal
  simp only [List.filter_append, List.length_append]

theorem refuseFrame_moves (f : Frame) (st : Status) (hs : Moves A s₀ s) (aH : A.host) :
    Moves A s₀ (refuseFrame f st s) := by
  unfold refuseFrame
  split
  · next room =>
    refine .host _ aH ?_ (fun _ => ?_) hs
    · rw [keptTotal_append]; rfl
    · rw [refusalTotal_append]
      rw [refusals_eq] at room
      have e : Config.refusalPlaces = 4 := rfl
      rw [e] at room
      show refusalTotal s.host + 1 ≤ 4
      omega
  · exact .host _ aH rfl (fun hx => hx) hs

theorem preempt_moves (hs : Moves A s₀ s) (aH : A.host) :
    Moves A s₀ (preempt s) := by
  unfold preempt
  (try dsimp only)
  repeat' first
    | with_reducible assumption | with_reducible apply refuseFrame_moves | with_reducible apply Moves.host
    | rfl | exact (fun hx => hx) | split

theorem setZoneFire_moves (z : Fin 8) (f : ZoneFire) (hs : Moves A s₀ s) (aF : A.fire) :
    Moves A s₀ (setZoneFire z f s) := by
  unfold setZoneFire
  (try dsimp only)
  repeat' first
    | with_reducible assumption | with_reducible apply Moves.fire | exact (fun hx => hx)

theorem postZoneFire_moves (z : Fin 8) (hs : Moves A s₀ s) (aN : A.notices) :
    Moves A s₀ (postZoneFire z s) := by
  unfold postZoneFire
  (try dsimp only)
  repeat' first
    | with_reducible assumption | with_reducible apply post_moves

theorem updateAlarm_moves (hs : Moves A s₀ s) (aN : A.notices) (aF : A.fire) :
    Moves A s₀ (updateAlarm s) := by
  unfold updateAlarm
  (try dsimp only)
  repeat' first
    | with_reducible assumption | with_reducible apply post_moves | with_reducible apply Moves.fire
    | exact (fun hx => hx) | split

theorem putFire_moves (z : Fin 8) (new : ZoneFire) (hs : Moves A s₀ s) (aN : A.notices) (aF : A.fire) :
    Moves A s₀ (putFire z new s) := by
  unfold putFire
  (try dsimp only)
  repeat' first
    | with_reducible assumption | with_reducible apply setZoneFire_moves
    | with_reducible apply updateAlarm_moves | with_reducible apply postZoneFire_moves | split

theorem tellFire_moves (z : Fin 8) (old : FireState) (hs : Moves A s₀ s) (aD : A.device) (aN :
    A.notices) (aL : A.link) (aC : A.climate) (aR : A.rack) (aU : A.custody) (aQ : A.orders) (aT :
    A.hatch) (aX : A.contexts) (aM : A.store) :
    Moves A s₀ (tellFire z old s) := by
  unfold tellFire
  (try dsimp only)
  repeat' first
    | with_reducible assumption | with_reducible apply hatchFireTold_moves
    | with_reducible apply updateRackPause_moves | with_reducible apply climateFireTold_moves

theorem changeFire_moves (z : Fin 8) (new : ZoneFire) (hs : Moves A s₀ s) (aD : A.device) (aN :
    A.notices) (aL : A.link) (aC : A.climate) (aR : A.rack) (aF : A.fire) (aU : A.custody) (aQ :
    A.orders) (aT : A.hatch) (aX : A.contexts) (aM : A.store) :
    Moves A s₀ (changeFire z new s) := by
  unfold changeFire
  (try dsimp only)
  repeat' first
    | with_reducible assumption | with_reducible apply putFire_moves | with_reducible apply tellFire_moves
    | split

theorem countdownTest_moves (z : Fin 8) (hs : Moves A s₀ s) (aD : A.device) (aN : A.notices) (aL :
    A.link) (aC : A.climate) (aR : A.rack) (aF : A.fire) (aU : A.custody) (aQ : A.orders) (aT : A.hatch)
    (aX : A.contexts) (aM : A.store) :
    Moves A s₀ (countdownTest z s) := by
  unfold countdownTest
  (try dsimp only)
  repeat' first
    | with_reducible assumption | with_reducible apply changeFire_moves | split

theorem confirm_moves (z : Fin 8) (f : ZoneFire) (hs : Moves A s₀ s) (aD : A.device) (aH : A.host) (aN :
    A.notices) (aL : A.link) (aC : A.climate) (aR : A.rack) (aF : A.fire) (aU : A.custody) (aQ :
    A.orders) (aT : A.hatch) (aX : A.contexts) (aM : A.store) :
    Moves A s₀ (confirm z f s) := by
  unfold confirm
  (try dsimp only)
  repeat' first
    | with_reducible assumption | with_reducible apply putFire_moves
    | with_reducible apply hatchFireTold_moves | with_reducible apply fireAbort_moves
    | with_reducible apply preempt_moves | with_reducible apply climateFireTold_moves
    | with_reducible apply updateRackPause_moves | with_reducible apply ordersFailFire_moves

theorem confirmAndCount_moves (z : Fin 8) (f : ZoneFire) (hs : Moves A s₀ s) (aD : A.device) (aH :
    A.host) (aN : A.notices) (aL : A.link) (aC : A.climate) (aR : A.rack) (aF : A.fire) (aU : A.custody)
    (aQ : A.orders) (aT : A.hatch) (aX : A.contexts) (aM : A.store) :
    Moves A s₀ (confirmAndCount z f s) := by
  unfold confirmAndCount
  (try dsimp only)
  repeat' first
    | with_reducible assumption | with_reducible apply countdownTest_moves
    | with_reducible apply confirm_moves

theorem takeHeads_moves (z : Fin 8) (a b : Head) (hs : Moves A s₀ s) (aD : A.device) (aH : A.host) (aN :
    A.notices) (aL : A.link) (aC : A.climate) (aR : A.rack) (aF : A.fire) (aU : A.custody) (aQ :
    A.orders) (aT : A.hatch) (aX : A.contexts) (aM : A.store) :
    Moves A s₀ (takeHeads z a b s) := by
  unfold takeHeads
  (try dsimp only)
  repeat' first
    | with_reducible assumption | with_reducible apply confirmAndCount_moves
    | with_reducible apply putFire_moves | with_reducible apply changeFire_moves | split

theorem takeHold_moves (z : Fin 8) (h : Hold) (hs : Moves A s₀ s) (aD : A.device) (aN : A.notices) (aL :
    A.link) (aC : A.climate) (aR : A.rack) (aF : A.fire) (aU : A.custody) (aQ : A.orders) (aT : A.hatch)
    (aX : A.contexts) (aM : A.store) :
    Moves A s₀ (takeHold z h s) := by
  unfold takeHold
  (try dsimp only)
  repeat' first
    | with_reducible assumption | with_reducible apply countdownTest_moves
    | with_reducible apply putFire_moves | with_reducible apply changeFire_moves | split

theorem discharge_moves (z : Fin 8) (hs : Moves A s₀ s) (aD : A.device) (aH : A.host) (aN : A.notices)
    (aL : A.link) (aC : A.climate) (aR : A.rack) (aF : A.fire) (aU : A.custody) (aQ : A.orders) (aT :
    A.hatch) (aX : A.contexts) (aM : A.store) :
    Moves A s₀ (discharge z s) := by
  unfold discharge
  (try dsimp only)
  repeat' first
    | with_reducible assumption | with_reducible apply confirm_moves
    | with_reducible apply changeFire_moves | with_reducible apply quarantine_moves | split

theorem releaseAgain_moves (z : Fin 8) (v : Valve) (code : Nat) (hs : Moves A s₀ s) (aL : A.link) :
    Moves A s₀ (releaseAgain z v code s) := by
  unfold releaseAgain
  (try dsimp only)
  repeat' first
    | with_reducible assumption | with_reducible apply postRelease_moves | split

theorem takeValve_moves (z : Fin 8) (v : Valve) (code : Nat) (hs : Moves A s₀ s) (aD : A.device) (aH :
    A.host) (aN : A.notices) (aL : A.link) (aC : A.climate) (aR : A.rack) (aF : A.fire) (aU : A.custody)
    (aQ : A.orders) (aT : A.hatch) (aX : A.contexts) (aM : A.store) :
    Moves A s₀ (takeValve z v code s) := by
  unfold takeValve
  (try dsimp only)
  repeat' first
    | with_reducible assumption | with_reducible apply setZoneFire_moves
    | with_reducible apply discharge_moves | with_reducible apply releaseAgain_moves | split

theorem takeFire_moves (z : Fin 8) (a b : Head) (h : Hold) (v : Valve) (code : Nat) (hs : Moves A s₀ s)
    (aD : A.device) (aH : A.host) (aN : A.notices) (aL : A.link) (aC : A.climate) (aR : A.rack) (aF :
    A.fire) (aU : A.custody) (aQ : A.orders) (aT : A.hatch) (aX : A.contexts) (aM : A.store) :
    Moves A s₀ (takeFire z a b h v code s) := by
  unfold takeFire
  (try dsimp only)
  repeat' first
    | with_reducible assumption | with_reducible apply takeValve_moves
    | with_reducible apply takeHold_moves | with_reducible apply takeHeads_moves

theorem setEquipmentLost_moves (z : Fin 8) (lost : Bool) (hs : Moves A s₀ s) (aN : A.notices) (aF :
    A.fire) :
    Moves A s₀ (setEquipmentLost z lost s) := by
  unfold setEquipmentLost
  (try dsimp only)
  repeat' first
    | with_reducible assumption | with_reducible apply putFire_moves

theorem unboundFire_moves (z : Fin 8) (hs : Moves A s₀ s) (aN : A.notices) (aF : A.fire) :
    Moves A s₀ (unboundFire z s) := by
  unfold unboundFire
  (try dsimp only)
  repeat' first
    | with_reducible assumption | with_reducible apply putFire_moves

theorem alertExpired_moves (z : Fin 8) (hs : Moves A s₀ s) (aD : A.device) (aH : A.host) (aN :
    A.notices) (aL : A.link) (aC : A.climate) (aR : A.rack) (aF : A.fire) (aU : A.custody) (aQ :
    A.orders) (aT : A.hatch) (aX : A.contexts) (aM : A.store) :
    Moves A s₀ (alertExpired z s) := by
  unfold alertExpired
  (try dsimp only)
  repeat' first
    | with_reducible assumption | with_reducible apply confirmAndCount_moves | split

theorem countdownExpired_moves (z : Fin 8) (hs : Moves A s₀ s) (aD : A.device) (aN : A.notices) (aL :
    A.link) (aC : A.climate) (aR : A.rack) (aF : A.fire) (aU : A.custody) (aQ : A.orders) (aT : A.hatch)
    (aX : A.contexts) (aM : A.store) :
    Moves A s₀ (countdownExpired z s) := by
  unfold countdownExpired
  (try dsimp only)
  repeat' first
    | with_reducible assumption | with_reducible apply changeFire_moves
    | with_reducible apply postRelease_moves | split

theorem ackExpired_moves (z : Fin 8) (hs : Moves A s₀ s) (aN : A.notices) (aF : A.fire) :
    Moves A s₀ (ackExpired z s) := by
  unfold ackExpired
  (try dsimp only)
  repeat' first
    | with_reducible assumption | with_reducible apply putFire_moves | split

theorem returnToNormal_moves (z : Fin 8) (hs : Moves A s₀ s) (aD : A.device) (aN : A.notices) (aL :
    A.link) (aC : A.climate) (aR : A.rack) (aF : A.fire) (aU : A.custody) (aQ : A.orders) (aT : A.hatch)
    (aX : A.contexts) (aM : A.store) :
    Moves A s₀ (returnToNormal z s) := by
  unfold returnToNormal
  (try dsimp only)
  repeat' first
    | with_reducible assumption | with_reducible apply changeFire_moves
    | with_reducible apply ackExpired_moves

theorem acknowledge_moves (z : Fin 8) (hs : Moves A s₀ s) (aN : A.notices) (aF : A.fire) :
    Moves A s₀ (acknowledge z s) := by
  unfold acknowledge
  (try dsimp only)
  repeat' first
    | with_reducible assumption | with_reducible apply putFire_moves

theorem armedChanged_moves (z : Fin 8) (hs : Moves A s₀ s) (aD : A.device) (aN : A.notices) (aL :
    A.link) (aC : A.climate) (aR : A.rack) (aF : A.fire) (aU : A.custody) (aQ : A.orders) (aT : A.hatch)
    (aX : A.contexts) (aM : A.store) :
    Moves A s₀ (armedChanged z s) := by
  unfold armedChanged
  (try dsimp only)
  repeat' first
    | with_reducible assumption | with_reducible apply countdownTest_moves
    | with_reducible apply changeFire_moves | split

theorem setArmedFlag_moves (z : Fin 8) (armed : Bool) (hs : Moves A s₀ s) (aD : A.device) (aN :
    A.notices) (aL : A.link) (aS : A.settings) (aC : A.climate) (aR : A.rack) (aF : A.fire) (aU :
    A.custody) (aQ : A.orders) (aT : A.hatch) (aX : A.contexts) (aM : A.store) :
    Moves A s₀ (setArmedFlag z armed s) := by
  unfold setArmedFlag
  (try dsimp only)
  repeat' first
    | with_reducible assumption | with_reducible apply armedChanged_moves
    | with_reducible apply Moves.settings | exact (fun hx => hx) | split

end Sys2Proof.Machine
end

