-- ==== Sys2Proof/Laws/MovesLink.lean ====
section
/-! SUPPORT. Laws/MovesLink: the operations of the Field Link Controller are moves. -/

namespace Sys2Proof.Machine

variable {A : Allow} {s₀ s : State}

theorem endDelivery_moves (delivered : Bool) (hs : Moves A s₀ s) (aL : A.link) :
    Moves A s₀ (endDelivery delivered s) := by
  unfold endDelivery
  split
  · exact .link _ aL (fun k => (List.Sublist.map _ List.filter_sublist).nodup k) hs
  · refine .link _ aL (fun k => ?_) hs
    unfold QueueOk at *
    rw [List.map_map]
    exact k

theorem markInFlight_moves (i : Nat) (cmd : CmdKind) (hs : Moves A s₀ s) (aL : A.link) :
    Moves A s₀ (markInFlight i cmd s) := by
  refine .link _ aL (fun k => ?_) hs
  unfold QueueOk at *
  rw [List.map_map]
  have e : ((fun e : QueueEntry => (e.node, e.cmd)) ∘ fun e =>
      if (e.node == i && e.cmd == cmd) = true then { e with inFlight := true } else e) =
      fun e => (e.node, e.cmd) := by
    funext e
    simp only [Function.comp]
    split <;> rfl
  rw [e]
  exact k

theorem endForward_moves (st : Status) (data : List Byte) (hs : Moves A s₀ s) (aH : A.host)
    (aL : A.link) : Moves A s₀ (endForward st data s) := by
  unfold endForward
  split
  · exact .link _ aL (fun hx => hx) hs
  · next tag e =>
    refine .host _ aH ?_ (fun hx => ?_) (.link _ aL (fun hx => hx) hs)
    · have k := keptTotal_append { s.host with executing := none }
        [{ place := .kept, tag := tag, code := 0x23, status := st, data := data }]
      refine k.trans ?_
      unfold keptTotal
      simp [e]
    · have k := refusalTotal_append { s.host with executing := none }
        [{ place := .kept, tag := tag, code := 0x23, status := st, data := data }]
      exact Nat.le_trans (Nat.le_of_eq k) hx

theorem putNode_moves (i : Nat) (n : Node) (hs : Moves A s₀ s) (aO : A.nodes) :
    Moves A s₀ (putNode i n s) := by
  unfold putNode
  (try dsimp only)
  repeat' first
    | with_reducible assumption | with_reducible apply Moves.nodes | exact Table.put_keeps
    | exact (fun hx => hx)

theorem modifyNode_moves (i : Nat) (f : Node → Node) (hs : Moves A s₀ s) (aO : A.nodes) :
    Moves A s₀ (modifyNode i f s) := by
  unfold modifyNode
  (try dsimp only)
  repeat' first
    | with_reducible assumption | with_reducible apply putNode_moves | split

theorem beginAddressed_moves (i : Nat) (origin : Origin) (code : Nat) (data : List Byte) (hs : Moves A
    s₀ s) (aL : A.link) :
    Moves A s₀ (beginAddressed i origin code data s) := by
  unfold beginAddressed
  (try dsimp only)
  repeat' first
    | with_reducible assumption | with_reducible apply markInFlight_moves
    | with_reducible apply Moves.link | exact (fun hx => hx) | split

theorem deliver_moves (e : QueueEntry) (hs : Moves A s₀ s) (aL : A.link) :
    Moves A s₀ (deliver e s) := by
  unfold deliver
  (try dsimp only)
  repeat' first
    | with_reducible assumption | with_reducible apply beginAddressed_moves

theorem routinePoll_moves (i : Nat) (hs : Moves A s₀ s) (aL : A.link) :
    Moves A s₀ (routinePoll i s) := by
  unfold routinePoll
  (try dsimp only)
  repeat' first
    | with_reducible assumption | with_reducible apply beginAddressed_moves | split

theorem cursorPoll_moves (hs : Moves A s₀ s) (aL : A.link) :
    Moves A s₀ (cursorPoll s) := by
  unfold cursorPoll
  (try dsimp only)
  repeat' first
    | with_reducible assumption | with_reducible apply routinePoll_moves | with_reducible apply Moves.link
    | exact (fun hx => hx) | split

theorem chooseRoutine_moves (hs : Moves A s₀ s) (aL : A.link) :
    Moves A s₀ (chooseRoutine s) := by
  unfold chooseRoutine
  (try dsimp only)
  repeat' first
    | with_reducible assumption | with_reducible apply cursorPoll_moves
    | with_reducible apply routinePoll_moves | with_reducible apply Moves.link | exact (fun hx => hx)
    | split

theorem chooseWork_moves (hs : Moves A s₀ s) (aL : A.link) :
    Moves A s₀ (chooseWork s) := by
  unfold chooseWork
  (try dsimp only)
  repeat' first
    | with_reducible assumption | with_reducible apply deliver_moves
    | with_reducible apply beginAddressed_moves | with_reducible apply chooseRoutine_moves | split

theorem chooseTransaction_moves (found : Option Nat) (hs : Moves A s₀ s) (aL : A.link) :
    Moves A s₀ (chooseTransaction found s) := by
  unfold chooseTransaction
  (try dsimp only)
  repeat' first
    | with_reducible assumption | with_reducible apply chooseWork_moves
    | with_reducible apply beginAddressed_moves | with_reducible apply Moves.link | exact (fun hx => hx)
    | split

theorem settleField_moves (hs : Moves A s₀ s) (aL : A.link) :
    Moves A s₀ (settleField s) := by
  unfold settleField
  (try dsimp only)
  repeat' first
    | with_reducible assumption | with_reducible apply chooseTransaction_moves | split

theorem settleStartup_moves (hs : Moves A s₀ s) (aD : A.device) :
    Moves A s₀ (settleStartup s) := by
  unfold settleStartup
  (try dsimp only)
  repeat' first
    | with_reducible assumption | with_reducible apply Moves.device | rfl | exact (fun hx => hx) | split

theorem leaveStartup_moves (i : Nat) (hs : Moves A s₀ s) (aD : A.device) :
    Moves A s₀ (leaveStartup i s) := by
  unfold leaveStartup
  (try dsimp only)
  repeat' first
    | with_reducible assumption | with_reducible apply settleStartup_moves
    | with_reducible apply Moves.device | rfl | exact (fun hx => hx)

theorem dropForward_moves (i : Nat) (hs : Moves A s₀ s) (aH : A.host) (aL : A.link) :
    Moves A s₀ (dropForward i s) := by
  unfold dropForward
  (try dsimp only)
  repeat' first
    | with_reducible assumption | with_reducible apply endForward_moves | split

theorem postHealth_moves (i : Nat) (hs : Moves A s₀ s) (aN : A.notices) :
    Moves A s₀ (postHealth i s) := by
  unfold postHealth
  (try dsimp only)
  repeat' first
    | with_reducible assumption | with_reducible apply post_moves | split

theorem healthChanged_moves (i : Nat) (before : Health) (hs : Moves A s₀ s) (aD : A.device) (aN :
    A.notices) (aL : A.link) (aC : A.climate) (aR : A.rack) (aF : A.fire) (aU : A.custody) (aQ :
    A.orders) (aX : A.contexts) (aM : A.store) :
    Moves A s₀ (healthChanged i before s) := by
  unfold healthChanged
  (try dsimp only)
  repeat' first
    | with_reducible assumption | with_reducible apply postHealth_moves
    | with_reducible apply setEquipmentLost_moves | with_reducible apply refreshReading_moves
    | with_reducible apply leaveStartup_moves | split

theorem handState_moves (i : Nat) (n : Node) (code : Nat) (st : NodeState) (hs : Moves A s₀ s) (aD :
    A.device) (aH : A.host) (aN : A.notices) (aL : A.link) (aC : A.climate) (aR : A.rack) (aF : A.fire)
    (aU : A.custody) (aQ : A.orders) (aT : A.hatch) (aX : A.contexts) (aM : A.store) (aA : A.air) :
    Moves A s₀ (handState i n code st s) := by
  unfold handState
  (try dsimp only)
  repeat' first
    | with_reducible assumption | with_reducible apply takeProbe_moves
    | with_reducible apply takeFire_moves | with_reducible apply takeAir_moves
    | with_reducible apply takeHatch_moves | with_reducible apply refreshReading_moves | split

theorem handEvent_moves (target : Target) (e : FieldEvent) (hs : Moves A s₀ s) (aD : A.device) (aN :
    A.notices) (aL : A.link) (aR : A.rack) (aU : A.custody) (aQ : A.orders) (aT : A.hatch) (aX :
    A.contexts) (aP : A.roster) (aM : A.store) :
    Moves A s₀ (handEvent target e s) := by
  cases target <;> cases e <;> dsimp only [handEvent] <;> repeat' first
    | with_reducible assumption | with_reducible apply shelfInserted_moves
    | with_reducible apply shelfRemoved_moves | with_reducible apply rackInserted_moves
    | with_reducible apply rackRemoved_moves | with_reducible apply hatchEntered_moves
    | with_reducible apply hatchLeft_moves | with_reducible apply takeToken_moves
    | with_reducible apply takeConfirm_moves | with_reducible apply takeCancel_moves | split

theorem acceptBatch_moves (i : Nat) (n : Node) (number : Nat) (es : List FieldEvent) (hs : Moves A s₀ s)
    (aD : A.device) (aN : A.notices) (aL : A.link) (aO : A.nodes) (aR : A.rack) (aU : A.custody) (aQ :
    A.orders) (aT : A.hatch) (aX : A.contexts) (aP : A.roster) (aM : A.store) :
    Moves A s₀ (acceptBatch i n number es s) := by
  unfold acceptBatch
  (try dsimp only)
  repeat' first
    | with_reducible assumption | with_reducible apply handEvent_moves
    | with_reducible apply modifyNode_moves | with_reducible apply Moves.foldl | intro

theorem setAssembly_moves (i : Nat) (a : Option Assembly) (accepted : Option Nat) (hs : Moves A s₀ s)
    (aO : A.nodes) :
    Moves A s₀ (setAssembly i a accepted s) := by
  unfold setAssembly
  (try dsimp only)
  repeat' first
    | with_reducible assumption | with_reducible apply modifyNode_moves | intro

theorem takeBatch_moves (i : Nat) (n : Node) (number : Nat) (es : List FieldEvent) (hs : Moves A s₀ s)
    (aD : A.device) (aN : A.notices) (aL : A.link) (aO : A.nodes) (aR : A.rack) (aU : A.custody) (aQ :
    A.orders) (aT : A.hatch) (aX : A.contexts) (aP : A.roster) (aM : A.store) :
    Moves A s₀ (takeBatch i n number es s) := by
  unfold takeBatch
  (try dsimp only)
  repeat' first
    | with_reducible assumption | with_reducible apply setAssembly_moves
    | with_reducible apply acceptBatch_moves | split

theorem handSnapshot_moves (target : Target) (es : List SnapEntry) (hs : Moves A s₀ s) (aD : A.device)
    (aN : A.notices) (aL : A.link) (aR : A.rack) (aU : A.custody) (aQ : A.orders) (aT : A.hatch) (aX :
    A.contexts) (aM : A.store) :
    Moves A s₀ (handSnapshot target es s) := by
  unfold handSnapshot
  (try dsimp only)
  repeat' first
    | with_reducible assumption | with_reducible apply shelfSnapshot_moves
    | with_reducible apply rackSnapshot_moves | with_reducible apply hatchSnapshot_moves | split

theorem addSegment_moves (i : Nat) (n : Node) (held : List SnapEntry) (number : Nat) (last : Bool) (es :
    List SnapEntry) (hs : Moves A s₀ s) (aD : A.device) (aN : A.notices) (aL : A.link) (aO : A.nodes)
    (aR : A.rack) (aU : A.custody) (aQ : A.orders) (aT : A.hatch) (aX : A.contexts) (aM : A.store) :
    Moves A s₀ (addSegment i n held number last es s) := by
  unfold addSegment
  (try dsimp only)
  repeat' first
    | with_reducible assumption | with_reducible apply handSnapshot_moves
    | with_reducible apply setAssembly_moves | split

theorem takeSegment_moves (i : Nat) (n : Node) (number : Nat) (last : Bool) (es : List SnapEntry) (hs :
    Moves A s₀ s) (aD : A.device) (aN : A.notices) (aL : A.link) (aO : A.nodes) (aR : A.rack) (aU :
    A.custody) (aQ : A.orders) (aT : A.hatch) (aX : A.contexts) (aM : A.store) :
    Moves A s₀ (takeSegment i n number last es s) := by
  unfold takeSegment
  (try dsimp only)
  repeat' first
    | with_reducible assumption | with_reducible apply addSegment_moves
    | with_reducible apply setAssembly_moves | split

theorem takeItems_moves (i : Nat) (r : Report) (items : Items) (hs : Moves A s₀ s) (aD : A.device) (aN :
    A.notices) (aL : A.link) (aO : A.nodes) (aR : A.rack) (aU : A.custody) (aQ : A.orders) (aT :
    A.hatch) (aX : A.contexts) (aP : A.roster) (aM : A.store) :
    Moves A s₀ (takeItems i r items s) := by
  unfold takeItems
  (try dsimp only)
  repeat' first
    | with_reducible assumption | with_reducible apply takeSegment_moves
    | with_reducible apply acceptBatch_moves | with_reducible apply takeBatch_moves | split

theorem countTransaction_moves (counted missed : Bool) (hs : Moves A s₀ s) (aL : A.link) :
    Moves A s₀ (countTransaction counted missed s) := by
  unfold countTransaction
  (try dsimp only)
  repeat' first
    | with_reducible assumption | with_reducible apply Moves.link | exact (fun hx => hx) | split

theorem noteMore_moves (i : Nat) (more : Bool) (hs : Moves A s₀ s) (aL : A.link) :
    Moves A s₀ (noteMore i more s) := by
  unfold noteMore
  (try dsimp only)
  repeat' first
    | with_reducible assumption | with_reducible apply Moves.link | exact (fun hx => hx) | split

theorem forwardReply_moves (origin : Origin) (st : Status) (data : List Byte) (hs : Moves A s₀ s) (aH :
    A.host) (aL : A.link) :
    Moves A s₀ (forwardReply origin st data s) := by
  unfold forwardReply
  (try dsimp only)
  repeat' first
    | with_reducible assumption | with_reducible apply endForward_moves | split

theorem takeMiss_moves (i : Nat) (n : Node) (t : Transaction) (hs : Moves A s₀ s) (aD : A.device) (aH :
    A.host) (aN : A.notices) (aL : A.link) (aO : A.nodes) (aC : A.climate) (aR : A.rack) (aF : A.fire)
    (aU : A.custody) (aQ : A.orders) (aX : A.contexts) (aM : A.store) :
    Moves A s₀ (takeMiss i n t s) := by
  unfold takeMiss
  (try dsimp only)
  repeat' first
    | with_reducible assumption | with_reducible apply putNode_moves
    | with_reducible apply endDelivery_moves | with_reducible apply dropForward_moves
    | with_reducible apply forwardReply_moves | with_reducible apply healthChanged_moves | split

theorem takeOtherKind_moves (i : Nat) (n : Node) (t : Transaction) (r : Report) (hs : Moves A s₀ s) (aD
    : A.device) (aH : A.host) (aN : A.notices) (aL : A.link) (aO : A.nodes) (aC : A.climate) (aR :
    A.rack) (aF : A.fire) (aU : A.custody) (aQ : A.orders) (aX : A.contexts) (aM : A.store) :
    Moves A s₀ (takeOtherKind i n t r s) := by
  unfold takeOtherKind
  (try dsimp only)
  repeat' first
    | with_reducible assumption | with_reducible apply putNode_moves
    | with_reducible apply endDelivery_moves | with_reducible apply dropForward_moves
    | with_reducible apply forwardReply_moves | with_reducible apply noteMore_moves
    | with_reducible apply healthChanged_moves

theorem takeValid_moves (i : Nat) (n : Node) (t : Transaction) (bytes : List Byte) (r : Report) (st :
    NodeState) (items : Items) (hs : Moves A s₀ s) (aD : A.device) (aH : A.host) (aN : A.notices) (aL :
    A.link) (aO : A.nodes) (aC : A.climate) (aR : A.rack) (aF : A.fire) (aU : A.custody) (aQ : A.orders)
    (aT : A.hatch) (aX : A.contexts) (aP : A.roster) (aM : A.store) (aA : A.air) :
    Moves A s₀ (takeValid i n t bytes r st items s) := by
  unfold takeValid
  (try dsimp only)
  repeat' first
    | with_reducible assumption | with_reducible apply putNode_moves
    | with_reducible apply endDelivery_moves | with_reducible apply leaveStartup_moves
    | with_reducible apply healthChanged_moves | with_reducible apply takeItems_moves
    | with_reducible apply handState_moves | with_reducible apply forwardReply_moves
    | with_reducible apply noteMore_moves | split

theorem endOrphan_moves (t : Transaction) (missed : Bool) (hs : Moves A s₀ s) (aL : A.link) :
    Moves A s₀ (endOrphan t missed s) := by
  unfold endOrphan
  (try dsimp only)
  repeat' first
    | with_reducible assumption | with_reducible apply chooseTransaction_moves
    | with_reducible apply countTransaction_moves | with_reducible apply endDelivery_moves

theorem endTransaction_moves (t : Transaction) (bytes : Option (List Byte)) (hs : Moves A s₀ s) (aD :
    A.device) (aH : A.host) (aN : A.notices) (aL : A.link) (aO : A.nodes) (aC : A.climate) (aR : A.rack)
    (aF : A.fire) (aU : A.custody) (aQ : A.orders) (aT : A.hatch) (aX : A.contexts) (aP : A.roster) (aM
    : A.store) (aA : A.air) :
    Moves A s₀ (endTransaction t bytes s) := by
  unfold endTransaction
  (try dsimp only)
  repeat' first
    | with_reducible assumption | with_reducible apply endOrphan_moves
    | with_reducible apply chooseTransaction_moves | with_reducible apply countTransaction_moves
    | with_reducible apply takeMiss_moves | with_reducible apply takeOtherKind_moves
    | with_reducible apply takeValid_moves | with_reducible apply Moves.link | exact (fun hx => hx)
    | split | intro

theorem pollEnds_moves (hs : Moves A s₀ s) (aL : A.link) :
    Moves A s₀ (pollEnds s) := by
  unfold pollEnds
  (try dsimp only)
  repeat' first
    | with_reducible assumption | with_reducible apply Moves.link | exact (fun hx => hx) | split

theorem reportArrives_moves (bytes : List Byte) (hs : Moves A s₀ s) (aD : A.device) (aH : A.host) (aN :
    A.notices) (aL : A.link) (aO : A.nodes) (aC : A.climate) (aR : A.rack) (aF : A.fire) (aU :
    A.custody) (aQ : A.orders) (aT : A.hatch) (aX : A.contexts) (aP : A.roster) (aM : A.store) (aA :
    A.air) :
    Moves A s₀ (reportArrives bytes s) := by
  unfold reportArrives
  (try dsimp only)
  repeat' first
    | with_reducible assumption | with_reducible apply endTransaction_moves | split

theorem replyWindowEnds_moves (hs : Moves A s₀ s) (aD : A.device) (aH : A.host) (aN : A.notices) (aL :
    A.link) (aO : A.nodes) (aC : A.climate) (aR : A.rack) (aF : A.fire) (aU : A.custody) (aQ : A.orders)
    (aT : A.hatch) (aX : A.contexts) (aP : A.roster) (aM : A.store) (aA : A.air) :
    Moves A s₀ (replyWindowEnds s) := by
  unfold replyWindowEnds
  (try dsimp only)
  repeat' first
    | with_reducible assumption | with_reducible apply endTransaction_moves | split

theorem broadcastEnds_moves (hs : Moves A s₀ s) (aN : A.notices) (aL : A.link) (aO : A.nodes) :
    Moves A s₀ (broadcastEnds s) := by
  unfold broadcastEnds
  (try dsimp only)
  repeat' first
    | with_reducible assumption | with_reducible apply post_moves | with_reducible apply Moves.link
    | with_reducible apply Moves.nodes | exact Table.map_keeps | exact (fun hx => hx) | split | intro

theorem restoreRate_moves (hs : Moves A s₀ s) (aN : A.notices) (aL : A.link) :
    Moves A s₀ (restoreRate s) := by
  unfold restoreRate
  (try dsimp only)
  repeat' first
    | with_reducible assumption | with_reducible apply post_moves | with_reducible apply Moves.link
    | exact (fun hx => hx) | split

theorem bindTold_moves (i : Nat) (t : Target) (hs : Moves A s₀ s) (aD : A.device) (aN : A.notices) (aL :
    A.link) (aC : A.climate) (aR : A.rack) (aF : A.fire) (aU : A.custody) (aQ : A.orders) (aT : A.hatch)
    (aX : A.contexts) (aM : A.store) (aA : A.air) :
    Moves A s₀ (bindTold i t s) := by
  unfold bindTold
  (try dsimp only)
  repeat' first
    | with_reducible assumption | with_reducible apply refreshReading_moves
    | with_reducible apply resetAgreement_moves | with_reducible apply setProbe_moves
    | with_reducible apply unboundFire_moves | with_reducible apply postMode_moves
    | with_reducible apply bindHatch_moves | split

theorem bindNodeEffect_moves (i : Nat) (b : Binding) (hs : Moves A s₀ s) (aD : A.device) (aN :
    A.notices) (aL : A.link) (aO : A.nodes) (aC : A.climate) (aR : A.rack) (aF : A.fire) (aU :
    A.custody) (aQ : A.orders) (aT : A.hatch) (aX : A.contexts) (aM : A.store) (aA : A.air) :
    Moves A s₀ (bindNodeEffect i b s) := by
  unfold bindNodeEffect
  (try dsimp only)
  repeat' first
    | with_reducible assumption | with_reducible apply putNode_moves | with_reducible apply bindTold_moves
    | with_reducible apply postHealth_moves | with_reducible apply Moves.link
    | with_reducible apply Moves.device | rfl | exact (fun hx => hx) | split

theorem unbindTold_moves (i : Nat) (t : Target) (hs : Moves A s₀ s) (aD : A.device) (aN : A.notices) (aL
    : A.link) (aC : A.climate) (aR : A.rack) (aF : A.fire) (aU : A.custody) (aQ : A.orders) (aT :
    A.hatch) (aX : A.contexts) (aM : A.store) :
    Moves A s₀ (unbindTold i t s) := by
  unfold unbindTold
  (try dsimp only)
  repeat' first
    | with_reducible assumption | with_reducible apply refreshReading_moves
    | with_reducible apply resetAgreement_moves | with_reducible apply setProbe_moves
    | with_reducible apply unboundFire_moves | with_reducible apply unbindHatch_moves | split

theorem unbindNodeEffect_moves (i : Nat) (n : Node) (hs : Moves A s₀ s) (aD : A.device) (aN : A.notices)
    (aL : A.link) (aO : A.nodes) (aC : A.climate) (aR : A.rack) (aF : A.fire) (aU : A.custody) (aQ :
    A.orders) (aT : A.hatch) (aX : A.contexts) (aM : A.store) :
    Moves A s₀ (unbindNodeEffect i n s) := by
  unfold unbindNodeEffect
  exact (leaveStartup_moves _ 
    (unbindTold_moves _ _ (post_moves _ (.link _ aL
      (fun k => (List.Sublist.map _ List.filter_sublist).nodup k) (.nodes _ aO Table.erase_keeps hs)) aN) aD aN aL aC aR aF aU aQ aT aX aM) aD)

end Sys2Proof.Machine
end

