-- ==== Sys2Proof/Laws/MovesRestart.lean ====
section
/-! SUPPORT. Laws/MovesRestart: what a restart does, as moves (R176). -/

namespace Sys2Proof.Machine

variable {A : Allow} {s₀ s : State}

/-- A table in canonical form keeps any table so. -/
theorem keeps_of_rising {α : Type} {a b : Table α} (h : b.rising) : KeepsRising a b := fun _ => h

theorem Table.rising_of_sorted {α : Type} {t : Table α} {lo hi : Nat} (h : t.sorted lo hi = true) :
    t.risingFrom lo := by
  induction t generalizing lo with
  | nil => trivial
  | cons p t ih =>
    obtain ⟨k, v⟩ := p
    simp only [Table.sorted, Bool.and_eq_true, decide_eq_true_eq] at h
    exact ⟨h.1.1, ih h.2⟩

/-- What a table holds does not matter to its form. -/
theorem Table.map_rising' {α β : Type} {t : Table α} {f : Nat × α → β} (h : t.rising) :
    Table.rising (t.map fun p => (p.1, f p)) := Table.map_rising h

theorem takeSettings_moves (d : SettingsData) (defaulted : Bool) (hd : d.bindings.rising)
    (hs : Moves .all s₀ s) : Moves .all s₀ (takeSettings d defaulted s) := by
  unfold takeSettings
  refine .climate _ trivial (keeps_of_rising (Table.map_rising (Table.filter_rising hd)))
    (.link _ trivial (fun _ => List.nodup_nil)
      (.device _ trivial rfl (.nodes _ trivial ?_ (.settings _ trivial hs))))
  exact keeps_of_rising (Table.map_rising (f := fun p => p.2.restarted) hd)

/-- Loaded settings list their bindings in rising order (R178). -/
theorem loadedSettings_rising (s : State) : (loadedSettings s).1.bindings.rising := by
  unfold loadedSettings
  split
  · split
    · next d _ u =>
      simp only [SettingsData.usable, Bool.and_eq_true] at u
      exact Table.rising_of_sorted u.1.2
    · trivial
  · trivial
  · trivial

theorem loadSettings_moves (h : Moves .all s₀ s) : Moves .all s₀ (loadSettings s) := by
  unfold loadSettings
  dsimp only
  split
  · exact takeSettings_moves _ _ (loadedSettings_rising s) h
  · exact takeSettings_moves _ _ (Table.filter_rising (loadedSettings_rising s)) h

theorem loadRecord_moves (i : Nat) (img : Image (Option RecordData)) (hs : Moves A s₀ s) (aD : A.device)
    (aN : A.notices) (aU : A.custody) :
    Moves A s₀ (loadRecord i img s) := by
  unfold loadRecord
  (try dsimp only)
  repeat' first
    | with_reducible assumption | with_reducible apply putRecord_moves
    | with_reducible apply faultStore_moves | split

theorem loadCourier_moves (i : Nat) (img : Image (Option Courier)) (hs : Moves A s₀ s) (aD : A.device)
    (aN : A.notices) (aP : A.roster) :
    Moves A s₀ (loadCourier i img s) := by
  unfold loadCourier
  (try dsimp only)
  repeat' first
    | with_reducible assumption | with_reducible apply faultStore_moves
    | with_reducible apply Moves.roster | exact Table.put_keeps | exact (fun hx => hx) | split

theorem loadImages_moves (hs : Moves A s₀ s) (aD : A.device) (aN : A.notices) (aU : A.custody) (aP :
    A.roster) :
    Moves A s₀ (loadImages s) := by
  unfold loadImages
  (try dsimp only)
  repeat' first
    | with_reducible assumption | with_reducible apply loadRecord_moves
    | with_reducible apply loadCourier_moves | with_reducible apply Moves.foldl | intro

theorem repairRecord_moves (i : Nat) (hs : Moves A s₀ s) (aD : A.device) (aN : A.notices) (aU :
    A.custody) (aM : A.store) :
    Moves A s₀ (repairRecord i s) := by
  unfold repairRecord
  (try dsimp only)
  repeat' first
    | with_reducible assumption | with_reducible apply faultStore_moves
    | with_reducible apply writeRecord_moves | with_reducible apply Moves.custody
    | exact Table.erase_keeps | exact (fun hx => hx) | split | intro

theorem repairCourier_moves (i : Nat) (hs : Moves A s₀ s) (aD : A.device) (aN : A.notices) (aP :
    A.roster) (aM : A.store) :
    Moves A s₀ (repairCourier i s) := by
  unfold repairCourier
  (try dsimp only)
  repeat' first
    | with_reducible assumption | with_reducible apply faultStore_moves
    | with_reducible apply writeCourier_moves | with_reducible apply Moves.roster
    | exact Table.erase_keeps | exact (fun hx => hx) | split | intro

theorem repairCustodian_moves (i : Nat) (hs : Moves A s₀ s) (aD : A.device) (aN : A.notices) (aP :
    A.roster) (aM : A.store) :
    Moves A s₀ (repairCustodian i s) := by
  unfold repairCustodian
  (try dsimp only)
  repeat' first
    | with_reducible assumption | with_reducible apply faultStore_moves
    | with_reducible apply putCourier_moves | split

theorem repairImages_moves (hs : Moves A s₀ s) (aD : A.device) (aN : A.notices) (aU : A.custody) (aP :
    A.roster) (aM : A.store) :
    Moves A s₀ (repairImages s) := by
  unfold repairImages
  (try dsimp only)
  repeat' first
    | with_reducible assumption | with_reducible apply repairRecord_moves
    | with_reducible apply repairCourier_moves | with_reducible apply repairCustodian_moves
    | with_reducible apply Moves.foldl | intro

theorem noteRestartBlock_moves (i : Nat) (hs : Moves A s₀ s) (aU : A.custody) :
    Moves A s₀ (noteRestartBlock i s) := by
  unfold noteRestartBlock
  (try dsimp only)
  repeat' first
    | with_reducible assumption | with_reducible apply setNewest_moves

theorem restartRecord_moves (i : Nat) (old new : Record) (hs : Moves A s₀ s) (aD : A.device) (aN :
    A.notices) (aU : A.custody) (aM : A.store) :
    Moves A s₀ (restartRecord i old new s) := by
  unfold restartRecord
  (try dsimp only)
  repeat' first
    | with_reducible assumption | with_reducible apply writeRecord_moves
    | with_reducible apply putRecord_moves | with_reducible apply noteRestartBlock_moves | split

theorem resolveRecord_moves (i : Nat) (hs : Moves A s₀ s) (aD : A.device) (aN : A.notices) (aU :
    A.custody) (aM : A.store) :
    Moves A s₀ (resolveRecord i s) := by
  unfold resolveRecord
  (try dsimp only)
  repeat' first
    | with_reducible assumption | with_reducible apply restartRecord_moves | split

theorem rebuildRecord_moves (i : Nat) (hs : Moves A s₀ s) (aD : A.device) (aN : A.notices) (aR : A.rack)
    (aU : A.custody) (aM : A.store) :
    Moves A s₀ (rebuildRecord i s) := by
  unfold rebuildRecord
  (try dsimp only)
  repeat' first
    | with_reducible assumption | with_reducible apply setPosition_moves
    | with_reducible apply restartRecord_moves | split

theorem postOutputs_moves (hs : Moves A s₀ s) (aL : A.link) :
    Moves A s₀ (postOutputs s) := by
  unfold postOutputs
  (try dsimp only)
  repeat' first
    | with_reducible assumption | with_reducible apply postHatchCommands_moves
    | with_reducible apply postMode_moves | with_reducible apply Moves.foldl | intro

theorem postRestarted_moves (hs : Moves A s₀ s) (aN : A.notices) :
    Moves A s₀ (postRestarted s) := by
  unfold postRestarted
  (try dsimp only)
  repeat' first
    | with_reducible assumption | with_reducible apply post_moves | split

theorem formStartupSet_moves (hs : Moves A s₀ s) (aD : A.device) :
    Moves A s₀ (formStartupSet s) := by
  unfold formStartupSet
  (try dsimp only)
  repeat' first
    | with_reducible assumption | with_reducible apply settleStartup_moves
    | with_reducible apply Moves.device | rfl | exact (fun hx => hx)

/-- R176: after its first step a restart is a move. -/
theorem restart_moves (cause : Cause) (s : State) : Moves .all (cleared cause s) (restart cause s) := by
  unfold restart
  dsimp only
  refine formStartupSet_moves (postRestarted_moves (postOutputs_moves ?_ trivial) trivial) trivial
  refine .foldl _ (fun _ _ k => by apply rebuildRecord_moves _ k <;> trivial) ?_
  refine .foldl _ (fun _ _ k => by apply resolveRecord_moves _ k <;> trivial) ?_
  refine loadSettings_moves ?_
  apply repairImages_moves
  · apply loadImages_moves .refl <;> trivial
  all_goals trivial

end Sys2Proof.Machine
end

