-- ==== Sys2Proof/Laws/MovesRequests.lean ====
section
/-! SUPPORT. Laws/MovesRequests: every request of Table 1-3 is a move with its reply, or holds execution (R5). -/

namespace Sys2Proof.Machine

variable {A : Allow} {s₀ s : State}

theorem setParamEffect_moves (p : Param) (v : Nat) (hs : Moves A s₀ s) (aD : A.device) (aN : A.notices)
    (aL : A.link) (aS : A.settings) (aR : A.rack) (aU : A.custody) (aQ : A.orders) (aX : A.contexts) (aM
    : A.store) :
    Moves A s₀ (setParamEffect p v s) := by
  unfold setParamEffect
  (try dsimp only)
  repeat' first
    | with_reducible assumption | with_reducible apply updateRackPause_moves
    | with_reducible apply Moves.settings | exact (fun hx => hx)

theorem zoneDefaulted_moves (before : Vector ZoneSettings 8) (z : Fin 8) (hs : Moves A s₀ s) (aD :
    A.device) (aN : A.notices) (aL : A.link) (aC : A.climate) (aR : A.rack) (aF : A.fire) (aU :
    A.custody) (aQ : A.orders) (aT : A.hatch) (aX : A.contexts) (aM : A.store) :
    Moves A s₀ (zoneDefaulted before z s) := by
  unfold zoneDefaulted
  (try dsimp only)
  repeat' first
    | with_reducible assumption | with_reducible apply evaluateZone_moves
    | with_reducible apply armedChanged_moves | split

theorem retireEffect_moves (i : Nat) (r : Record) (hs : Moves A s₀ s) (aD : A.device) (aN : A.notices)
    (aU : A.custody) (aT : A.hatch) (aM : A.store) :
    Moves A s₀ (retireEffect i r s) := by
  unfold retireEffect
  (try dsimp only)
  repeat' first
    | with_reducible assumption | with_reducible apply writeRecord_moves
    | with_reducible apply updateWetDwell_moves | with_reducible apply blockedNote_moves
    | with_reducible apply Moves.custody | exact Table.erase_keeps | exact (fun hx => hx)

theorem reserve_moves (k i : Nat) (hs : Moves A s₀ s) (aD : A.device) (aN : A.notices) (aL : A.link) (aR
    : A.rack) (aU : A.custody) (aQ : A.orders) (aX : A.contexts) (aM : A.store) :
    Moves A s₀ (reserve k i s) := by
  unfold reserve
  (try dsimp only)
  repeat' first
    | with_reducible assumption | with_reducible apply claim_moves | intro

theorem checkoutEffect_moves (k orderTag courier deadline : Nat) (labels : List Label) (hs : Moves A s₀
    s) (aD : A.device) (aN : A.notices) (aL : A.link) (aR : A.rack) (aU : A.custody) (aQ : A.orders) (aX
    : A.contexts) (aM : A.store) :
    Moves A s₀ (checkoutEffect k orderTag courier deadline labels s) := by
  unfold checkoutEffect
  (try dsimp only)
  repeat' first
    | with_reducible assumption | with_reducible apply putOrder_moves | with_reducible apply reserve_moves
    | with_reducible apply postOrder_moves | with_reducible apply evaluateOrder_moves
    | with_reducible apply Moves.foldl | split | intro

theorem discardFrame_moves (hs : Moves A s₀ s) (aH : A.host) :
    Moves A s₀ (discardFrame s) := by
  unfold discardFrame
  (try dsimp only)
  repeat' first
    | with_reducible assumption | with_reducible apply Moves.host | rfl | exact (fun hx => hx)

theorem setReceiver_moves (r : Receiver) (hs : Moves A s₀ s) (aH : A.host) :
    Moves A s₀ (setReceiver r s) := by
  unfold setReceiver
  (try dsimp only)
  repeat' first
    | with_reducible assumption | with_reducible apply Moves.host | rfl | exact (fun hx => hx)

theorem frameTimerEnds_moves (hs : Moves A s₀ s) (aH : A.host) :
    Moves A s₀ (frameTimerEnds s) := by
  unfold frameTimerEnds
  (try dsimp only)
  repeat' first
    | with_reducible assumption | with_reducible apply discardFrame_moves | split

theorem orderStateSent_moves (k : Nat) (st : OrderState) (hs : Moves A s₀ s) (aQ : A.orders) :
    Moves A s₀ (orderStateSent k st s) := by
  unfold orderStateSent
  (try dsimp only)
  repeat' first
    | with_reducible assumption | with_reducible apply Moves.orders | exact Table.erase_keeps
    | exact (fun hx => hx) | split

theorem handoverStateSent_moves (c : Nat) (ph : Phase) (hs : Moves A s₀ s) (aX : A.contexts) :
    Moves A s₀ (handoverStateSent c ph s) := by
  unfold handoverStateSent
  (try dsimp only)
  repeat' first
    | with_reducible assumption | with_reducible apply Moves.contexts | exact Table.erase_keeps
    | exact (fun hx => hx) | split

theorem noticeSent_moves (n : Notice) (hs : Moves A s₀ s) (aQ : A.orders) (aX : A.contexts) :
    Moves A s₀ (noticeSent n s) := by
  unfold noticeSent
  (try dsimp only)
  repeat' first
    | with_reducible assumption | with_reducible apply orderStateSent_moves
    | with_reducible apply handoverStateSent_moves | split

/-- What a request leaves: a move with its reply, or, for an accepted FORWARD, execution held (R5). -/
def Answer.Moved (A : Allow) (s : State) : Answer → Prop
  | .reply _ _ t => Moves A s t
  | .held t => ∃ tag l, (QueueOk s.link → QueueOk l) ∧
      t = (s.withHost { s.host with executing := some tag }).withLink l

theorem refuse_moved (st : Status) : (refuse st s).Moved A s := Moves.refl

theorem okWith_moved {data : List Byte} {t : State} (h : Moves A s t) : (okWith data t).Moved A s := h

theorem okPlain_moved {t : State} (h : Moves A s t) : (okPlain t).Moved A s := h

theorem reply_moved {st : Status} {data : List Byte} {t : State} (h : Moves A s t) :
    (Answer.reply st data t).Moved A s := h

theorem fireReply_moved (z : Fin 8) {t : State} (h : Moves A s t) : (fireReply z t).Moved A s := h

/-- A table of checks refuses without effect, or carries the request out. -/
theorem checked_moved (checks : List (Bool × Status)) {a : Answer} (h : a.Moved A s) :
    (checked checks s a).Moved A s := by
  unfold checked
  split
  · exact refuse_moved _
  · exact h

theorem withCourier_moved (courier : Half) {carry : Nat → Courier → Answer}
    (h : ∀ i c, (carry i c).Moved A s) : (withCourier courier s carry).Moved A s := by
  unfold withCourier
  split
  · split
    · exact refuse_moved _
    · exact h _ _
  · exact refuse_moved _

theorem statusRequest_moved (aH : A.host) :
    (statusRequest s).Moved A s := by
  unfold statusRequest
  (try dsimp only)
  repeat' first
    | with_reducible exact Moves.refl | with_reducible assumption | with_reducible apply okWith_moved
    | with_reducible apply Moves.host | rfl | exact (fun hx => hx)

theorem setNoticeMaskRequest_moved (mask : Byte) (aN : A.notices) :
    (setNoticeMaskRequest mask s).Moved A s := by
  unfold setNoticeMaskRequest
  (try dsimp only)
  repeat' first
    | with_reducible exact Moves.refl | with_reducible assumption | with_reducible apply refuse_moved
    | with_reducible apply okWith_moved | with_reducible apply Moves.notices | exact (fun hx => hx)
    | split

theorem restartRequest_moved  :
    (restartRequest s).Moved A s := by
  unfold restartRequest
  (try dsimp only)
  repeat' first
    | with_reducible exact Moves.refl | with_reducible assumption | with_reducible apply reply_moved

theorem getParamRequest_moved (number : Byte) :
    (getParamRequest number s).Moved A s := by
  unfold getParamRequest
  (try dsimp only)
  repeat' first
    | with_reducible exact Moves.refl | with_reducible assumption | with_reducible apply refuse_moved
    | with_reducible apply okWith_moved | split

theorem setParamRequest_moved (number : Byte) (value : Half) (aD : A.device) (aN : A.notices) (aL :
    A.link) (aS : A.settings) (aR : A.rack) (aU : A.custody) (aQ : A.orders) (aX : A.contexts) (aM :
    A.store) :
    (setParamRequest number value s).Moved A s := by
  unfold setParamRequest
  (try dsimp only)
  repeat' first
    | with_reducible exact Moves.refl | with_reducible assumption | with_reducible apply refuse_moved
    | with_reducible apply checked_moved | with_reducible apply okWith_moved
    | with_reducible apply setParamEffect_moves | split

theorem getZoneRequest_moved (zone : Byte) :
    (getZoneRequest zone s).Moved A s := by
  unfold getZoneRequest
  (try dsimp only)
  repeat' first
    | with_reducible exact Moves.refl | with_reducible assumption | with_reducible apply refuse_moved
    | with_reducible apply okWith_moved | split

theorem setZoneRequest_moved (zone present : Byte) (base limit setpoint deadband rhLow rhHigh tempLow
    tempHigh : Half) (aD : A.device) (aN : A.notices) (aL : A.link) (aS : A.settings) (aC : A.climate)
    (aR : A.rack) (aU : A.custody) (aQ : A.orders) (aX : A.contexts) (aM : A.store) :
    (setZoneRequest zone present base limit setpoint deadband rhLow rhHigh tempLow tempHigh s).Moved A s := by
  unfold setZoneRequest
  (try dsimp only)
  repeat' first
    | with_reducible exact Moves.refl | with_reducible assumption | with_reducible apply refuse_moved
    | with_reducible apply checked_moved | with_reducible apply okWith_moved
    | with_reducible apply evaluateZone_moves | with_reducible apply Moves.settings | exact (fun hx => hx)
    | split

theorem saveSettingsRequest_moved (aD : A.device) (aN : A.notices) (aM : A.store) (aI : A.image) :
    (saveSettingsRequest s).Moved A s := by
  unfold saveSettingsRequest
  (try dsimp only)
  repeat' first
    | with_reducible exact Moves.refl | with_reducible assumption | with_reducible apply okPlain_moved
    | with_reducible apply reply_moved | with_reducible apply writeSettings_moves
    | with_reducible apply Moves.device | rfl | exact (fun hx => hx) | split

theorem loadDefaultsRequest_moved (aD : A.device) (aN : A.notices) (aL : A.link) (aS : A.settings) (aC :
    A.climate) (aR : A.rack) (aF : A.fire) (aU : A.custody) (aQ : A.orders) (aT : A.hatch) (aX :
    A.contexts) (aM : A.store) :
    (loadDefaultsRequest s).Moved A s := by
  unfold loadDefaultsRequest
  (try dsimp only)
  repeat' first
    | with_reducible exact Moves.refl | with_reducible assumption | with_reducible apply okPlain_moved
    | with_reducible apply zoneDefaulted_moves | with_reducible apply Moves.settings
    | with_reducible apply Moves.foldl | exact (fun hx => hx) | intro

theorem getNodeRequest_moved (index : Byte) :
    (getNodeRequest index s).Moved A s := by
  unfold getNodeRequest
  (try dsimp only)
  repeat' first
    | with_reducible exact Moves.refl | with_reducible assumption | with_reducible apply refuse_moved
    | with_reducible apply okWith_moved | split

theorem bindNodeRequest_moved (index physicalId kind zone : Byte) (base limit : Half) (aD : A.device)
    (aN : A.notices) (aL : A.link) (aO : A.nodes) (aC : A.climate) (aR : A.rack) (aF : A.fire) (aU :
    A.custody) (aQ : A.orders) (aT : A.hatch) (aX : A.contexts) (aM : A.store) (aA : A.air) :
    (bindNodeRequest index physicalId kind zone base limit s).Moved A s := by
  unfold bindNodeRequest
  (try dsimp only)
  repeat' first
    | with_reducible exact Moves.refl | with_reducible assumption | with_reducible apply refuse_moved
    | with_reducible apply checked_moved | with_reducible apply okPlain_moved
    | with_reducible apply bindNodeEffect_moves | split | intro

theorem unbindNodeRequest_moved (index : Byte) (aD : A.device) (aN : A.notices) (aL : A.link) (aO :
    A.nodes) (aC : A.climate) (aR : A.rack) (aF : A.fire) (aU : A.custody) (aQ : A.orders) (aT :
    A.hatch) (aX : A.contexts) (aM : A.store) :
    (unbindNodeRequest index s).Moved A s := by
  unfold unbindNodeRequest
  (try dsimp only)
  repeat' first
    | with_reducible exact Moves.refl | with_reducible assumption | with_reducible apply refuse_moved
    | with_reducible apply checked_moved | with_reducible apply okPlain_moved
    | with_reducible apply unbindNodeEffect_moves | split

theorem forwardRequest_moved (tag index command : Byte) (data : List Byte) :
    (forwardRequest tag index command data s).Moved A s :=
  checked_moved _ (by refine ⟨tag, _, ?_, rfl⟩; exact fun hx => hx)

theorem restoreLinkRateRequest_moved (aN : A.notices) (aL : A.link) :
    (restoreLinkRateRequest s).Moved A s := by
  unfold restoreLinkRateRequest
  (try dsimp only)
  repeat' first
    | with_reducible exact Moves.refl | with_reducible assumption | with_reducible apply refuse_moved
    | with_reducible apply okPlain_moved | with_reducible apply restoreRate_moves | split

theorem ackFireRequest_moved (zone : Byte) (aN : A.notices) (aF : A.fire) :
    (ackFireRequest zone s).Moved A s := by
  unfold ackFireRequest
  (try dsimp only)
  repeat' first
    | with_reducible exact Moves.refl | with_reducible assumption | with_reducible apply refuse_moved
    | with_reducible apply fireReply_moved | with_reducible apply acknowledge_moves | split

theorem fireResetRequest_moved (zone : Byte) (aD : A.device) (aN : A.notices) (aL : A.link) (aC :
    A.climate) (aR : A.rack) (aF : A.fire) (aU : A.custody) (aQ : A.orders) (aT : A.hatch) (aX :
    A.contexts) (aM : A.store) :
    (fireResetRequest zone s).Moved A s := by
  unfold fireResetRequest
  (try dsimp only)
  repeat' first
    | with_reducible exact Moves.refl | with_reducible assumption | with_reducible apply refuse_moved
    | with_reducible apply fireReply_moved | with_reducible apply returnToNormal_moves | split

theorem setArmedRequest_moved (zone armed : Byte) (aD : A.device) (aN : A.notices) (aL : A.link) (aS :
    A.settings) (aC : A.climate) (aR : A.rack) (aF : A.fire) (aU : A.custody) (aQ : A.orders) (aT :
    A.hatch) (aX : A.contexts) (aM : A.store) :
    (setArmedRequest zone armed s).Moved A s := by
  unfold setArmedRequest
  (try dsimp only)
  repeat' first
    | with_reducible exact Moves.refl | with_reducible assumption | with_reducible apply refuse_moved
    | with_reducible apply fireReply_moved | with_reducible apply setArmedFlag_moves | split

theorem setDrillRequest_moved (zone start : Byte) (aD : A.device) (aH : A.host) (aN : A.notices) (aL :
    A.link) (aC : A.climate) (aR : A.rack) (aF : A.fire) (aU : A.custody) (aQ : A.orders) (aT : A.hatch)
    (aX : A.contexts) (aM : A.store) :
    (setDrillRequest zone start s).Moved A s := by
  unfold setDrillRequest
  (try dsimp only)
  repeat' first
    | with_reducible exact Moves.refl | with_reducible assumption | with_reducible apply refuse_moved
    | with_reducible apply fireReply_moved | with_reducible apply confirmAndCount_moves
    | with_reducible apply returnToNormal_moves | split

theorem getRackRequest_moved  :
    (getRackRequest s).Moved A s := by
  unfold getRackRequest
  (try dsimp only)
  repeat' first
    | with_reducible exact Moves.refl | with_reducible assumption | with_reducible apply okWith_moved
    | intro

theorem getHatchRequest_moved  :
    (getHatchRequest s).Moved A s := by
  unfold getHatchRequest
  (try dsimp only)
  repeat' first
    | with_reducible exact Moves.refl | with_reducible assumption | with_reducible apply okWith_moved

theorem hatchDryOverrideRequest_moved (aD : A.device) (aN : A.notices) (aL : A.link) (aR : A.rack) (aU :
    A.custody) (aQ : A.orders) (aT : A.hatch) (aX : A.contexts) (aM : A.store) (aA : A.air) :
    (hatchDryOverrideRequest s).Moved A s := by
  unfold hatchDryOverrideRequest
  (try dsimp only)
  repeat' first
    | with_reducible exact Moves.refl | with_reducible assumption | with_reducible apply checked_moved
    | with_reducible apply okPlain_moved | with_reducible apply hatchDryOverrideEffect_moves

theorem enrolCartridgeRequest_moved (label : Label) (home : Half) (aD : A.device) (aN : A.notices) (aU :
    A.custody) (aT : A.hatch) (aM : A.store) :
    (enrolCartridgeRequest label home s).Moved A s := by
  unfold enrolCartridgeRequest
  (try dsimp only)
  repeat' first
    | with_reducible exact Moves.refl | with_reducible assumption | with_reducible apply checked_moved
    | with_reducible apply okWith_moved | with_reducible apply updateWetDwell_moves
    | with_reducible apply climateTold_moves | with_reducible apply writeRecord_moves
    | with_reducible apply putRecord_moves

theorem retireCartridgeRequest_moved (label : Label) (aD : A.device) (aN : A.notices) (aU : A.custody)
    (aT : A.hatch) (aM : A.store) :
    (retireCartridgeRequest label s).Moved A s := by
  unfold retireCartridgeRequest
  (try dsimp only)
  repeat' first
    | with_reducible exact Moves.refl | with_reducible assumption | with_reducible apply refuse_moved
    | with_reducible apply checked_moved | with_reducible apply okPlain_moved
    | with_reducible apply retireEffect_moves | split

theorem getCartridgeRequest_moved (label : Label) :
    (getCartridgeRequest label s).Moved A s := by
  unfold getCartridgeRequest
  (try dsimp only)
  repeat' first
    | with_reducible exact Moves.refl | with_reducible assumption | with_reducible apply refuse_moved
    | with_reducible apply okWith_moved | split

theorem listCartridgesRequest_moved (start : Half) (filter : Byte) :
    (listCartridgesRequest start filter s).Moved A s := by
  unfold listCartridgesRequest
  (try dsimp only)
  repeat' first
    | with_reducible exact Moves.refl | with_reducible assumption | with_reducible apply refuse_moved
    | with_reducible apply okWith_moved | split | intro

theorem unblockCartridgeRequest_moved (label : Label) (aD : A.device) (aN : A.notices) (aL : A.link) (aR
    : A.rack) (aU : A.custody) (aQ : A.orders) (aX : A.contexts) (aM : A.store) :
    (unblockCartridgeRequest label s).Moved A s := by
  unfold unblockCartridgeRequest
  (try dsimp only)
  repeat' first
    | with_reducible exact Moves.refl | with_reducible assumption | with_reducible apply refuse_moved
    | with_reducible apply checked_moved | with_reducible apply okPlain_moved
    | with_reducible apply changeRecord_moves | split | intro

theorem checkoutRequest_moved (orderTag : Byte) (courier deadline : Half) (count : Byte) (labels : List
    Label) (aD : A.device) (aN : A.notices) (aL : A.link) (aR : A.rack) (aU : A.custody) (aQ : A.orders)
    (aX : A.contexts) (aM : A.store) :
    (checkoutRequest orderTag courier deadline count labels s).Moved A s := by
  unfold checkoutRequest
  split
  · exact reply_moved .refl
  · split
    · exact reply_moved .refl
    · exact okWith_moved (checkoutEffect_moves _ _ _ _ _ .refl aD aN aL aR aU aQ aX aM)

theorem cancelOrderRequest_moved (orderTag : Byte) (aD : A.device) (aN : A.notices) (aL : A.link) (aR :
    A.rack) (aU : A.custody) (aQ : A.orders) (aX : A.contexts) (aM : A.store) :
    (cancelOrderRequest orderTag s).Moved A s := by
  unfold cancelOrderRequest
  (try dsimp only)
  repeat' first
    | with_reducible exact Moves.refl | with_reducible assumption | with_reducible apply refuse_moved
    | with_reducible apply okPlain_moved | with_reducible apply finishOrder_moves | split | intro

theorem getOrderRequest_moved (orderTag : Byte) :
    (getOrderRequest orderTag s).Moved A s := by
  unfold getOrderRequest
  (try dsimp only)
  repeat' first
    | with_reducible exact Moves.refl | with_reducible assumption | with_reducible apply refuse_moved
    | with_reducible apply okWith_moved | split | intro

theorem enrolCourierRequest_moved (courier : Half) (code : BitVec 24) (aD : A.device) (aN : A.notices)
    (aP : A.roster) (aM : A.store) :
    (enrolCourierRequest courier code s).Moved A s := by
  unfold enrolCourierRequest
  (try dsimp only)
  repeat' first
    | with_reducible exact Moves.refl | with_reducible assumption | with_reducible apply checked_moved
    | with_reducible apply okPlain_moved | with_reducible apply putCourier_moves

theorem revokeCourierRequest_moved (courier : Half) (aD : A.device) (aN : A.notices) (aP : A.roster) (aM
    : A.store) :
    (revokeCourierRequest courier s).Moved A s := by
  unfold revokeCourierRequest
  (try dsimp only)
  repeat' first
    | with_reducible exact Moves.refl | with_reducible assumption | with_reducible apply refuse_moved
    | with_reducible apply okPlain_moved | with_reducible apply withCourier_moved
    | with_reducible apply changeCourier_moves | split | intro

theorem reinstateCourierRequest_moved (courier : Half) (aD : A.device) (aN : A.notices) (aP : A.roster)
    (aM : A.store) :
    (reinstateCourierRequest courier s).Moved A s := by
  unfold reinstateCourierRequest
  (try dsimp only)
  repeat' first
    | with_reducible exact Moves.refl | with_reducible assumption | with_reducible apply refuse_moved
    | with_reducible apply okPlain_moved | with_reducible apply withCourier_moved
    | with_reducible apply changeCourier_moves | split | intro

theorem getCourierRequest_moved (courier : Half) :
    (getCourierRequest courier s).Moved A s := by
  unfold getCourierRequest
  (try dsimp only)
  repeat' first
    | with_reducible exact Moves.refl | with_reducible assumption | with_reducible apply okWith_moved
    | with_reducible apply withCourier_moved | intro

theorem getHandoverRequest_moved (context : Byte) :
    (getHandoverRequest context s).Moved A s := by
  unfold getHandoverRequest
  (try dsimp only)
  repeat' first
    | with_reducible exact Moves.refl | with_reducible assumption | with_reducible apply refuse_moved
    | with_reducible apply okWith_moved | split

theorem acceptHandoverRequest_moved (context : Byte) (aD : A.device) (aN : A.notices) (aL : A.link) (aR
    : A.rack) (aU : A.custody) (aQ : A.orders) (aT : A.hatch) (aX : A.contexts) (aM : A.store) :
    (acceptHandoverRequest context s).Moved A s := by
  unfold acceptHandoverRequest
  (try dsimp only)
  repeat' first
    | with_reducible exact Moves.refl | with_reducible assumption | with_reducible apply checked_moved
    | with_reducible apply okPlain_moved | with_reducible apply acceptEffect_moves

theorem disputeHandoverRequest_moved (context : Byte) (aD : A.device) (aN : A.notices) (aL : A.link) (aR
    : A.rack) (aU : A.custody) (aQ : A.orders) (aT : A.hatch) (aX : A.contexts) (aM : A.store) :
    (disputeHandoverRequest context s).Moved A s := by
  unfold disputeHandoverRequest
  (try dsimp only)
  repeat' first
    | with_reducible exact Moves.refl | with_reducible assumption | with_reducible apply checked_moved
    | with_reducible apply okPlain_moved | with_reducible apply disputeEffect_moves

theorem abortEffect_moves {c : Nat} {x : Context} {f : State → State} (e : abortEffect c x = some f) (hs
    : Moves A s₀ s) (aD : A.device) (aN : A.notices) (aL : A.link) (aR : A.rack) (aU : A.custody) (aQ :
    A.orders) (aT : A.hatch) (aX : A.contexts) (aM : A.store) :
    Moves A s₀ (f s) := by
  unfold abortEffect at e
  split at e
  all_goals cases e
  · exact endContext_moves _ _ hs aD aN aL aR aU aQ aT aX aM
  · exact abandonLoading_moves _ _ hs aD aN aL aR aU aQ aT aX aM
  · exact enterRecall_moves _ _ hs aD aN aL aR aU aQ aT aX aM
  · exact enterRecallOf_moves _ _ _ hs aD aN aL aR aU aQ aT aX aM
  · exact enterRecallReturn_moves _ _ hs aD aN aL aR aU aQ aT aX aM

theorem abortHandoverRequest_moved (context : Byte) (aD : A.device) (aN : A.notices) (aL : A.link) (aR :
    A.rack) (aU : A.custody) (aQ : A.orders) (aT : A.hatch) (aX : A.contexts) (aM : A.store) :
    (abortHandoverRequest context s).Moved A s := by
  unfold abortHandoverRequest
  split
  · split
    · exact refuse_moved _
    · next f e =>
      obtain ⟨x, _, hx⟩ := Option.bind_eq_some_iff.1 e
      exact okPlain_moved (abortEffect_moves hx .refl aD aN aL aR aU aQ aT aX aM)
  · exact refuse_moved _

theorem withByte_moved {ops : List Byte} {k : Byte → Answer} (h : ∀ a, (k a).Moved A s) :
    (withByte ops s k).Moved A s := by
  unfold withByte; split
  · exact h _
  · exact refuse_moved _

theorem withTwo_moved {ops : List Byte} {k : Byte → Byte → Answer} (h : ∀ a b, (k a b).Moved A s) :
    (withTwo ops s k).Moved A s := by
  unfold withTwo; split
  · exact h _ _
  · exact refuse_moved _

theorem withHalf_moved {ops : List Byte} {k : Half → Answer} (h : ∀ a, (k a).Moved A s) :
    (withHalf ops s k).Moved A s := withTwo_moved fun _ _ => h _

theorem withThree_moved {ops : List Byte} {k : Byte → Byte → Byte → Answer}
    (h : ∀ a b c, (k a b c).Moved A s) : (withThree ops s k).Moved A s := by
  unfold withThree; split
  · exact h _ _ _
  · exact refuse_moved _

theorem carrySetZone_moved (ops : List Byte) : (carrySetZone ops s).Moved .all s := by
  unfold carrySetZone; split
  · exact setZoneRequest_moved _ _ _ _ _ _ _ _ _ _ trivial trivial trivial trivial trivial trivial trivial trivial trivial trivial
  · exact refuse_moved _

theorem carryBindNode_moved (ops : List Byte) : (carryBindNode ops s).Moved .all s := by
  unfold carryBindNode; split
  · exact bindNodeRequest_moved _ _ _ _ _ _ trivial trivial trivial trivial trivial trivial trivial trivial trivial trivial trivial trivial trivial
  · exact refuse_moved _

theorem carryForward_moved (tag : Byte) (ops : List Byte) : (carryForward tag ops s).Moved .all s := by
  unfold carryForward; split
  · exact forwardRequest_moved _ _ _ _
  · exact refuse_moved _

theorem carryCheckout_moved (ops : List Byte) : (carryCheckout ops s).Moved .all s := by
  unfold carryCheckout; split
  · exact checkoutRequest_moved _ _ _ _ _ trivial trivial trivial trivial trivial trivial trivial trivial
  · exact refuse_moved _

theorem carryEnrolCourier_moved (ops : List Byte) : (carryEnrolCourier ops s).Moved .all s := by
  unfold carryEnrolCourier; split
  · exact enrolCourierRequest_moved _ _ trivial trivial trivial trivial
  · exact refuse_moved _

/-- Whatever its code and operands, a request is a move with its reply, or holds execution (R5). -/
theorem carryOut_moved (tag code : Byte) (ops : List Byte) : (carryOut tag code ops s).Moved .all s := by
  unfold carryOut
  split
  · exact statusRequest_moved trivial
  · exact withByte_moved fun _ => setNoticeMaskRequest_moved _ trivial
  · exact restartRequest_moved
  · exact withByte_moved fun _ => getParamRequest_moved _
  · exact withThree_moved fun _ _ _ => setParamRequest_moved _ _ trivial trivial trivial trivial trivial trivial trivial trivial trivial
  · exact withByte_moved fun _ => getZoneRequest_moved _
  · exact carrySetZone_moved _
  · exact saveSettingsRequest_moved trivial trivial trivial trivial
  · exact loadDefaultsRequest_moved trivial trivial trivial trivial trivial trivial trivial trivial trivial trivial trivial trivial
  · exact withByte_moved fun _ => getNodeRequest_moved _
  · exact carryBindNode_moved _
  · exact withByte_moved fun _ => unbindNodeRequest_moved _ trivial trivial trivial trivial trivial trivial trivial trivial trivial trivial trivial trivial
  · exact carryForward_moved _ _
  · exact restoreLinkRateRequest_moved trivial trivial
  · exact withByte_moved fun _ => ackFireRequest_moved _ trivial trivial
  · exact withByte_moved fun _ => fireResetRequest_moved _ trivial trivial trivial trivial trivial trivial trivial trivial trivial trivial trivial
  · exact withTwo_moved fun _ _ => setArmedRequest_moved _ _ trivial trivial trivial trivial trivial trivial trivial trivial trivial trivial trivial trivial
  · exact withTwo_moved fun _ _ => setDrillRequest_moved _ _ trivial trivial trivial trivial trivial trivial trivial trivial trivial trivial trivial trivial
  · exact getRackRequest_moved
  · exact getHatchRequest_moved
  · exact hatchDryOverrideRequest_moved trivial trivial trivial trivial trivial trivial trivial trivial trivial trivial
  · exact enrolCartridgeRequest_moved _ _ trivial trivial trivial trivial trivial
  · exact retireCartridgeRequest_moved _ trivial trivial trivial trivial trivial
  · exact getCartridgeRequest_moved _
  · exact withThree_moved fun _ _ _ => listCartridgesRequest_moved _ _
  · exact unblockCartridgeRequest_moved _ trivial trivial trivial trivial trivial trivial trivial trivial
  · exact carryCheckout_moved _
  · exact withByte_moved fun _ => cancelOrderRequest_moved _ trivial trivial trivial trivial trivial trivial trivial trivial
  · exact withByte_moved fun _ => getOrderRequest_moved _
  · exact carryEnrolCourier_moved _
  · exact withHalf_moved fun _ => revokeCourierRequest_moved _ trivial trivial trivial trivial
  · exact withHalf_moved fun _ => reinstateCourierRequest_moved _ trivial trivial trivial trivial
  · exact withHalf_moved fun _ => getCourierRequest_moved _
  · exact withByte_moved fun _ => getHandoverRequest_moved _
  · exact withByte_moved fun _ => acceptHandoverRequest_moved _ trivial trivial trivial trivial trivial trivial trivial trivial trivial
  · exact withByte_moved fun _ => disputeHandoverRequest_moved _ trivial trivial trivial trivial trivial trivial trivial trivial trivial
  · exact withByte_moved fun _ => abortHandoverRequest_moved _ trivial trivial trivial trivial trivial trivial trivial trivial trivial
  · exact refuse_moved _

theorem execute_moved (f : Frame) : (execute f s).Moved .all s := by
  unfold execute
  split
  · exact refuse_moved _
  · split
    · exact refuse_moved _
    · exact refuse_moved _
    · exact carryOut_moved _ _ _

end Sys2Proof.Machine
end

