-- ==== Sys2Proof/Laws/Events.lean ====
section
/-! SUPPORT. Laws/Events: what an event does beside its own effect: the arbiters' choices, the taking of a
request by a part at rest, and the reply. -/

namespace Sys2Proof.Machine

/-- Only the field link. -/
def Allow.linkOnly : Allow :=
  ⟨False, False, False, True, False, False, False, False, False, False, False, False, False, False,
    False, False, False⟩

/-- A move of the link alone changes nothing else. -/
theorem Moves.linkOnly_eq {s t : State} (h : Moves .linkOnly s t) : t = s.withLink t.link := by
  induction h with
  | refl => rfl
  | link x _ _ _ ih => rw [ih]; rfl
  | _ => contradiction

/-- The field link's arbiter changes the field link alone (R40). -/
theorem settleField_eq (s : State) : settleField s = s.withLink (settleField s).link :=
  (settleField_moves .refl trivial : Moves .linkOnly s (settleField s)).linkOnly_eq

/-- The transmit arbiter chooses nothing while the line is taken (R8). -/
theorem settleHost_busy {s : State} {o : Outgoing} (h : s.host.transmitting = some o) :
    settleHost s = s := by
  unfold settleHost; rw [h]

/-- The oldest reply goes first (R8). -/
theorem settleHost_reply {s : State} {r : Reply} {rs : List Reply} (h : s.host.transmitting = none)
    (hr : s.host.replies = r :: rs) :
    settleHost s = s.withHost { s.host with transmitting := some (.reply r) } := by
  unfold settleHost; rw [h, hr]

/-- The transmit arbiter changes the transmitter, and takes at most one notice out of the pending set. -/
theorem settleHost_eq (s : State) :
    settleHost s = (s.withNotices (settleHost s).notices).withHost
      { s.host with transmitting := (settleHost s).host.transmitting } := by
  unfold settleHost
  split
  · rfl
  · split
    · rfl
    · split <;> rfl

/-- A block that neither arbiter owns stands at the end of an event. -/
theorem settle_frame (s : State) :
    settle s = ((s.withLink (settle s).link).withNotices (settle s).notices).withHost
      { s.host with transmitting := (settle s).host.transmitting } := by
  have h := settleHost_eq (settleField s)
  have k := settleField_eq s
  unfold settle
  rw [h, k]
  rfl

/-- A part that has power and is not held takes an event. -/
theorem event_up {s : State} (h : s.up = true) (f : State → State) :
    event f s = .next (settle (f (startEvent s))) := by
  unfold event; rw [if_pos h]

/-- R4: the frame in the buffer begins where nothing is in execution and the kept place is free. -/
theorem tryBegin_begins {u : State} {f : Frame} (hb : u.host.buffer = some f)
    (he : u.host.executing = none) (hk : keptOccupied u = false) :
    tryBegin u = takeAnswer f.tag f.code (execute f (u.withHost { u.host with buffer := none })) := by
  unfold tryBegin
  rw [hb]
  exact if_neg (by rw [he, hk]; exact Bool.false_ne_true)

/-- A request of the right length that reaches a part where it may begin is executed in the event of its arrival
(R2, R4). -/
theorem request_taken {s : State} (h : HostReady s) (tag code : Byte) (ops : List Byte)
    (hl : bodyLengthOk (ops.length + 2) = true) :
    request tag code ops s =
      .next (settle (takeAnswer tag code (execute ⟨tag, code, ops⟩ (taken s)))) := by
  obtain ⟨hu, hb, he, hk⟩ := h
  unfold request
  rw [event_up hu]
  have e1 : bodyComplete (tag :: code :: ops) (startEvent s) =
      frameComplete ⟨tag, code, ops⟩ (startEvent s) := by
    unfold bodyComplete
    exact if_pos hl
  rw [e1]
  have eb : ((startEvent s).withHost
      { (startEvent s).host with receiver := .hunt, frameTimer := none }).host.buffer = none := hb
  unfold frameComplete takeIn
  rw [eb]
  exact congrArg (fun u => Host.Outcome.next (settle u)) (tryBegin_begins rfl he hk)

/-! ### The field link's arbiter does not look at the host link -/

theorem beginAddressed_withHost (i : Nat) (o : Origin) (c : Nat) (d : List Byte) (s : State)
    (h : HostLink) : beginAddressed i o c d (s.withHost h) = (beginAddressed i o c d s).withHost h := by
  have e : (s.withHost h).node? i = s.node? i := rfl
  unfold beginAddressed
  rw [e]
  split
  · rfl
  · cases o.delivers <;> rfl

theorem routinePoll_withHost (i : Nat) (s : State) (h : HostLink) :
    routinePoll i (s.withHost h) = (routinePoll i s).withHost h := by
  have e : (s.withHost h).node? i = s.node? i := rfl
  have e2 : huntingEntry (s.withHost h) i = huntingEntry s i := rfl
  unfold routinePoll
  rw [e, e2]
  split
  · rfl
  · split
    · split <;> exact beginAddressed_withHost ..
    · have e3 : ∀ n, owesCorrection (s.withHost h) n = owesCorrection s n := fun _ => rfl
      simp only [e3]
      split <;> exact beginAddressed_withHost ..

theorem cursorPoll_withHost (s : State) (h : HostLink) :
    cursorPoll (s.withHost h) = (cursorPoll s).withHost h := by
  have e : (s.withHost h).link.cursor = s.link.cursor := rfl
  unfold cursorPoll
  rw [e]
  split
  · rfl
  · exact routinePoll_withHost _ (s.withLink _) h

theorem chooseRoutine_withHost (s : State) (h : HostLink) :
    chooseRoutine (s.withHost h) = (chooseRoutine s).withHost h := by
  have e : (s.withHost h).link = s.link := rfl
  unfold chooseRoutine
  rw [e]
  split
  · split
    · exact cursorPoll_withHost ..
    · next i _ _ =>
      have e2 : ∀ l, followUpHolds ((s.withHost h).withLink l) i = followUpHolds (s.withLink l) i :=
        fun _ => rfl
      simp only [e2]
      split
      · exact routinePoll_withHost _ ((s.withLink _).withLink _) h
      · exact cursorPoll_withHost (s.withLink _) h
  · exact cursorPoll_withHost ..

theorem chooseWork_withHost (s : State) (h : HostLink) :
    chooseWork (s.withHost h) = (chooseWork s).withHost h := by
  have e : ∀ n, oldestOf (s.withHost h) n = oldestOf s n := fun _ => rfl
  have e2 : fireDue (s.withHost h) = fireDue s := rfl
  have e3 : (s.withHost h).link.forward = s.link.forward := rfl
  unfold chooseWork
  rw [e, e, e2, e, e3]
  split
  all_goals first | exact beginAddressed_withHost .. | exact chooseRoutine_withHost ..

theorem chooseTransaction_withHost (f : Option Nat) (s : State) (h : HostLink) :
    chooseTransaction f (s.withHost h) = (chooseTransaction f s).withHost h := by
  have e : (s.withHost h).link.pendingBroadcast = s.link.pendingBroadcast := rfl
  have e2 : ∀ i, (s.withHost h).node? i = s.node? i := fun _ => rfl
  have e3 : ∀ n, owesCorrection (s.withHost h) n = owesCorrection s n := fun _ => rfl
  unfold chooseTransaction
  rw [e]
  split
  · rfl
  · split
    · exact chooseWork_withHost ..
    · simp only [e2, e3]
      split
      · exact chooseWork_withHost ..
      · split
        · exact beginAddressed_withHost ..
        · exact chooseWork_withHost ..

theorem settleField_withHost (s : State) (h : HostLink) :
    settleField (s.withHost h) = (settleField s).withHost h := by
  have e : (s.withHost h).link.activity = s.link.activity := rfl
  unfold settleField
  rw [e]
  split
  · exact chooseTransaction_withHost ..
  all_goals rfl

/-- A request that its owner answers leaves what the owner left, with the reply queued. -/
theorem answers_of_execute {s t : State} {tag code : Byte} {ops : List Byte} {st : Status}
    {data : List Byte} (h : HostReady s) (hl : bodyLengthOk (ops.length + 2) = true)
    (e : execute ⟨tag, code, ops⟩ (taken s) = .reply st data t) :
    request tag code ops s = .next (settle (withReply tag code st data t)) := by
  rw [request_taken h tag code ops hl, e]
  rfl

/-- On an idle line with no reply before it, a reply just queued is on the line at the end of the event. -/
theorem settle_withReply {t : State} (tag code : Byte) (st : Status) (data : List Byte)
    (ht : t.host.transmitting = none) (hr : t.host.replies = []) :
    (settle (withReply tag code st data t)).host.transmitting =
      some (.reply ⟨.kept, tag, code, st, data⟩) := by
  have k : (settleField (withReply tag code st data t)).host = (withReply tag code st data t).host := by
    rw [settleField_eq]; rfl
  have q : (withReply tag code st data t).host.replies = [⟨.kept, tag, code, st, data⟩] := by
    show t.host.replies ++ _ = _
    rw [hr]; rfl
  unfold settle
  rw [settleHost_reply (by rw [k]; exact ht) (by rw [k]; exact q)]
  rfl

end Sys2Proof.Machine
end

