-- ==== Sys2Proof/Laws/Fields.lean ====
section
/-! SUPPORT. Laws/Fields: a field that is sent and read again is the field (section 1.7), and what the
operands of each request read as. -/

namespace Sys2Proof.Machine

@[simp] theorem fieldHalf_length (h : Half) : (fieldHalf h).length = 2 := rfl

@[simp] theorem fieldLabel_length (l : Label) : (fieldLabel l).length = 8 := rfl

theorem byteOf_toNat (n : Nat) : (byteOf n).toNat = n % 256 := by
  simp [byteOf]

/-- A 16-bit field read from its two bytes. -/
theorem half_bytes (h : Half) : (byteOf (h.toNat / 256) ++ byteOf h.toNat : Half) = h := by
  apply BitVec.eq_of_toNat_eq
  have hh := h.isLt
  rw [BitVec.toNat_append, byteOf_toNat, byteOf_toNat, Nat.shiftLeft_eq, Nat.mod_eq_of_lt (by omega),
    ← Nat.shiftLeft_eq, ← Nat.shiftLeft_add_eq_or_of_lt (Nat.mod_lt _ (by decide)), Nat.shiftLeft_eq]
  omega

/-- A 24-bit field read from its three bytes. -/
theorem code_bytes (c : BitVec 24) :
    (byteOf (c.toNat / 65536) ++ byteOf (c.toNat / 256) ++ byteOf c.toNat : BitVec 24) = c := by
  apply BitVec.eq_of_toNat_eq
  have hh := c.isLt
  rw [BitVec.toNat_append, BitVec.toNat_append, byteOf_toNat, byteOf_toNat, byteOf_toNat,
    ← Nat.shiftLeft_add_eq_or_of_lt (Nat.mod_lt _ (by decide)),
    ← Nat.shiftLeft_add_eq_or_of_lt (Nat.mod_lt _ (by decide)), Nat.shiftLeft_eq, Nat.shiftLeft_eq]
  omega

/-- A label read from its eight bytes. -/
theorem readLabel_fieldLabel (l : Label) : readLabel (fieldLabel l) = l := by
  apply BitVec.eq_of_toNat_eq
  have hl := l.isLt
  simp only [readLabel, fieldLabel, readBytes, List.foldl_cons, List.foldl_nil, byteOf_toNat,
    BitVec.toNat_ofNat]
  omega

/-- Labels read from their bytes, in their order. -/
theorem readLabels_flatMap (ls : List Label) : readLabels ls.length (ls.flatMap fieldLabel) = ls := by
  induction ls with
  | nil => rfl
  | cons l ls ih =>
    have e : ((l :: ls).flatMap fieldLabel).take 8 = fieldLabel l := rfl
    have d : ((l :: ls).flatMap fieldLabel).drop 8 = ls.flatMap fieldLabel := rfl
    rw [List.length_cons, readLabels, e, d, readLabel_fieldLabel, ih]

/-- The length of a list of labels in bytes. -/
theorem labels_length (ls : List Label) : (ls.flatMap fieldLabel).length = 8 * ls.length := by
  induction ls with
  | nil => rfl
  | cons l ls ih => simp only [List.flatMap_cons, List.length_append, fieldLabel_length, ih,
      List.length_cons]; omega

/-- The home slot operand of ENROL_CARTRIDGE. -/
theorem read_home (h : Half) : BitVec.ofNat 16 (readBytes (fieldHalf h)) = h := by
  apply BitVec.eq_of_toNat_eq
  have hh := h.isLt
  simp only [fieldHalf, field16, readBytes, List.foldl_cons, List.foldl_nil, byteOf_toNat,
    BitVec.toNat_ofNat]
  omega

end Sys2Proof.Machine
end

