-- ==== Sys2Proof/Laws/PerInstr.lean ====
section
/-! SUPPORT. Laws/PerInstr: the form of every row, said of the row as syntax: the frame a request row spells
(Tables 1-2 and 1-3), and that R1 and R4 accept it, for each constructor. -/

namespace Sys2Proof

/-- The frame that a request row spells; none for the rows that are no request. -/
def Instr.frame : Instr → Option Machine.Frame
  | .unknownRequest tag code operands => some ⟨tag, code, operands⟩
  | .status tag filler => some ⟨tag, 0x01, [filler]⟩
  | .setNoticeMask tag mask => some ⟨tag, 0x02, [mask]⟩
  | .restart tag filler => some ⟨tag, 0x03, [filler]⟩
  | .getParam tag number => some ⟨tag, 0x10, [number]⟩
  | .setParam tag number value => some ⟨tag, 0x11, (number :: Machine.fieldHalf value)⟩
  | .getZone tag zone => some ⟨tag, 0x12, [zone]⟩
  | .setZone tag zone present base limit setpoint deadband rhLow rhHigh tempLow tempHigh => some ⟨tag,
      0x13, ([zone, present] ++ Machine.fieldHalf base ++ Machine.fieldHalf limit ++ Machine.fieldHalf setpoint ++ Machine.fieldHalf
      deadband ++ Machine.fieldHalf rhLow ++ Machine.fieldHalf rhHigh ++ Machine.fieldHalf tempLow ++ Machine.fieldHalf tempHigh)⟩
  | .saveSettings tag filler => some ⟨tag, 0x14, [filler]⟩
  | .loadDefaults tag filler => some ⟨tag, 0x15, [filler]⟩
  | .getNode tag index => some ⟨tag, 0x20, [index]⟩
  | .bindNode tag index physicalId kind zone base limit => some ⟨tag, 0x21, ([index, physicalId, kind,
      zone] ++ Machine.fieldHalf base ++ Machine.fieldHalf limit)⟩
  | .unbindNode tag index => some ⟨tag, 0x22, [index]⟩
  | .forward tag index command data => some ⟨tag, 0x23, (index :: command :: data)⟩
  | .restoreLinkRate tag filler => some ⟨tag, 0x24, [filler]⟩
  | .ackFire tag zone => some ⟨tag, 0x30, [zone]⟩
  | .fireReset tag zone => some ⟨tag, 0x31, [zone]⟩
  | .setArmed tag zone armed => some ⟨tag, 0x32, [zone, armed]⟩
  | .setDrill tag zone start => some ⟨tag, 0x33, [zone, start]⟩
  | .getRack tag filler => some ⟨tag, 0x40, [filler]⟩
  | .getHatch tag filler => some ⟨tag, 0x41, [filler]⟩
  | .hatchDryOverride tag filler => some ⟨tag, 0x42, [filler]⟩
  | .enrolCartridge tag label home => some ⟨tag, 0x50, (Machine.fieldLabel label ++ Machine.fieldHalf home)⟩
  | .retireCartridge tag label => some ⟨tag, 0x51, (Machine.fieldLabel label)⟩
  | .getCartridge tag label => some ⟨tag, 0x52, (Machine.fieldLabel label)⟩
  | .listCartridges tag start filter => some ⟨tag, 0x53, (Machine.fieldHalf start ++ [filter])⟩
  | .unblockCartridge tag label => some ⟨tag, 0x54, (Machine.fieldLabel label)⟩
  | .checkout tag orderTag courier deadline count labels => some ⟨tag, 0x60, ([orderTag] ++ Machine.fieldHalf
      courier ++ Machine.fieldHalf deadline ++ [count] ++ labels.flatMap Machine.fieldLabel)⟩
  | .cancelOrder tag orderTag => some ⟨tag, 0x61, [orderTag]⟩
  | .getOrder tag orderTag => some ⟨tag, 0x62, [orderTag]⟩
  | .enrolCourier tag courier code => some ⟨tag, 0x70, (Machine.fieldHalf courier ++ Machine.field24 code.toNat)⟩
  | .revokeCourier tag courier => some ⟨tag, 0x71, (Machine.fieldHalf courier)⟩
  | .reinstateCourier tag courier => some ⟨tag, 0x72, (Machine.fieldHalf courier)⟩
  | .getCourier tag courier => some ⟨tag, 0x73, (Machine.fieldHalf courier)⟩
  | .getHandover tag context => some ⟨tag, 0x80, [context]⟩
  | .acceptHandover tag context => some ⟨tag, 0x81, [context]⟩
  | .disputeHandover tag context => some ⟨tag, 0x82, [context]⟩
  | .abortHandover tag context => some ⟨tag, 0x83, [context]⟩
  | .hostFrameReceived .. | .frameTimerExpiry | .frameSent | .pollSent | .fieldReportReceived .. |
  .replyWindowExpiry | .rateBroadcastSent | .deadlineExpiry .. | .probeAgeTimerExpiry .. |
  .graceTimerExpiry .. | .minuteTimerExpiry .. | .dwellCompletion .. | .carryWindowExpiry .. |
  .alertTimerExpiry .. | .countdownTimerExpiry .. | .ackTimerExpiry .. | .purgeMinimumTimerExpiry |
  .purgeMaximumTimerExpiry | .retryDelayExpiry | .wetDwellExpiry | .hatchWaitLimitExpiry .. |
  .loadingLimitExpiry .. | .collectingLimitExpiry .. | .releaseWaitLimitExpiry .. |
  .recallLimitExpiry .. | .powerOn .. | .powerLoss .. | .resetLineAssert | .resetLineRelease |
  .hostCharacterReceived .. => none

/-- A well-formed request row spells a body of 3 to 253 bytes, and its operand length passes the third check
of R4 but for a filler byte that is not 0. -/
def Laws.RowForm.Statement (i : Instr) : Prop :=
  ∀ f, i.frame = some f → i.wellFormed = true →
    bodyLengthOk f.body.length = true ∧
      (Machine.operandsOk f.code.toNat f.operands = some false → ∃ b, f.operands = [b] ∧ b ≠ 0)

namespace Laws.RowForm

theorem filler_form (tag code filler : Byte)
    (ho : Machine.operandsOk code.toNat [filler] = some (Machine.fillerOk [filler]))
    (hl : bodyLengthOk 3 = true) :
    bodyLengthOk (Machine.Frame.body ⟨tag, code, [filler]⟩).length = true ∧
      (Machine.operandsOk code.toNat [filler] = some false → ∃ b, [filler] = [b] ∧ b ≠ 0) := by
  refine ⟨hl, fun h => ⟨filler, rfl, fun hz => ?_⟩⟩
  rw [ho, hz] at h
  exact absurd h (by decide)

theorem unknown_operands (code : Byte) (ops : List Byte) (h : requestCodes.contains code.toNat = false) :
    Machine.operandsOk code.toNat ops ≠ some false := by
  have k : Machine.operandsOk code.toNat ops = none := by
    revert h
    generalize code.toNat = n
    intro h
    unfold Machine.operandsOk
    split
    all_goals first | rfl | (exfalso; revert h; decide)
  rw [k]; exact fun h => by cases h

theorem hostFrameReceived (body : List Byte) : Statement (.hostFrameReceived body) := by
  intro f hf; cases hf

theorem frameTimerExpiry : Statement (.frameTimerExpiry) := by
  intro f hf; cases hf

theorem frameSent : Statement (.frameSent) := by
  intro f hf; cases hf

theorem unknownRequest (tag code : Byte) (operands : List Byte) : Statement (.unknownRequest tag code
    operands) := by
  intro f hf hw
  cases hf
  simp only [Instr.wellFormed, Bool.and_eq_true, Bool.not_eq_true'] at hw
  exact ⟨hw.1, fun h => absurd h (unknown_operands code operands hw.2)⟩

theorem status (tag filler : Byte) : Statement (.status tag filler) := by
  intro f hf _; cases hf; exact filler_form tag 0x01 filler rfl rfl

theorem setNoticeMask (tag mask : Byte) : Statement (.setNoticeMask tag mask) := by
  intro f hf _; cases hf; exact ⟨rfl, fun h => by cases h⟩

theorem restart (tag filler : Byte) : Statement (.restart tag filler) := by
  intro f hf _; cases hf; exact filler_form tag 0x03 filler rfl rfl

theorem getParam (tag number : Byte) : Statement (.getParam tag number) := by
  intro f hf _; cases hf; exact ⟨rfl, fun h => by cases h⟩

theorem setParam (tag number : Byte) (value : Half) : Statement (.setParam tag number value) := by
  intro f hf _; cases hf; exact ⟨rfl, fun h => by cases h⟩

theorem getZone (tag zone : Byte) : Statement (.getZone tag zone) := by
  intro f hf _; cases hf; exact ⟨rfl, fun h => by cases h⟩

theorem setZone (tag zone present : Byte) (base limit setpoint deadband rhLow rhHigh tempLow tempHigh :
    Half) : Statement (.setZone tag zone present base limit setpoint deadband rhLow rhHigh tempLow
    tempHigh) := by
  intro f hf _; cases hf; exact ⟨rfl, fun h => by cases h⟩

theorem saveSettings (tag filler : Byte) : Statement (.saveSettings tag filler) := by
  intro f hf _; cases hf; exact filler_form tag 0x14 filler rfl rfl

theorem loadDefaults (tag filler : Byte) : Statement (.loadDefaults tag filler) := by
  intro f hf _; cases hf; exact filler_form tag 0x15 filler rfl rfl

theorem getNode (tag index : Byte) : Statement (.getNode tag index) := by
  intro f hf _; cases hf; exact ⟨rfl, fun h => by cases h⟩

theorem bindNode (tag index physicalId kind zone : Byte) (base limit : Half) : Statement (.bindNode tag
    index physicalId kind zone base limit) := by
  intro f hf _; cases hf; exact ⟨rfl, fun h => by cases h⟩

theorem unbindNode (tag index : Byte) : Statement (.unbindNode tag index) := by
  intro f hf _; cases hf; exact ⟨rfl, fun h => by cases h⟩

theorem forward (tag index command : Byte) (data : List Byte) : Statement (.forward tag index command
    data) := by
  intro f hf hw
  cases hf
  simp only [Instr.wellFormed, decide_eq_true_eq] at hw
  refine ⟨?_, ?_⟩
  · show bodyLengthOk (data.length + 4) = true
    simp [bodyLengthOk]
    omega
  · intro h
    have e : Machine.operandsOk 0x23 (index :: command :: data) = some true := by
      simp only [Machine.operandsOk, List.length_cons, Option.some.injEq, Bool.and_eq_true,
        decide_eq_true_eq]
      omega
    exact absurd (e.symm.trans h) (by decide)

theorem restoreLinkRate (tag filler : Byte) : Statement (.restoreLinkRate tag filler) := by
  intro f hf _; cases hf; exact filler_form tag 0x24 filler rfl rfl

theorem ackFire (tag zone : Byte) : Statement (.ackFire tag zone) := by
  intro f hf _; cases hf; exact ⟨rfl, fun h => by cases h⟩

theorem fireReset (tag zone : Byte) : Statement (.fireReset tag zone) := by
  intro f hf _; cases hf; exact ⟨rfl, fun h => by cases h⟩

theorem setArmed (tag zone armed : Byte) : Statement (.setArmed tag zone armed) := by
  intro f hf _; cases hf; exact ⟨rfl, fun h => by cases h⟩

theorem setDrill (tag zone start : Byte) : Statement (.setDrill tag zone start) := by
  intro f hf _; cases hf; exact ⟨rfl, fun h => by cases h⟩

theorem getRack (tag filler : Byte) : Statement (.getRack tag filler) := by
  intro f hf _; cases hf; exact filler_form tag 0x40 filler rfl rfl

theorem getHatch (tag filler : Byte) : Statement (.getHatch tag filler) := by
  intro f hf _; cases hf; exact filler_form tag 0x41 filler rfl rfl

theorem hatchDryOverride (tag filler : Byte) : Statement (.hatchDryOverride tag filler) := by
  intro f hf _; cases hf; exact filler_form tag 0x42 filler rfl rfl

theorem enrolCartridge (tag : Byte) (label : Label) (home : Half) : Statement (.enrolCartridge tag label
    home) := by
  intro f hf _; cases hf; exact ⟨rfl, fun h => by cases h⟩

theorem retireCartridge (tag : Byte) (label : Label) : Statement (.retireCartridge tag label) := by
  intro f hf _; cases hf; exact ⟨rfl, fun h => by cases h⟩

theorem getCartridge (tag : Byte) (label : Label) : Statement (.getCartridge tag label) := by
  intro f hf _; cases hf; exact ⟨rfl, fun h => by cases h⟩

theorem listCartridges (tag : Byte) (start : Half) (filter : Byte) : Statement (.listCartridges tag
    start filter) := by
  intro f hf _; cases hf; exact ⟨rfl, fun h => by cases h⟩

theorem unblockCartridge (tag : Byte) (label : Label) : Statement (.unblockCartridge tag label) := by
  intro f hf _; cases hf; exact ⟨rfl, fun h => by cases h⟩

theorem checkout (tag orderTag : Byte) (courier deadline : Half) (count : Byte) (labels : List Label) :
    Statement (.checkout tag orderTag courier deadline count labels) := by
  intro f hf hw
  cases hf
  simp only [Instr.wellFormed, Bool.and_eq_true, decide_eq_true_eq] at hw
  have hn := Machine.labels_length labels
  refine ⟨?_, ?_⟩
  · have e : bodyLengthOk ((labels.flatMap Machine.fieldLabel).length + 8) = true := by
      rw [hn, Nat.add_comm]; exact hw.2
    exact e
  · intro h
    have e : Machine.operandsOk 0x60 ([orderTag] ++ Machine.fieldHalf courier ++
        Machine.fieldHalf deadline ++ [count] ++ labels.flatMap Machine.fieldLabel) = some true := by
      show some (((labels.flatMap Machine.fieldLabel).length == 8 * count.toNat) : Bool) = some true
      rw [hn, ← hw.1, beq_self_eq_true]
    exact absurd (e.symm.trans h) (by decide)

theorem cancelOrder (tag orderTag : Byte) : Statement (.cancelOrder tag orderTag) := by
  intro f hf _; cases hf; exact ⟨rfl, fun h => by cases h⟩

theorem getOrder (tag orderTag : Byte) : Statement (.getOrder tag orderTag) := by
  intro f hf _; cases hf; exact ⟨rfl, fun h => by cases h⟩

theorem enrolCourier (tag : Byte) (courier : Half) (code : BitVec 24) : Statement (.enrolCourier tag
    courier code) := by
  intro f hf _; cases hf; exact ⟨rfl, fun h => by cases h⟩

theorem revokeCourier (tag : Byte) (courier : Half) : Statement (.revokeCourier tag courier) := by
  intro f hf _; cases hf; exact ⟨rfl, fun h => by cases h⟩

theorem reinstateCourier (tag : Byte) (courier : Half) : Statement (.reinstateCourier tag courier) := by
  intro f hf _; cases hf; exact ⟨rfl, fun h => by cases h⟩

theorem getCourier (tag : Byte) (courier : Half) : Statement (.getCourier tag courier) := by
  intro f hf _; cases hf; exact ⟨rfl, fun h => by cases h⟩

theorem getHandover (tag context : Byte) : Statement (.getHandover tag context) := by
  intro f hf _; cases hf; exact ⟨rfl, fun h => by cases h⟩

theorem acceptHandover (tag context : Byte) : Statement (.acceptHandover tag context) := by
  intro f hf _; cases hf; exact ⟨rfl, fun h => by cases h⟩

theorem disputeHandover (tag context : Byte) : Statement (.disputeHandover tag context) := by
  intro f hf _; cases hf; exact ⟨rfl, fun h => by cases h⟩

theorem abortHandover (tag context : Byte) : Statement (.abortHandover tag context) := by
  intro f hf _; cases hf; exact ⟨rfl, fun h => by cases h⟩

theorem pollSent : Statement (.pollSent) := by
  intro f hf; cases hf

theorem fieldReportReceived (report : List Byte) : Statement (.fieldReportReceived report) := by
  intro f hf; cases hf

theorem replyWindowExpiry : Statement (.replyWindowExpiry) := by
  intro f hf; cases hf

theorem rateBroadcastSent : Statement (.rateBroadcastSent) := by
  intro f hf; cases hf

theorem deadlineExpiry (slot : Fin 16) : Statement (.deadlineExpiry slot) := by
  intro f hf; cases hf

theorem probeAgeTimerExpiry (node : Fin 32) : Statement (.probeAgeTimerExpiry node) := by
  intro f hf; cases hf

theorem graceTimerExpiry (zone : Fin 8) : Statement (.graceTimerExpiry zone) := by
  intro f hf; cases hf

theorem minuteTimerExpiry (zone : Fin 8) : Statement (.minuteTimerExpiry zone) := by
  intro f hf; cases hf

theorem dwellCompletion (position : Fin 12) : Statement (.dwellCompletion position) := by
  intro f hf; cases hf

theorem carryWindowExpiry (record : Fin 2048) : Statement (.carryWindowExpiry record) := by
  intro f hf; cases hf

theorem alertTimerExpiry (zone : Fin 8) : Statement (.alertTimerExpiry zone) := by
  intro f hf; cases hf

theorem countdownTimerExpiry (zone : Fin 8) : Statement (.countdownTimerExpiry zone) := by
  intro f hf; cases hf

theorem ackTimerExpiry (zone : Fin 8) : Statement (.ackTimerExpiry zone) := by
  intro f hf; cases hf

theorem purgeMinimumTimerExpiry : Statement (.purgeMinimumTimerExpiry) := by
  intro f hf; cases hf

theorem purgeMaximumTimerExpiry : Statement (.purgeMaximumTimerExpiry) := by
  intro f hf; cases hf

theorem retryDelayExpiry : Statement (.retryDelayExpiry) := by
  intro f hf; cases hf

theorem wetDwellExpiry : Statement (.wetDwellExpiry) := by
  intro f hf; cases hf

theorem hatchWaitLimitExpiry (context : Fin 2) : Statement (.hatchWaitLimitExpiry context) := by
  intro f hf; cases hf

theorem loadingLimitExpiry (context : Fin 2) : Statement (.loadingLimitExpiry context) := by
  intro f hf; cases hf

theorem collectingLimitExpiry (context : Fin 2) : Statement (.collectingLimitExpiry context) := by
  intro f hf; cases hf

theorem releaseWaitLimitExpiry (context : Fin 2) : Statement (.releaseWaitLimitExpiry context) := by
  intro f hf; cases hf

theorem recallLimitExpiry (context : Fin 2) : Statement (.recallLimitExpiry context) := by
  intro f hf; cases hf

theorem powerOn (hrate : Bool) : Statement (.powerOn hrate) := by
  intro f hf; cases hf

theorem powerLoss (unmade : Nat) : Statement (.powerLoss unmade) := by
  intro f hf; cases hf

theorem resetLineAssert : Statement (.resetLineAssert) := by
  intro f hf; cases hf

theorem resetLineRelease : Statement (.resetLineRelease) := by
  intro f hf; cases hf

theorem hostCharacterReceived (character : Byte) (stopBit : Bool) : Statement (.hostCharacterReceived
    character stopBit) := by
  intro f hf; cases hf

end Laws.RowForm

end Sys2Proof
end

