-- ==== Sys2Proof/Tests/Slice0.lean ====
section
/-! SUPPORT. Tests/Slice0: the checks of WellFormed refuse an ill-formed term each; worked values of the spec;
and, for each obligation with hypotheses, a state and operands that meet them, at the ends of their ranges. -/

namespace Sys2Proof.Tests

open Sys2Proof.Machine

set_option maxRecDepth 8000

/-! ## Well-formed and ill-formed terms -/

theorem test_frameBody_short : Instr.wellFormed (.hostFrameReceived [1, 1]) = false := by decide
theorem test_frameBody_ends : Instr.wellFormed (.hostFrameReceived [1, 1, 0]) = true ∧
    bodyLengthOk 253 = true ∧ bodyLengthOk 254 = false := by decide
theorem test_unknownRequest_known : Instr.wellFormed (.unknownRequest 1 0x83 [0]) = false := by decide
theorem test_unknownRequest_short : Instr.wellFormed (.unknownRequest 1 0x84 []) = false := by decide
theorem test_unknownRequest_ok : Instr.wellFormed (.unknownRequest 1 0x84 [0]) = true := by decide
theorem test_forward_long : Instr.wellFormed (.forward 1 0 0 (List.replicate 201 0)) = false := by decide
theorem test_forward_ok : Instr.wellFormed (.forward 1 0 0 (List.replicate 200 0)) = true := by decide
theorem test_checkout_count : Instr.wellFormed (.checkout 1 1 1 0 2 [7]) = false := by decide
theorem test_checkout_long : Instr.wellFormed (.checkout 1 1 1 0 31 (List.replicate 31 7)) = false := by
  decide
theorem test_checkout_ok : Instr.wellFormed (.checkout 1 1 1 0 30 (List.replicate 30 7)) = true := by
  decide
theorem test_report_short : Instr.wellFormed (.fieldReportReceived [1, 1, 0, 0, 0, 0, 0]) = false := by
  decide
theorem test_table_words_spell_nothing : decodeTableWord 16 0x0101 = none := by decide

/-! ## Small states and what a command leaves -/

/-- The part after reset with its RESTARTED notice sent: at rest. -/
def ready : State := State.reset.withHost { State.reset.host with transmitting := none }

/-- The state a command leaves. -/
def after (c : Instr) (s : State) : State :=
  match exec c s with
  | .next t => t
  | .fault _ => s
  | .refused _ => s

/-- The reply on the line after a command. -/
def answer (c : Instr) (s : State) : Option (Status × List Byte) :=
  match (after c s).host.transmitting with
  | some (.reply r) => some (r.status, r.data)
  | some (.notice _) => none
  | none => none

/-- The label K7A00001. -/
def label1 : Label := 0x4B37413030303031

def record1 (st : CState) (loc : Location) : Record :=
  { label := label1, home := 4095, state := st, location := loc, custodian := none, exposed := false,
    orderSlot := none, carry := none }

def holding (r : Record) : State := ready.withCustody { records := [(2047, r)], newestBlocked := none }

def node1 (t : Target) : Node :=
  { binding := ⟨126, t⟩, health := .online, misses := 0, accepted := none, rate := 0, assembly := none }

def bound (t : Target) : State := ready.withNodes [(31, node1 t)]

def burning (f : ZoneFire) : State := ready.withFire { ready.fire with zones := ready.fire.zones.set 7 f }

def fire1 (st : FireState) : ZoneFire := { ZoneFire.restarted with state := st }

def order1 (st : OrderState) : Order :=
  { tag := 255, courier := 65000, deadline := some 1, entries := [], state := st }

def ordered (st : OrderState) : State := ready.withOrders [(15, order1 st)]

def rostered (st : CourierState) : State :=
  ready.withHandover { roster := [(63, ⟨65000, 999999, st, 0⟩)], contexts := [] }

def context1 (d : Direction) (ph : Phase) : Context :=
  { courier := 65000, direction := d, phase := ph, manifest := [], rejected := [], timer := some 1,
    pendingOutcome := none, accepted := 0, finish := none }

def handing (x : Context) : State := ready.withHandover { roster := [], contexts := [(1, x)] }

def hatched (h : Hatch) : State := ready.withHatch h

def linked (a : Activity) : State := ready.withLink { ready.link with activity := a }

def hosted (h : HostLink) : State := ready.withHost h

def faulted : State := ready.withDevice { ready.device with storeFault := true }

def off : State := ready.withDevice { ready.device with powered := false }

def poll1 : Transaction :=
  { node := some 31, physicalId := 126, origin := .routine, code := 0, data := [], ack := 0, rate := 0,
    counted := true }

/-! ## Worked values -/

/-- The default settings of a zone, as GET_ZONE lays them out (R18, Table 0-4). -/
theorem test_getZone_default : answer (.getZone 1 7) ready = some (.ok,
    [7, 0, 0xFF, 0xFF, 0xFF, 0xFF, 1, 0x90, 0, 40, 1, 0x2C, 1, 0xF4, 0, 150, 1, 4, 1]) := by decide

/-- Section 2.6: a window that shares slots with another zone's is refused. -/
theorem test_setZone_conflict :
    answer (.setZone 9 2 1 2000 2999 400 40 300 500 150 260)
      (ready.withSettings { ready.settings with
        zones := ready.settings.zones.set 1 { ZoneSettings.defaults with window := some ⟨1024, 2047⟩ } }) =
      some (.conflict, []) := by decide

theorem test_setParam_range : answer (.setParam 1 1 3) ready = some (.badOperand, []) ∧
    answer (.setParam 1 1 254) ready = some (.ok, [1, 0, 254]) := by decide

theorem test_status_ready : answer (.status 1 0) ready = some (.ok,
    [1, 0, 1, 0] ++ List.replicate 8 0 ++ List.replicate 22 0 ++ [0, 0x12]) := by decide

/-- Section 1.8: a request behind a FORWARD waits in the buffer, the next one is answered LINK_BUSY. -/
theorem test_busy_receiver :
    let s := after (.getRack 22 0) (after (.forward 21 31 0x10 [7]) (bound (.probe 2)))
    s.host.executing = some 21 ∧ s.host.buffer = some ⟨22, 0x40, [0]⟩ ∧
      answer (.status 23 0) s = some (.linkBusy, []) := by decide

/-- Section 7.9: 71.6 % less 40.3 % counts as 32 percent; the dwell is 156 min (R99). -/
theorem test_dwell_length :
    dwellMinutes ready (some (716, 200)) (some (403, 200)) false = 156 ∧
      dwellMinutes ready (some (716, 200)) (some (403, 200)) true = 312 ∧
      dwellMinutes ready none (some (403, 200)) true = 960 := by decide

/-- Section 6.7: the control states at 51.2 %, 41.0 %, 49.0 % and 39.8 % under the defaults (R88). -/
theorem test_control_thresholds :
    controlAfter .defaults .unknown (some (410, 200)) = .holding ∧
      controlAfter .defaults .holding (some (512, 205)) = .drying ∧
      controlAfter .defaults .drying (some (490, 204)) = .drying ∧
      controlAfter .defaults .drying (some (398, 204)) = .holding := by decide

/-- A token with its right code opens a context, which the dry hatch is granted to (R151, R153, R140). -/
theorem test_token_grants :
    let s := (((bound .hatch).withHatch { ready.hatch with air := .dry }).withHandover
      (rostered .active).handover).withCustody
        { records := [(9, { record1 .out (.courier 65000) with custodian := some 65000 })],
          newestBlocked := none }
    let t := takeToken 65000 999999 2 s
    t.hatch.owner = .context 0 ∧ (t.context? 0).map (·.phase) = some .loadingIn ∧
      t.hatch.roomLock = .locked := by decide

/-- Section 8.10: the second head confirms an ALERT zone, and its countdown starts in the same event. -/
theorem test_second_head :
    let t := takeFire 7 .alarm .alarm .released .closed 0
      (burning { fire1 .alert with headA := .alarm, alertTimer := some 1 })
    t.zoneFire 7 =
        { fire1 .countdown with
          headA := .alarm, headB := .alarm, valve := .closed, countdownTimer := some 30000,
          ackTimer := some 30000 } ∧ lockout t = true := by decide

/-- A report of Table 1-9 with its CRC is read; one with a wrong CRC is not. -/
theorem test_report_read :
    let body : List Byte := [126, 1, 0, 0, 0, 5, 1, 0x90, 0, 200, 0]
    (readReport (body ++ fieldHalf (crc body))).map (·.state) = some [1, 0x90, 0, 200, 0] ∧
      readReport (body ++ [0, 0]) = none ∧ readReport [] = none := by decide

/-- A shelf slot that a record comes back to: at home SHELVED, elsewhere BLOCKED MISPLACED (R57). -/
theorem test_shelf_sighting :
    let s := (holding (record1 .loose .inHand)).withStore { ready.store with script := [false] }
    ((shelfInserted false 4095 label1 s).record? 2047).map (·.state) = some .shelved ∧
      ((shelfInserted false 4094 label1 s).record? 2047).map (·.state) =
        some (.blocked .misplaced) := by decide

/-! ## Witnesses: each obligation's hypotheses are met -/

theorem test_ready : HostReady ready ∧ HostReady State.reset := ⟨⟨rfl, rfl, rfl, rfl⟩, rfl, rfl, rfl, rfl⟩
theorem test_tag : (1 : Byte) ≠ 0 ∧ (255 : Byte) ≠ 0 := by decide

theorem test_witness_EmptyQueueTakesTime :
    ready.pending = [] ∧ ready.up = true ∧ off.pending = [] ∧ off.up = false ∧
    ready.link.activity = .idle ∧ (linked (.awaiting poll1 1)).link.activity = .awaiting poll1 1 ∧
    (order1 .ready).state.isWaiting = true ∧ (order1 (.inHandover 1)).state.isWaiting = false ∧
    (ordered (.inHandover 1)).order? 15 = some (order1 (.inHandover 1)) ∧
    ((handing (context1 .outbound .recall)).context? 1).isSome = true := by decide

/-- A tick: a running timer loses 1 ms; a paused dwell and an IN_HANDOVER deadline stand (R78, R104). -/
theorem test_tick_paused :
    let s := (ordered (.inHandover 1)).withRack
      { ready.rack with positions := ready.rack.positions.set 11 ⟨none, some 5, true⟩ }
    let t := tick (s.withHatch { Hatch.restarted with retry := some 5 })
    (t.position 11).dwell = some 5 ∧ (t.order? 15).map (·.deadline) = some (some 1) ∧
      t.hatch.retry = some 4 ∧ ((tick (ordered .ready)).order? 15).map (·.deadline) = some (some 0) := by
  decide +kernel

theorem test_witness_OnlyLineRowsTouchTheLines :
    (∀ h, Instr.frameSent ≠ .powerOn h) ∧ (∀ n, Instr.frameSent ≠ .powerLoss n) ∧
      Instr.frameSent ≠ .resetLineAssert ∧ Instr.frameSent ≠ .resetLineRelease ∧
      ∃ t, exec .frameSent State.reset = .next t :=
  ⟨nofun, nofun, by decide, by decide, _, rfl⟩

/-- An owner in LOADING of a dry hatch, with the store door unlocked. -/
def loadingHatch : Hatch :=
  { Hatch.restarted with owner := .context 1, air := .dry, storeLock := .unlocked }

theorem test_witness_StepKeepsLocksSafe : LocksSafe loadingHatch ∧
    ∃ t, step ((hatched loadingHatch).withPending [.getHatch 1 0]) = .next t :=
  ⟨⟨by decide, fun _ => rfl⟩, _, rfl⟩

/-- Every reply place taken. -/
def fullReplies : HostLink :=
  { ready.host with replies := ⟨.kept, 1, 1, .ok, []⟩ :: List.replicate 4 ⟨.refusal, 1, 1, .linkBusy, []⟩ }

theorem test_witness_StepKeepsReplyPlaces : RepliesOk fullReplies ∧
    ∃ t, step ((hosted fullReplies).withPending [.getHatch 1 0]) = .next t :=
  ⟨⟨by decide, by decide⟩, _, rfl⟩

theorem test_witness_StepKeepsNoticeKeys :
    NoticesOk { pending := [(8, .alarmOut true), (30, .storeFault)], mask := 0 } ∧
      ∃ t, step (ready.withPending [.getHatch 1 0]) = .next t := by
  refine ⟨⟨⟨by decide, by decide, trivial⟩, ?_⟩, _, rfl⟩
  intro p hp
  rcases List.mem_cons.1 hp with rfl | hp
  · rfl
  · rw [List.mem_singleton.1 hp]; rfl

theorem test_witness_StepKeepsCommandKeys :
    QueueOk { ready.link with queue := [⟨31, .purge, [1], false⟩, ⟨31, .roomLock, [0], true⟩] } ∧
      ∃ t, step (ready.withPending [.getHatch 1 0]) = .next t :=
  ⟨by unfold QueueOk; decide, _, rfl⟩

theorem test_witness_StepKeepsTables : TablesOk (bound .rack) ∧
    ∃ t, step ((bound .rack).withPending [.getHatch 1 0]) = .next t :=
  ⟨⟨⟨by decide, trivial⟩, trivial, trivial, trivial, trivial, trivial, trivial, trivial⟩, _, rfl⟩

theorem test_witness_StepKeepsExitOpenInFire :
    someFire (burning (fire1 .confirmed)) = true ∧ ExitOpenInFire (burning (fire1 .confirmed)) ∧
      ∃ t, step ((burning (fire1 .confirmed)).withPending [.ackFire 1 7]) = .next t :=
  ⟨by decide, fun _ => rfl, _, rfl⟩

/-- A zone in fire past its acknowledgement time, with ALARM OUT driven. -/
def sounding : State :=
  ready.withFire { zones := ready.fire.zones.set 7 { fire1 .confirmed with ackExpired := true },
                   alarmOut := true }

theorem test_witness_StepKeepsAlarm : AlarmOk sounding ∧
    ∃ t, step (sounding.withPending [.ackFire 1 7]) = .next t :=
  ⟨fun _ => by decide, _, rfl⟩

theorem test_witness_SerialFrameIsCompleteFrame : ready.host.receiver = .hunt ∧
    bodyLengthOk ([1, 1, 0] : List Byte).length = true ∧
    bodyLengthOk (List.replicate 253 (1 : Byte)).length = true := by decide

/-- The receive states of the clauses of CharacterReception, at the ends of their ranges. -/
theorem test_witness_CharacterReception : ready.up = true ∧ ready.host.receiver = .hunt ∧
    (0x5B : Byte) ≠ 0x5A ∧ (hosted { ready.host with receiver := .length }).up = true ∧
    3 ≤ (3 : Byte).toNat ∧ (253 : Byte).toNat ≤ 253 ∧ (2 : Byte).toNat < 3 ∧ 253 < (254 : Byte).toNat ∧
    ([1] : List Byte).length + 1 < 3 ∧ 3 ≤ ([1, 1] : List Byte).length + 1 ∧
    fieldHalf (crc (byteOf 3 :: [1, 1, 0])) ≠ [0, 0] ∧
    (hosted { ready.host with receiver := .check 3 [1, 1, 0] (some 0) }).up = true := by decide

/-- A right second check byte. -/
theorem test_witness_RightCheckByte :
    let s := hosted { ready.host with receiver := .check 3 [1, 1, 0] (some 0x1B) }
    s.up = true ∧ s.host.receiver = .check 3 [1, 1, 0] (some 0x1B) ∧
      bodyLengthOk ([1, 1, 0] : List Byte).length = true ∧
      fieldHalf (crc (byteOf 3 :: [1, 1, 0])) = [0x1B, 0x1D] := by decide

theorem test_witness_FrameTimerAndFrameSent :
    (hosted { ready.host with receiver := .length, frameTimer := some 0 }).up = true ∧
    (⟨.kept, 1, 1, .ok, []⟩ : Reply).isRestart = false ∧
    (⟨.kept, 1, 3, .accepted, []⟩ : Reply).isRestart = true ∧ State.reset.up = true ∧
    State.reset.host.transmitting = some (.notice (.restarted .powerOn true)) := by decide

/-- A reply on the line and a request in the buffer. -/
def replying (r : Reply) (rest : List Reply) : State :=
  hosted { ready.host with
    transmitting := some (.reply r), replies := r :: rest, buffer := some ⟨9, 0x40, [0]⟩ }

/-- A request that waits behind a kept reply begins when that is sent; behind a refusal it goes on waiting
for the kept reply. -/
theorem test_witness_WaitingFrameBegins :
    let kept : Reply := ⟨.kept, 1, 1, .ok, []⟩
    let refusal : Reply := ⟨.refusal, 2, 1, .linkBusy, []⟩
    keptOccupied ((replying kept []).withHost { (replying kept []).host with replies := [] }) = false ∧
      (replying kept []).host.executing = none ∧ (replying kept []).host.receiver = .hunt ∧
      bodyLengthOk (([0] : List Byte).length + 2) = true ∧
      keptOccupied (hosted { ready.host with replies := [kept] }) = true ∧
      (after .frameSent (replying kept [])).host.buffer = none ∧
      (after .frameSent (replying refusal [kept])).host.buffer = some ⟨9, 0x40, [0]⟩ := by decide

/-- A command without effect, at a state whose lines are idle: the arbiters' clauses speak of what is sent
after it. -/
theorem takes_nothing (s : State) (h : s.up = true) (hf : s.host.frameTimer = none) :
    Takes .frameTimerExpiry s (startEvent s) := by
  have e : frameTimerEnds (startEvent s) = startEvent s := by
    unfold frameTimerEnds
    rw [show (startEvent s).host = s.host from rfl, hf]
  show event frameTimerEnds s = _
  unfold event
  rw [if_pos h, e]

/-- Two notices, of classes 0 and 1. -/
def notifying (mask : Byte) (others : Table Notice) : State :=
  ready.withNotices { pending := others ++ [(30, .storeFault)], mask := mask }

/-- What is sent after a command: the oldest reply; of two notices the one of class 0; of one that its
class's mask holds back, none. -/
theorem test_witness_SendingOrder :
    let r : Reply := ⟨.kept, 1, 1, .ok, []⟩
    let queued := hosted { ready.host with replies := [r] }
    let two := notifying 0 [(8, .alarmOut true)]
    let masked := notifying 2 []
    Takes .frameTimerExpiry queued (startEvent queued) ∧ queued.host.transmitting = none ∧
      queued.host.replies = [r] ∧ Takes .frameTimerExpiry two (startEvent two) ∧
      two.host.transmitting = none ∧ two.host.replies = [] ∧
      two.notices.pending.get? (Notice.alarmOut true).rank = some (.alarmOut true) ∧
      (∀ m : Notice, two.notices.pending.get? m.rank = some m → (Notice.alarmOut true).rank ≤ m.rank) ∧
      Takes .frameTimerExpiry masked (startEvent masked) ∧
      (∀ n : Notice, ¬(masked.notices.pending.get? n.rank = some n ∧
        (n.cls = 0 ∨ masked.notices.mask.getLsbD n.cls = false))) ∧
      (after .frameTimerExpiry two).host.transmitting = some (.notice (.alarmOut true)) := by
  refine ⟨takes_nothing _ rfl rfl, rfl, rfl, takes_nothing _ rfl rfl, rfl, rfl, rfl, ?_,
    takes_nothing _ rfl rfl, ?_, rfl⟩
  · intro m h
    show 8 ≤ m.rank
    by_cases a : m.rank < 8
    · have b : ¬8 = m.rank := by omega
      have c : ¬30 = m.rank := by omega
      simp [notifying, Table.get?, State.withNotices, b, c] at h
    · omega
  · rintro n ⟨h, k⟩
    by_cases c : 30 = n.rank
    · simp [notifying, Table.get?, State.withNotices, c] at h
      subst h
      revert k
      decide
    · simp [notifying, Table.get?, State.withNotices, c] at h

/-- An ENDED context whose END notice is on the line. -/
def endedSending : State :=
  (handing { context1 .outbound .ended with finish := some (.waitHatch, .cancelled) }).withHost
    { ready.host with
      transmitting :=
        some (.notice (.handoverState 1 65000 .outbound .ended (some .cancelled) (some .waitHatch) 0 0)) }

theorem test_witness_SentNoticesFreeSlots : endedSending.up = true ∧
    (endedSending.context? 1).map Context.live = some false ∧
    ((handing (context1 .outbound .waitHatch)).context? 1).map Context.live = some true ∧
    (OrderState.finished .done).isFinished = true ∧ OrderState.opened.isFinished = false := by decide

theorem test_witness_FrameAdmission : bodyLengthOk (([0] : List Byte).length + 2) = true ∧
    (hosted { ready.host with executing := some 1 }).host.executing.isSome = true ∧
    keptOccupied (hosted fullReplies) = true ∧ 4 ≤ refusalTotal fullReplies ∧
    (hosted { ready.host with buffer := some ⟨1, 1, [0]⟩ }).host.buffer.isSome = true ∧
    refusalTotal { ready.host with replies := List.replicate 3 ⟨.refusal, 1, 1, .linkBusy, []⟩ } < 4 := by
  decide

/-- A request that arrives while a notice or a refusal is on the line begins at once (R4). -/
theorem test_witness_RequestBegins :
    let refusal : Reply := ⟨.refusal, 2, 1, .linkBusy, []⟩
    let s := hosted { ready.host with transmitting := some (.reply refusal), replies := [refusal] }
    HostReady s ∧ State.reset.host.transmitting.isSome = true ∧
      keptOccupied (after (.getHatch 1 0) State.reset) = true ∧
      (after (.getHatch 1 0) s).host.replies.map (·.tag) = [2, 1] ∧
      (after (.getHatch 1 0) s).host.transmitting = some (.reply refusal) :=
  ⟨⟨rfl, rfl, rfl, rfl⟩, rfl, by decide, by decide, by decide⟩

theorem test_witness_ConfirmationPreemptsWaitingFrame :
    let alert := fun h : HostLink => (burning { fire1 .alert with alertTimer := some 1 }).withHost h
    let waiting := { ready.host with buffer := some ⟨1, 1, [0]⟩ }
    (alert waiting).up = true ∧ ((alert waiting).zoneFire 7).state = .alert ∧
      ((alert waiting).zoneFire 7).alertTimer.isSome = true ∧ (alert ready.host).host.buffer = none ∧
      (alert waiting).host.buffer = some ⟨1, 1, [0]⟩ ∧ refusalTotal waiting < 4 ∧
      4 ≤ refusalTotal { fullReplies with buffer := some ⟨1, 1, [0]⟩ } := by decide

theorem test_witness_LinkControllerRefusals : bodyLengthOk (([0] : List Byte).length + 2) = true ∧
    bodyLengthOk ((List.replicate 251 (0 : Byte)).length + 2) = true ∧
    requestCodes.contains (0x84 : Byte).toNat = false ∧ requestCodes.contains (0x00 : Byte).toNat = false ∧
    operandsOk (0x01 : Byte).toNat [1] = some false ∧ operandsOk (0x83 : Byte).toNat [] = some false := by
  decide

theorem test_witness_SetNoticeMaskAndRestart :
    (0x0E : Byte) &&& 0xF1 = 0 ∧ (0x01 : Byte) &&& 0xF1 ≠ 0 ∧ (0x10 : Byte) &&& 0xF1 ≠ 0 := by decide

theorem test_witness_ParamRequests : (0 : Byte).toNat = 0 ∧ 27 < (28 : Byte).toNat ∧
    Param.ofNumber (27 : Byte).toNat = some .recallLimit ∧
    Param.ofNumber (1 : Byte).toNat = some .replyWindow ∧ Param.valueOk .replyWindow 3 = false ∧
    agreementPairOk ready .agreementWindow 10 = false ∧ Param.valueOk .agreementWindow 20 = true ∧
    agreementPairOk ready .agreementWindow 20 = true ∧ Param.valueOk .rackZone 7 = true ∧
    firstFailure (placementChecks (burning (fire1 .alert)) .rackZone 7) = some .wrongState ∧
    firstFailure (placementChecks ready .rackZone 7) = none := by decide

theorem test_witness_GetZoneReadsEntry :
    8 ≤ (8 : Byte).toNat ∧ (7 : Byte).toNat = (7 : Fin 8).val ∧ (0 : Byte).toNat = (0 : Fin 8).val := by
  decide

theorem test_witness_SetZoneSetsEntry : windowOperand 2 0 0 = none ∧ windowOperand 1 1 0 = none ∧
    windowOperand 1 0 4095 = some (some ⟨0, 4095⟩) ∧ windowOperand 0 0xFFFF 0xFFFF = some none ∧
    ClimateSettings.defaults.ok = true ∧ ({ ClimateSettings.defaults with setpoint := 99 }).ok = false ∧
    firstFailure (setZoneChecks ready 7 (some ⟨0, 4095⟩) .defaults) = none ∧
    firstFailure (setZoneChecks (burning (fire1 .alert)) 7 (some ⟨0, 4095⟩) .defaults) =
      some .wrongState := by decide

theorem test_witness_SaveSettingsWritesImage :
    (ready.withStore { ready.store with script := [false] }).store.nextFails = false ∧
    (ready.withStore { ready.store with script := [true] }).store.nextFails = true ∧
    ready.device.storeFault = false := by decide

theorem test_witness_GetNodeReadsEntry : 32 ≤ (32 : Byte).toNat ∧ (31 : Byte).toNat < 32 ∧
    ready.node? (31 : Byte).toNat = none ∧
    (bound .rack).node? (31 : Byte).toNat = some (node1 .rack) := by decide

theorem test_witness_BindNodeFillsEntry : NodeKind.ofCode (0 : Byte).toNat = none ∧
    NodeKind.ofCode (8 : Byte).toNat = none ∧ NodeKind.ofCode (1 : Byte).toNat = some .probe ∧
    targetOperand .probe 9 0xFFFF 0xFFFF = none ∧
    targetOperand .probe 8 0xFFFF 0xFFFF = some (.probe 8) ∧ 126 < (127 : Byte).toNat ∧
    firstFailure (bindChecks ready 31 126 (.probe 8)) = none ∧
    firstFailure (bindChecks (bound .rack) 31 126 (.probe 8)) = some .inUse := by decide

/-- Bindings that the owning blocks take, and a part in STARTING. -/
theorem test_witness_BindTold :
    firstFailure (bindChecks ready 31 126 (.air 7)) = none ∧
      firstFailure (bindChecks ready 31 126 .hatch) = none ∧
      targetOperand .air 7 0xFFFF 0xFFFF = some (.air 7) ∧
      (ready.withDevice { ready.device with condition := .starting }).device.condition = .starting := by
  decide

theorem test_witness_UnbindNodeFreesEntry : ready.node? (31 : Byte).toNat = none ∧
    (bound .rack).node? 31 = some (node1 .rack) ∧
    firstFailure (unbindChecks (bound .rack) (node1 .rack)) = none ∧
    firstFailure (unbindChecks (burning (fire1 .alert)) (node1 (.fire 7))) = some .wrongState := by decide

/-- Entries that may be unbound, a queue with another node's command, and a cursor that moves on to the lowest
bound index. -/
theorem test_witness_UnbindTold :
    let two := (bound .rack).withNodes [(0, { node1 .terminal with binding := ⟨1, .terminal⟩ }),
      (31, node1 .rack)]
    firstFailure (unbindChecks (bound (.probe 8)) (node1 (.probe 8))) = none ∧
      firstFailure (unbindChecks (bound (.fire 7)) (node1 (.fire 7))) = none ∧
      firstFailure (unbindChecks (bound .hatch) (node1 .hatch)) = none ∧
      (⟨0, .prompt, [9], false⟩ : QueueEntry).node ≠ 31 ∧ TablesOk two ∧
      NextInTurn (· = 0) (some 31) 0 ∧
      (after (.unbindNode 1 31) (two.withLink { two.link with cursor := some 31 })).link.cursor = some 0 :=
  ⟨rfl, rfl, rfl, by decide, ⟨⟨by decide, by decide, trivial⟩, trivial, trivial, trivial, trivial, trivial,
    trivial, trivial⟩, ⟨rfl, .inr ⟨by decide, fun j h => by omega, fun j h => by omega⟩⟩, by decide⟩

/-- The store with its next writes verified. -/
def verified (s : State) : State := s.withStore { s.store with script := List.replicate 4 false }

/-- A context whose manifest holds a taken record, and one with another beside it. -/
def taking (d : Direction) (ph : Phase) (more : List ManifestEntry) : Context :=
  { context1 d ph with manifest := ⟨2047, true⟩ :: more, pendingOutcome := some .disputed }

/-- A hatch with its room door as reported. -/
def doored (room : Door) : Hatch :=
  { Hatch.restarted with report := some ⟨room, .closed, .closed, .locked, .locked, .unlocked, 400, .stop⟩ }

/-- A report of node 126 with its CRC (Table 1-9). -/
def respond (kind flags number count : Byte) (st items : List Byte) : List Byte :=
  let body := [126, kind, flags, number, count, byteOf st.length] ++ st ++ items
  body ++ fieldHalf (crc body)

/-- The state with a node bound to a target at index 31, which a transaction with it is awaited of. -/
def polled (t : Target) (x : Transaction) (s : State) : State :=
  (s.withNodes [(31, node1 t)]).withLink { s.link with activity := .awaiting x 20 }

theorem valid_answer {t : Target} {x : Transaction} {s : State} {report : List Byte} {r : Report}
    (up : s.up = true) (hx : x.node = some 31 ∧ x.physicalId = 126)
    (h : readReport report = some r) (id : r.physicalId = 126) (kind : r.kind = t.kind.code) :
    ValidAnswer (polled t x s) x 31 (node1 t) report r :=
  ⟨up, ⟨_, rfl⟩, hx.1, rfl, h, id.trans hx.2.symm, kind⟩

theorem test_witness_ForwardHoldsExecution : (List.replicate 200 (0 : Byte)).length ≤ 200 ∧
    lockout (burning (fire1 .confirmed)) = true ∧ lockout ready = false ∧
    usableNode ready 31 = false ∧ lockout (bound (.fire 7)) = false ∧
    usableNode (bound (.fire 7)) (31 : Byte).toNat = true ∧ (node1 (.fire 7)).kind = .fire ∧
    0x3F < (0x41 : Byte).toNat ∧ (0x3F : Byte).toNat ≤ 0x3F := by decide

/-- The ends of a forwarded transaction: no report read, one of another ID, of another kind, of the kind. -/
theorem test_witness_ForwardEnds :
    let x := { poll1 with origin := .forwarded }
    let y := { x with physicalId := 125 }
    let s := polled (.probe 8) x (hosted { ready.host with executing := some 1 })
    s.up = true ∧ s.link.activity = .awaiting x 20 ∧ x.origin = .forwarded ∧ x.node = some 31 ∧
      s.node? 31 = some (node1 (.probe 8)) ∧ s.host.executing = some 1 ∧ readReport [] = none ∧
      (readReport (respond 1 0 0 0 [1, 0x90, 0, 200, 0] [])).map (fun r => (r.physicalId, r.kind)) =
        some (126, (node1 (.probe 8)).kind.code) ∧ (126 : Nat) ≠ y.physicalId ∧
      (readReport (respond 2 0 0 0 [] [])).map (·.kind) = some 2 ∧
      (2 : Nat) ≠ (node1 (.probe 8)).kind.code := by decide

/-- A link at rate 3 with no broadcast on the wire. -/
def slow : State := ready.withLink { ready.link with rate := 3 }

/-- A link at a rate whose step-down is on the wire. -/
def stepping (rate : Fin 4) : State :=
  let b : Broadcast := ⟨rate + 1, rate, .stepDown⟩
  ready.withLink { ready.link with rate := rate, pendingBroadcast := some b, activity := .broadcasting b }

theorem test_witness_RestoreLinkRate :
    let going := fun s : State => (s.link.pendingBroadcast.map (·.target)).getD s.link.rate
    going ready = 0 ∧ going slow ≠ 0 ∧ slow.link.rate ≠ 0 ∧ slow.link.activity = .idle ∧
      going (stepping 0) ≠ 0 ∧ (stepping 0).link.rate = 0 ∧ going (stepping 2) ≠ 0 ∧
      (stepping 2).link.rate ≠ 0 ∧
      (stepping 0).link.activity = .broadcasting ⟨1, 0, .stepDown⟩ := by decide

/-- R47 before the last byte of a step-down: at link rate 0 it is withdrawn, else replaced (log 15). -/
theorem test_restore_on_the_wire :
    let t := after (.restoreLinkRate 1 0) (stepping 0)
    let u := after (.restoreLinkRate 1 0) (stepping 2)
    t.link.pendingBroadcast = none ∧ t.link.activity = .idle ∧
      t.notices.pending.get? 84 = some (.linkRate 0 .restored) ∧
      u.link.pendingBroadcast = some ⟨0, 2, .restored⟩ ∧
      u.link.activity = .broadcasting ⟨0, 2, .restored⟩ := by decide

theorem test_witness_PollAndBroadcastSent : (linked (.sending poll1)).up = true ∧
    (linked (.broadcasting ⟨1, 0, .stepDown⟩)).up = true ∧
    (node1 .rack).health ≠ .offline ∧ (node1 .rack).rate = 0 ∧
    ({ node1 .rack with rate := 3 }).rate ≠ (0 : Fin 4) := by decide

/-- The link-quality window: a transaction that is not counted, one within the window, the one that fills
it, at the threshold of 20 errors and below it, at rate 3 and with a broadcast pending. -/
theorem test_witness_QualityWindow :
    ready.param .errorThreshold = 20 ∧ (poll1.counted = true) ∧
      ({ poll1 with counted := false }).counted = false ∧ 0 + 1 < 2 ∧ 1 ≤ 0 + 1 ∧ 20 ≤ 19 + 1 ∧
      19 + 0 < 20 ∧ (2 : Fin 4).val < 3 ∧ slow.link.rate = 3 ∧
      (stepping 0).link.pendingBroadcast.isSome = true ∧
      (let s := polled .rack poll1 (ready.withLink { ready.link with
          windowLength := 1, errors := 19, rate := 2 })
       (after .replyWindowExpiry s).link.pendingBroadcast = some ⟨3, 2, .stepDown⟩ ∧
         (after (.fieldReportReceived (respond 5 0 0 0 [] [])) s).link.pendingBroadcast = none) := by
  decide

/-- An idle link with a FIRE node and a queue, and the numbers of its node turns. -/
def choosing (q : List QueueEntry) (fireCount : Nat) (l : FieldLink) : State :=
  (bound (.fire 7)).withLink { l with queue := q, fireCount := fireCount, cursor := some 31 }

def entry1 (c : CmdKind) : QueueEntry := ⟨31, c, [0], false⟩

theorem choosing_takes (q : List QueueEntry) (n : Nat) (l : FieldLink) :
    Takes .frameTimerExpiry (choosing q n l) (startEvent (choosing q n l)) :=
  takes_nothing _ rfl rfl

/-- What an idle link sends: each clause's queue, fire count and slots. -/
theorem test_witness_ArbiterChoices :
    let usable := fun (kinds : List CmdKind) (e : QueueEntry) =>
      e.cmd ∈ kinds ∧ usableNode (choosing [] 0 ready.link) e.node = true
    let forwarding := { ready.link with forward := some ⟨31, 1, [7]⟩ }
    (choosing [] 4 ready.link).link.activity = .idle ∧ TablesOk (choosing [] 4 ready.link) ∧
      FirstOf [entry1 .purge, entry1 .release] (usable [.release]) (entry1 .release) ∧
      FirstOf [entry1 .prompt, entry1 .exitLock] (usable [.roomLock, .storeLock, .exitLock, .purge])
        (entry1 .exitLock) ∧
      (∀ e ∈ [entry1 .prompt], ¬usable [.release] e) ∧
      FirstOf [entry1 .prompt] (usable [.mode, .signalReject, .prompt]) (entry1 .prompt) ∧
      NextInTurn (· = 31) none 31 ∧ NextInTurn (· = 31) (some 31) 31 ∧ NextInTurn (· = 31) (some 7) 31 ∧
      usableNode (choosing [] 0 ready.link) 31 = true ∧
      ((choosing [] 0 ready.link).node? 31).map Node.kind = some .fire ∧ (3 : Nat) ≠ 4 ∧
      (choosing [] 3 forwarding).link.forward = some ⟨31, 1, [7]⟩ ∧ ready.link.forward = none ∧
      (choosing [] 0 { ready.link with followUp := some 31 }).link.followUp = some 31 ∧
      ready.link.lastWasFollowUp = false ∧ ready.link.followUp = none := by
  have one : ∀ p : Option Nat, (p = none ∨ ∃ k, p = some k) → NextInTurn (· = 31) p 31 := by
    rintro p (rfl | ⟨k, rfl⟩)
    · exact ⟨rfl, fun j h => h ▸ Nat.le_refl _⟩
    · refine ⟨rfl, ?_⟩
      by_cases h : k < 31
      · exact .inl ⟨h, fun j hj _ => hj ▸ Nat.le_refl _⟩
      · exact .inr ⟨by omega, fun j hj => by omega, fun j hj => hj ▸ Nat.le_refl _⟩
  exact ⟨rfl, ⟨⟨by decide, trivial⟩, trivial, trivial, trivial, trivial, trivial, trivial, trivial⟩,
    ⟨[entry1 .purge], [], rfl, by decide, by decide⟩, ⟨[entry1 .prompt], [], rfl, by decide, by decide⟩,
    by decide, ⟨[], [], rfl, by decide, by decide⟩, one _ (.inl rfl), one _ (.inr ⟨_, rfl⟩),
    one _ (.inr ⟨_, rfl⟩), rfl, rfl, by decide, rfl, rfl, rfl, rfl, rfl⟩

/-- What the idle link begins at those states. -/
theorem test_arbiter_begins :
    let sends := fun s : State => match (after .frameTimerExpiry s).link.activity with
      | .sending x => some (x.origin, x.code)
      | _ => none
    sends (choosing [entry1 .purge, entry1 .release] 4 ready.link) = some (.command .release, 0x47) ∧
      sends (choosing [entry1 .prompt, entry1 .exitLock] 4 ready.link) =
        some (.command .exitLock, CmdKind.exitLock.code) ∧
      sends (choosing [entry1 .prompt] 4 ready.link) = some (.firePoll, 0) ∧
      sends (choosing [entry1 .prompt] 3 ready.link) = some (.command .prompt, CmdKind.prompt.code) ∧
      sends (choosing [] 3 { ready.link with forward := some ⟨31, 1, [7]⟩ }) = some (.forwarded, 1) ∧
      sends (choosing [] 3 ready.link) = some (.routine, 0) ∧
      sends (choosing [] 3 { ready.link with rate := 2 }) = some (.routine, 0x40) := by decide

/-- A bound PROBE whose poll is awaited. -/
def awaited : State := (bound (.probe 8)).withLink { ready.link with activity := .awaiting poll1 20 }

/-- A report of the awaited PROBE, and one of another kind. -/
def report1 (kind : Byte) : List Byte :=
  let body : List Byte := [126, kind, 0, 0, 0, 5, 1, 0x90, 0, 200, 0]
  body ++ fieldHalf (crc body)

theorem test_witness_TransactionEndSetsHealth : awaited.up = true ∧
    awaited.link.activity = .awaiting poll1 20 ∧ poll1.node = some 31 ∧
    awaited.node? 31 = some (node1 (.probe 8)) ∧ readReport [] = none ∧
    (readReport (report1 1)).map (·.physicalId) = some 126 ∧
    (126 : Nat) ≠ ({ poll1 with physicalId := 125 }).physicalId ∧
    (∃ r, readReport (report1 2) = some r ∧ r.physicalId = poll1.physicalId ∧
      r.kind ≠ (node1 (.probe 8)).kind.code) ∧
    (∃ r, ValidAnswer awaited poll1 31 (node1 (.probe 8)) (report1 1) r) :=
  ⟨rfl, rfl, rfl, rfl, rfl, rfl, by decide, ⟨_, rfl, rfl, by decide⟩,
    _, valid_answer rfl ⟨rfl, rfl⟩ rfl rfl rfl⟩

/-- A valid answer with a batch, with none, and one that a hunting poll brings at another rate; a token of a
TERMINAL that was never answered is a batch not had before. -/
theorem test_witness_ValidAnswerClauses :
    (∃ r, ValidAnswer (polled .terminal poll1 ready) poll1 31 (node1 .terminal)
        (respond 7 0 17 1 [] [5]) r ∧ NewBatch (node1 .terminal) r [.confirm] ∧ r.number % 16 = 1) ∧
      (∃ r, ValidAnswer (polled (.air 7) poll1 ready) poll1 31 (node1 (.air 7))
        (respond 3 0 0 0 [1] []) r ∧ readItems .air r = .events []) ∧
      ((node1 (.air 7)).kind ≠ .fire ∧ (node1 (.air 7)).kind ≠ .hatch ∧
        (node1 (.air 7)).kind ≠ .probe) ∧
      (∃ r, ValidAnswer (polled (.air 7) { poll1 with origin := .hunting none, counted := false } slow)
        { poll1 with origin := .hunting none, counted := false } 31 (node1 (.air 7))
        (respond 3 0 0 0 [1] []) r) ∧
      slow.link.pendingBroadcast = none ∧ (node1 (.air 7)).rate ≠ slow.link.rate :=
  ⟨⟨_, valid_answer rfl ⟨rfl, rfl⟩ rfl rfl rfl, ⟨rfl, .inl ⟨rfl, rfl, rfl, by decide⟩⟩, rfl⟩,
    ⟨_, valid_answer rfl ⟨rfl, rfl⟩ rfl rfl rfl, rfl⟩, by decide,
    ⟨_, valid_answer rfl ⟨rfl, rfl⟩ rfl rfl rfl⟩, rfl, by decide⟩

/-- An event whose code belongs to no kind is dropped, and the rest of the batch is handed on (R34). -/
theorem test_unlisted_event_dropped :
    (readReport (respond 7 0 1 3 [] [9, 5, 0xFF])).map (readItems .terminal) =
      some (.events [.confirm]) := by decide

/-- MISMATCH and an answer of another kind again: the miss count stays (R32; log 42). -/
theorem test_mismatch_keeps_misses :
    let s := awaited.withNodes [(31, { node1 (.probe 8) with health := .mismatch, misses := 3 })]
    ((after (.fieldReportReceived (report1 2)) s).node? 31).map (fun n => (n.health, n.misses)) =
      some (.mismatch, 3) := by decide

theorem test_witness_IdleRowsDoNothing : ready.up = true ∧ ready.link.activity = .idle ∧
    ready.host.transmitting = none ∧ ready.host.frameTimer = none ∧ ready.hatch.retry = none ∧
    ready.hatch.wetDwell = none ∧ ready.hatch.purge = none ∧ ready.order? 15 = none ∧
    (order1 (.inHandover 1)).state.isWaiting = false ∧ ready.climate.probes.get? 31 = none ∧
    (ready.zoneClimate 7).grace = none ∧ (ready.zoneClimate 7).excursion ≠ .outGrace ∧
    (ready.airAt (airZone 7)).reading = none ∧ (ready.zoneClimate 7).minuteTimer = none ∧
    (ready.position 11).dwell = none ∧ ready.record? 2047 = none ∧
    (ready.zoneFire 7).state ≠ .alert ∧ (ready.zoneFire 7).alertTimer = none ∧
    (ready.zoneFire 7).state ≠ .countdown ∧ (ready.zoneFire 7).countdownTimer = none ∧
    (ready.zoneFire 7).ackTimer = none ∧ liveContext? ready 1 = none ∧
    (context1 .outbound .ended).phase ∉ [Phase.recall, .recallReturn] := by decide

/-- A minimum timer that has run out alone, and a context whose limit is stopped. -/
theorem test_witness_StoppedTimers :
    (hatched { Hatch.restarted with owner := .purge, purge := some ⟨none, 5, true⟩ }).hatch.purge =
        some ⟨none, 5, true⟩ ∧
      liveContext? (handing { context1 .outbound .recall with timer := none }) 1 =
        some { context1 .outbound .recall with timer := none } := by decide

theorem test_witness_AckFireAcknowledges : (fire1 .alert).state.inFire = false ∧
    2 ≤ (2 : Byte).toNat ∧ ((burning (fire1 .confirmed)).zoneFire 7).state.inFire = true ∧
    ((burning (fire1 .confirmed)).zoneFire 7).acknowledged = false ∧
    ((burning { fire1 .discharged with acknowledged := true }).zoneFire 7).acknowledged = true := by decide

theorem test_witness_FireResetReturnsToNormal :
    let f := (burning { fire1 .discharged with acknowledged := true }).zoneFire 7
    (7 : Byte).toNat = (7 : Fin 8).val ∧
      (f.state = .confirmed ∨ f.state = .paused ∨ f.state = .discharged) ∧ f.headA ≠ .alarm ∧
      f.headB ≠ .alarm ∧ f.acknowledged = true ∧ (fire1 .releasing).state = .releasing := by decide

theorem test_witness_SetArmedSetsFlag : flagOperand 0 = some false ∧ flagOperand 1 = some true ∧
    (ready.zone 7).armed = true ∧ (7 : Byte).toNat = (7 : Fin 8).val := by decide

theorem test_witness_SetDrillStartsAndStops : (ready.zoneFire 7).state = .normal ∧
    ((burning { fire1 .paused with drill := true }).zoneFire 7).state = .paused ∧
    ((burning { fire1 .paused with drill := true }).zoneFire 7).drill = true ∧
    ((burning (fire1 .paused)).zoneFire 7).drill = false := by decide

/-- Zone 7 with the whole range of slots. -/
def windowed : State :=
  ready.withSettings { ready.settings with
    zones := ready.settings.zones.set 7 { ZoneSettings.defaults with window := some ⟨0, 4095⟩ } }

/-- A SHELVED record in zone 7. -/
def shelved : State := windowed.withCustody (holding (record1 .shelved (.slot 4095))).custody

theorem test_witness_FireTimersExpire :
    let alert := burning { fire1 .alert with alertTimer := some 0 }
    let count := (burning { fire1 .countdown with countdownTimer := some 0 }).withNodes [(31, node1 (.fire 7))]
    alert.up = true ∧ (alert.zoneFire 7).alertTimer.isSome = true ∧ count.up = true ∧
      (count.zoneFire 7).countdownTimer.isSome = true ∧ (count.zoneFire 7).drill = false ∧
      (findNode count.nodes (.fire 7)).isSome = true ∧
      ((burning { fire1 .confirmed with ackTimer := some 0 }).zoneFire 7).ackTimer.isSome = true ∧
      AlarmOk alert := ⟨rfl, rfl, rfl, rfl, rfl, rfl, rfl, fun _ => rfl⟩

/-- FIRE reports of the clauses: first head, second head, both, none, HELD, RELEASED, DISCHARGED, CLOSED. -/
theorem test_witness_FireReports :
    (∃ r, ValidAnswer (polled (.fire 7) poll1 ready) poll1 31 (node1 (.fire 7))
        (respond 2 0 0 0 [1, 0, 0, 0] []) r ∧
      readState .fire r.state = some (.fire .alarm .clear .released .closed)) ∧
      readState .fire [1, 1, 0, 0] = some (.fire .alarm .alarm .released .closed) ∧
      readState .fire [0, 2, 0, 0] = some (.fire .clear .fault .released .closed) ∧
      readState .fire [0, 0, 1, 0] = some (.fire .clear .clear .held .closed) ∧
      readState .fire [0, 0, 0, 1] = some (.fire .clear .clear .released .discharged) ∧
      readState .fire [3, 0, 0, 0] = none ∧ (fire1 .normal).headA ≠ .alarm ∧
      (fire1 .normal).drill = false ∧ (fire1 .countdown).hold = .released ∧
      ({ fire1 .paused with hold := .held }).hold = .held ∧ (fire1 .releasing).valve ≠ .discharged ∧
      poll1.code ≠ 0x47 ∧ shelved.record? 2047 = some (record1 .shelved (.slot 4095)) ∧
      zoneOfLocation shelved (.slot 4095) = some 7 ∧ TablesOk shelved :=
  ⟨⟨_, valid_answer rfl ⟨rfl, rfl⟩ rfl rfl rfl, rfl⟩, rfl, rfl, rfl, rfl, rfl, by decide, rfl, rfl, rfl,
    by decide, by decide, rfl, rfl, trivial, ⟨by decide, trivial⟩, trivial, trivial, trivial, trivial,
    trivial, trivial⟩

/-- The records of a zone whose valve is DISCHARGED are quarantined where they are (R129). -/
theorem test_discharge_quarantines :
    let s := polled (.fire 7) poll1 (shelved.withFire (burning (fire1 .releasing)).fire)
    let t := after (.fieldReportReceived (respond 2 0 0 0 [1, 1, 0, 1] []))
      (s.withStore { s.store with script := [false] })
    (t.record? 2047).map (fun r => (r.state, r.location)) = some (.blocked .fire, .slot 4095) ∧
      (t.zoneFire 7).state = .discharged := by decide

/-- What a confirmation is said of: live contexts, an unfinished order of the zone with an unhanded entry,
the rack zone and the hatch zone (`Confirmed`). -/
theorem test_witness_Confirmed :
    (0 : Fin 8) = ready.rackZone ∧ (0 : Fin 8) = ready.hatchZone ∧ ready.hatch.owner ≠ .fire ∧
      liveContext? (handing (context1 .outbound .loading)) (1 : Fin 2).val =
        some (context1 .outbound .loading) ∧
      2047 ∈ ({ order1 .opened with entries := [⟨2047, false⟩] }).unhanded ∧
      (order1 .opened).state.isFinished = false ∧ (shelved.record? 2047).isSome = true ∧
      zoneOfSlot shelved 4095 = some 7 := by decide

/-- R127: the hatch given up in step 3 by a live context passes to FIRE: no waiting context is granted it and
no purge starts. -/
theorem test_fire_takes_hatch :
    let s := (handing { context1 .outbound .loading with timer := none }).withHandover
      { roster := [], contexts := [(0, context1 .outbound .loading), (1, context1 .outbound .waitHatch)] }
    let s := (s.withHatch { loadingHatch with owner := .context 0, waiting := [1] }).withFire
      { ready.fire with zones := ready.fire.zones.set 0 { fire1 .alert with alertTimer := some 1 } }
    let t := after (.alertTimerExpiry 0) s
    t.hatch.owner = .fire ∧ t.hatch.purge = none ∧
      (t.context? 1).map (·.finish) = some (some (.waitHatch, .fireAbort)) := by decide

theorem test_witness_HatchDryOverrideDries : lockout ready = false ∧ ready.hatch.owner ≠ .fire ∧
    ready.hatch.air = .wet ∧ (hatched loadingHatch).hatch.air = .dry ∧
    lockout (burning (fire1 .confirmed)) = true := by decide

/-- A purge run and a record in the hatch: the override ends the one and exposes the other (R143). -/
theorem test_override_exposes :
    let s := (holding (record1 .received .hatch)).withHatch
      { Hatch.restarted with owner := .purge, purgeCmd := .run, purge := some ⟨some 5, 9, true⟩ }
    let t := after (.hatchDryOverride 1 0) (verified s)
    s.hatch.purge.isSome = true ∧ s.record? 2047 = some (record1 .received .hatch) ∧
      (t.record? 2047).map (fun r => (r.exposed, r.location)) = some (true, .hatch) ∧
      t.hatch.purgeCmd = .stop ∧ t.hatch.purge = none ∧
      t.notices.pending.get? 51 = some (.hatchAir .override .dry none) := by decide

/-- A purge run whose minimum time runs, and the readings that meet its test: 42.0 % against 40.0 %. -/
def purging (rh : Nat) : State :=
  (hatched { Hatch.restarted with
      owner := .purge, purge := some ⟨some 0, 0, true⟩,
      report := some ⟨.closed, .closed, .closed, .locked, .locked, .unlocked, rh, .run⟩ }).withClimate
    { ready.climate with air := ready.climate.air.set 0 { AirReading.restarted with reading := some (400, 200) } }

theorem test_witness_HatchTimersExpire : (purging 420).up = true ∧ purgeTest (purging 420) = true ∧
    purgeTest (purging 421) = false ∧ ((hatched Hatch.restarted).airAt (airZone 0)).reading = none ∧
    (hatched { Hatch.restarted with retry := some 0 }).hatch.retry.isSome = true ∧
    (hatched { Hatch.restarted with wetDwell := some 0 }).hatch.wetDwell.isSome = true ∧
    TablesOk (hatched { Hatch.restarted with wetDwell := some 0 }) :=
  ⟨rfl, rfl, rfl, rfl, rfl, rfl, trivial, trivial, trivial, trivial, trivial, trivial, trivial, trivial⟩

/-- HATCH reports of the clauses: doors, ENTERED, LEFT and a whole snapshot. -/
theorem test_witness_HatchReports :
    let st : List Byte := [1, 0, 0, 1, 0, 0, 1, 0x90, 1]
    let n := { node1 .hatch with accepted := some 1 }
    (∃ r, ValidAnswer (polled .hatch poll1 ready) poll1 31 (node1 .hatch) (respond 6 5 0 1 st
        (fieldLabel label1)) r ∧ WholeSnapshot (node1 .hatch) r [⟨0, true, label1⟩] ∧
      readState .hatch r.state =
        some (.hatch ⟨.opened, .closed, .closed, .unlocked, .locked, .locked, 400, .run⟩)) ∧
      (∃ r, readReport (respond 6 0 2 1 st (2 :: fieldLabel label1)) = some r ∧
        NewBatch n r [.entered label1]) ∧
      (∃ r, readReport (respond 6 0 2 1 st (3 :: fieldLabel label1)) = some r ∧
        NewBatch n r [.left label1]) ∧
      (∃ r, readReport (respond 6 5 0 0 st []) = some r ∧ WholeSnapshot n r []) ∧
      Hatch.restarted.owner = .nobody ∧ Hatch.restarted.waiting = [] ∧
      findLabel (holding (record1 .loose .inHand)) label1 = some 2047 ∧
      liveContext? (handing (context1 .outbound .loading)) 1 = some (context1 .outbound .loading) ∧
      (context1 .outbound .loading).manifest = [] ∧ (context1 .outbound .loading).rejected = [] ∧
      readState .hatch [] = Hatch.restarted.report.map NodeState.hatch :=
  ⟨⟨_, valid_answer rfl ⟨rfl, rfl⟩ rfl rfl rfl, ⟨rfl, _, [], rfl, rfl, .inl ⟨rfl, rfl⟩⟩, rfl⟩,
    ⟨_, rfl, rfl, .inl ⟨rfl, rfl, rfl, by decide⟩⟩, ⟨_, rfl, rfl, .inl ⟨rfl, rfl, rfl, by decide⟩⟩,
    ⟨_, rfl, ⟨rfl, _, [], rfl, rfl, .inl ⟨rfl, rfl⟩⟩⟩, rfl, rfl, rfl, rfl, rfl, rfl, rfl⟩

/-- The owners of the hatch with which no context owns or awaits it. -/
theorem test_witness_NoContext : NoContext ready ∧
    NoContext (hatched { Hatch.restarted with owner := .fire, waiting := [1] }) ∧
    NoContext (hatched { Hatch.restarted with owner := .purge, purge := some ⟨none, 5, true⟩ }) :=
  ⟨.inr (.inl ⟨rfl, rfl⟩), .inl rfl, .inr (.inr ⟨rfl, rfl, rfl⟩)⟩

/-- A context that owns the hatch, and a record. -/
def owning (x : Context) (r : Record) : State :=
  ((holding r).withHandover { roster := [], contexts := [(1, x)] }).withHatch
    { (doored .closed) with owner := .context 1, air := .dry }

/-- The HATCH report that shows the hatch as it is. -/
def sameDoors : List Byte := [0, 0, 0, 0, 0, 1, 1, 0x90, 0]

theorem owner_hears (x : Context) (r : Record) (q : Report) (live : x.live = true)
    (h : readState .hatch q.state = (doored .closed).report.map NodeState.hatch) :
    OwnerHears (polled .hatch poll1 (owning x r)) 1 x q := by
  refine ⟨rfl, ?_, rfl, h⟩
  show (if x.live then some x else none) = some x
  rw [if_pos live]

/-- The reports of the clauses that an owning context hears, and the record and manifest that each phase
names. -/
theorem test_witness_OwnerHears :
    let q := { record1 (.ready .outbound) .inHand with orderSlot := some 15 }
    let out := { record1 .out (.courier 65000) with custodian := some 65000 }
    let o := { order1 .ready with entries := [⟨2047, false⟩] }
    (∃ r, ValidAnswer (polled .hatch poll1 (owning (context1 .outbound .loading) q)) poll1 31 (node1 .hatch)
        (respond 6 5 0 1 sameDoors (fieldLabel label1)) r ∧ WholeSnapshot (node1 .hatch) r [⟨0, true, label1⟩] ∧
      OwnerHears (polled .hatch poll1 (owning (context1 .outbound .loading) q)) 1
        (context1 .outbound .loading) r) ∧
      (context1 .outbound .loading).roomLeft ∧ q.state = .ready .outbound ∧
      (∀ n, q.location ≠ .slot n) ∧ 2047 ∈ o.unhanded ∧ o.courier = (context1 .outbound .loading).courier ∧
      o.state.isFinished = false ∧ findLabel (owning (context1 .outbound .loading) q) label1 = some 2047 ∧
      (taking .outbound .collecting []).isTaken 2047 = true ∧
      (taking .outbound .recall []).timer.isSome = true ∧
      IsOutWith (owning (context1 .returning .loadingIn) out) 2047 (context1 .returning .loadingIn).courier ∧
      (context1 .outbound .unloading).holds 2047 = false ∧
      label1 ∉ (context1 .outbound .unloading).rejected ∧ findLabel ready label1 = none ∧
      ({ taking .outbound .recall [] with manifest := [⟨2047, false⟩] }).isTaken 2047 = false ∧
      label1 ∈ ({ context1 .outbound .loading with rejected := [label1] }).rejected ∧
      roomDoor (owning (context1 .outbound .awaitRelease) q) = .closed :=
  ⟨⟨_, valid_answer rfl ⟨rfl, rfl⟩ rfl rfl rfl, ⟨rfl, _, [], rfl, rfl, .inl ⟨rfl, rfl⟩⟩,
      owner_hears _ _ _ rfl rfl⟩, by unfold Context.roomLeft; decide, rfl, nofun, by decide, rfl, rfl, rfl,
    rfl, rfl, ⟨_, rfl, rfl, rfl, rfl⟩, rfl, by decide, rfl, rfl, by decide, rfl⟩

/-- A snapshot heard in COLLECTING: a taken record with the courier, and an untaken one in the hatch. -/
theorem test_witness_HeardSnapshot :
    let taken := owning (taking .outbound .collecting []) (record1 .staged (.courier 65000))
    let untaken := { context1 .outbound .collecting with manifest := [⟨2047, false⟩] }
    (taking .outbound .collecting []).rejected = [] ∧
      ((taking .outbound .collecting []).manifest.map (·.record)).Nodup ∧
      taken.custody.records.map (·.1) = [2047] ∧ label1 ∈ [(⟨0, true, label1⟩ : SnapEntry)].map (·.label) ∧
      (owning untaken (record1 .staged .hatch)).record? 2047 = some (record1 .staged .hatch) ∧
      untaken.holds 2047 = true ∧ untaken.isTaken 2047 = false ∧ (7 : Label) ≠ label1 ∧
      taken.custody.records.map (·.1) = [2047] := by decide

/-- Lists that have room for 23 labels beside the one manifest record, and no two records with one label. -/
theorem test_witness_HeardSnapshotRoom :
    let taken := owning (taking .outbound .collecting []) (record1 .staged (.courier 65000))
    (taking .outbound .collecting []).roomFor taken (label1 :: List.replicate 23 7) ∧ LabelsUnique taken := by
  refine ⟨by unfold Context.roomFor; decide, ?_⟩
  have one : ∀ i r, (owning (taking .outbound .collecting []) (record1 .staged (.courier 65000))).record? i =
      some r → i = 2047 := by
    intro i r h
    change Table.get? [(2047, _)] i = some r at h
    unfold Table.get? at h
    split at h
    · next e => exact e.symm
    · cases h
  intro i j r q hi hj _
  rw [one i r hi, one j q hj]

/-- What an owning context's event leaves: the record's state, place and the manifest. -/
def heard (event : Byte) (x : Context) (r : Record) (orders : Table Order) :
    Option (CState × Location) × Option (List ManifestEntry × List Label) :=
  let s := (polled .hatch poll1 (owning x r)).withOrders orders
  let n := { node1 .hatch with accepted := some 1 }
  let t := after (.fieldReportReceived (respond 6 0 2 1 sameDoors (event :: fieldLabel label1)))
    (verified (s.withNodes [(31, n)]))
  ((t.record? 2047).map fun q => (q.state, q.location),
    (t.context? 1).map fun y => (y.manifest, y.rejected))

/-- R156, R157, R163, R162, R154: staged, taken, INBOUND, unloaded, rejected. -/
theorem test_owner_events :
    let q := { record1 (.ready .outbound) .inHand with orderSlot := some 15 }
    let out := { record1 .out (.courier 65000) with custodian := some 65000 }
    let o := { order1 (.inHandover 1) with entries := [⟨2047, false⟩] }
    let untaken := fun ph => { context1 .outbound ph with manifest := [⟨2047, false⟩] }
    heard 2 (context1 .outbound .loading) q [(15, o)] =
        (some (.staged, .hatch), some ([⟨2047, false⟩], [])) ∧
      heard 3 (untaken .collecting) (record1 .staged .hatch) [] =
        (some (.staged, .courier 65000), some ([⟨2047, true⟩], [])) ∧
      heard 2 (context1 .returning .loadingIn) out [] =
        (some (.inbound, .hatch), some ([⟨2047, false⟩], [])) ∧
      heard 3 (untaken .unloading) (record1 .staged .hatch) [] = (some (.picked, .inHand), some ([], [])) ∧
      heard 2 (context1 .outbound .loading) (record1 .loose .inHand) [] =
        (some (.loose, .inHand), some ([], [label1])) :=
  ⟨by decide, by decide, by decide, by decide, by decide⟩

/-- Zone 7 with a climate record and a known reading, and a probe of its bound at place 31. -/
def airing (c : ZoneClimate) : State :=
  (bound (.probe 7)).withClimate
    { probes := [(31, ⟨some ⟨600, 200, false⟩, some 0⟩)],
      air := ready.climate.air.set 7 { AirReading.restarted with reading := some (600, 200) },
      zones := ready.climate.zones.set 7 c }

theorem test_witness_ClimateTimersExpire :
    let g := airing { ZoneClimate.restarted with excursion := .outGrace, grace := some 0 }
    let m := airing { ZoneClimate.restarted with excursion := .excursion, minuteTimer := some 0 }
    g.up = true ∧ (g.zoneClimate 7).excursion = .outGrace ∧ (g.zoneClimate 7).grace.isSome = true ∧
      (g.airAt (airZone 7)).reading.isSome = true ∧ (m.zoneClimate 7).minuteTimer.isSome = true ∧
      (ready.airAt (airZone 7)).reading = none ∧
      ((g.climate.probes.get? 31).bind (·.age)).isSome = true ∧
      (g.node? 31).map (·.binding.target) = some (.probe 7) := by decide

/-- The entry into EXPOSING at the limit of 60 min, and one minute below it: the record in the zone is exposed
by the first alone. -/
theorem test_exposing_sweeps :
    let zone := fun minutes => shelved.withClimate
      (airing { ZoneClimate.restarted with excursion := .excursion, minutes := minutes,
                                           minuteTimer := some 0 }).climate
    let left := fun minutes => after (.minuteTimerExpiry 7) (verified (zone minutes))
    ready.param .exposureLimit = 60 ∧ 60 ≤ min 65535 (59 + 1) ∧ 60 ≤ min 65535 (65535 + 1) ∧
      (zone 59).record? 2047 = some (record1 .shelved (.slot 4095)) ∧
      ((left 59).zoneClimate 7).excursion = .exposing ∧
      ((left 59).record? 2047).map (·.exposed) = some true ∧
      ((left 58).zoneClimate 7).excursion = .excursion ∧
      ((left 58).record? 2047).map (·.exposed) = some false := by decide

/-- PROBE and AIR reports of the clauses: a reading, the two probes of ROOM with a window that goes on and one
that is full, a difference above the tolerance and at it, and a mode other than the zone's. -/
theorem test_witness_ProbeAndAirReports :
    let two := (ready.withNodes [(30, { node1 (.probe 8) with binding := ⟨125, .probe 8⟩ }),
      (31, node1 (.probe 8))]).withClimate
        { ready.climate with
          probes := [(30, ⟨some ⟨600, 200, false⟩, some 5⟩)],
          air := ready.climate.air.set 8 { AirReading.restarted with window := some ⟨9, 2, 10⟩ } }
    (∃ r, ValidAnswer (polled (.probe 8) poll1 ready) poll1 31 (node1 (.probe 8))
        (respond 1 0 0 0 [1, 0x90, 0, 200, 0] []) r ∧
      readState .probe r.state = some (.probe ⟨400, 200, false⟩)) ∧
      probesOf two.nodes 8 = [30, 31] ∧ usableReading two 30 = some (600, 200) ∧
      (two.airAt 8).window = some ⟨9, 2, 10⟩ ∧ 10 ≤ 9 + 1 ∧ 9 + 1 < 20 ∧
      (⟨400, 200, false⟩ : ProbeReport).inRange = true ∧
      (⟨1001, 200, false⟩ : ProbeReport).inRange = false ∧
      (∃ r, ValidAnswer (polled (.air 7) poll1 ready) poll1 31 (node1 (.air 7))
        (respond 3 0 0 0 [3] []) r ∧ readState .air r.state = some (.air .wet)) ∧
      AirMode.wet ≠ (ready.zoneClimate 7).control.mode ∧ poll1.code ≠ 0x41 :=
  ⟨⟨_, valid_answer rfl ⟨rfl, rfl⟩ rfl rfl rfl, rfl⟩, rfl, rfl, rfl, by decide, by decide, rfl, rfl,
    ⟨_, valid_answer rfl ⟨rfl, rfl⟩ rfl rfl rfl, rfl⟩, by decide, by decide⟩

/-- A record in a dwell at position 11. -/
def dwelling : State :=
  (holding (record1 (.conditioning .returning) (.rack 11))).withRack
    { ready.rack with positions := ready.rack.positions.set 11 ⟨some (.record 2047), some 0, false⟩ }

theorem test_witness_RackTimersExpire : dwelling.up = true ∧
    dwelling.position 11 = ⟨some (.record 2047), some 0, false⟩ ∧
    dwelling.record? 2047 = some (record1 (.conditioning .returning) (.rack 11)) ∧
    (holding { record1 (.ready .outbound) .inHand with carry := some ⟨0, some 11⟩ }).record?
        (2047 : Fin 2048).val =
      some { record1 (.ready .outbound) .inHand with carry := some ⟨0, some 11⟩ } := by decide

/-- RACK and SHELF reports of the clauses, at the ends of the position and slot ranges. -/
theorem test_witness_RackAndShelfReports :
    let n := fun t : Target => { node1 t with accepted := some 1 }
    let s := polled (.shelf 0 4095) poll1 (holding (record1 .loose .inHand))
    (∃ r, ValidAnswer (polled .rack poll1 ready) poll1 31 (node1 .rack) (respond 5 5 0 0 [] []) r ∧
      WholeSnapshot (node1 .rack) r []) ∧
      (∃ r, readReport (respond 5 0 2 1 [] ([0, 0, 11] ++ fieldLabel label1)) = some r ∧
        NewBatch (n .rack) r [.inserted (11 : Fin 12).val label1]) ∧
      (∃ r, readReport (respond 5 0 2 1 [] [1, 0, 0]) = some r ∧
        NewBatch (n .rack) r [.removed (0 : Fin 12).val]) ∧
      (∃ r, ValidAnswer s poll1 31 (node1 (.shelf 0 4095)) (respond 4 0 2 1 []
        ([0, 0x0F, 0xFF] ++ fieldLabel label1)) r ∧
        NewBatch (n (.shelf 0 4095)) r [.inserted 4095 label1]) ∧
      (∃ r, readReport (respond 4 0 2 1 [] [1, 0, 0]) = some r ∧
        NewBatch (n (.shelf 0 4095)) r [.removed 0]) ∧
      (ready.position 11).occupant = none ∧ findLabel s label1 = some 2047 ∧
      s.record? 2047 = some (record1 .loose .inHand) ∧ findLabel ready label1 = none ∧
      dwellMinutes ready (ready.airAt roomPoint).reading (homeReading ready 4095) false ≠ 0 ∧
      findAt (holding (record1 .shelved (.slot 4095))) (.slot 4095) = some 2047 ∧
      (dwelling.position 11).occupant = some (.record 2047) ∧
      (dwelling.record? 2047).map (·.location) = some (.rack 11) :=
  ⟨⟨_, valid_answer rfl ⟨rfl, rfl⟩ rfl rfl rfl, ⟨rfl, _, [], rfl, rfl, .inl ⟨rfl, rfl⟩⟩⟩,
    ⟨_, rfl, rfl, .inl ⟨rfl, rfl, rfl, by decide⟩⟩, ⟨_, rfl, rfl, .inl ⟨rfl, rfl, rfl, by decide⟩⟩,
    ⟨_, valid_answer rfl ⟨rfl, rfl⟩ rfl rfl rfl, rfl, .inl ⟨rfl, rfl, rfl, by decide⟩⟩,
    ⟨_, rfl, rfl, .inl ⟨rfl, rfl, rfl, by decide⟩⟩, rfl, rfl, rfl, rfl, by decide, rfl, rfl, rfl⟩

/-- The twelve positions of a RACK snapshot, empty but for one label where given. -/
def positions (shown : Option (Nat × Label)) : List SnapEntry :=
  (List.range 12).map fun p => match shown with
    | some (q, l) => if p = q then ⟨p, true, l⟩ else ⟨p, false, 0⟩
    | none => ⟨p, false, 0⟩

def snapItems (es : List SnapEntry) : List Byte :=
  es.flatMap fun e => field16 e.place ++ [flagByte e.occupied] ++ fieldLabel e.label

/-- A report that reads as a whole snapshot of its kind is a valid answer with one. -/
theorem whole_snapshot {g : Target} {s : State} {report : List Byte} {es : List SnapEntry}
    (up : s.up = true)
    (h : ((readReport report).any fun r => r.physicalId == 126 && r.kind == g.kind.code &&
      readItems g.kind r == .segment es && r.number == 0 && r.last && entriesOf g es == es) = true) :
    ∃ r, ValidAnswer (polled g poll1 s) poll1 31 (node1 g) report r ∧ WholeSnapshot (node1 g) r es := by
  cases e : readReport report with
  | none => rw [e] at h; cases h
  | some r =>
    rw [e] at h
    simp only [Option.any_some, Bool.and_eq_true, beq_iff_eq] at h
    obtain ⟨⟨⟨⟨⟨id, kind⟩, items⟩, number⟩, last⟩, kept⟩ := h
    exact ⟨r, valid_answer up ⟨rfl, rfl⟩ e id kind, last, es, [], items, kept.symm, .inl ⟨number, rfl⟩⟩

/-- Snapshots of the clauses: twelve empty positions, a foreign label over a record, and a SHELF's slots. -/
theorem test_witness_Snapshots :
    let foreign : Label := 0x4142434445464748
    (∃ r, ValidAnswer (polled .rack poll1 dwelling) poll1 31 (node1 .rack)
        (respond 5 5 0 12 [] (snapItems (positions none))) r ∧
      WholeSnapshot (node1 .rack) r (positions none)) ∧
      (∃ r, ValidAnswer (polled .rack poll1 dwelling) poll1 31 (node1 .rack)
          (respond 5 5 0 12 [] (snapItems (positions (some (11, foreign))))) r ∧
        WholeSnapshot (node1 .rack) r (positions (some (11, foreign)))) ∧
      (∃ r, ValidAnswer (polled (.shelf 0 4095) poll1 shelved) poll1 31 (node1 (.shelf 0 4095))
          (respond 4 5 0 1 [] (snapItems [⟨4095, true, 7⟩])) r ∧
        WholeSnapshot (node1 (.shelf 0 4095)) r [⟨4095, true, 7⟩]) :=
  ⟨whole_snapshot rfl (by decide +kernel), whole_snapshot rfl (by decide +kernel),
    whole_snapshot rfl (by decide +kernel)⟩

/-- What those snapshots show, and the records they hide. -/
theorem test_witness_SnapshotClauses :
    let foreign : Label := 0x4142434445464748
    TablesOk dwelling ∧ shownAt (positions none) 11 = none ∧
      shownAt (positions (some (11, foreign))) (11 : Fin 12).val = some foreign ∧
      (∀ e ∈ positions (some (11, foreign)), e.occupied = true → e.place = 11 ∧ e.label ≠ label1) ∧
      findLabel dwelling foreign = none ∧ shelved.record? 2047 = some (record1 .shelved (.slot 4095)) ∧
      (7 : Label) ≠ label1 ∧ TablesOk shelved :=
  ⟨⟨trivial, ⟨by decide, trivial⟩, trivial, trivial, trivial, trivial, trivial, trivial⟩, by decide, by decide,
    by decide, by decide, by decide, by decide,
    ⟨trivial, ⟨by decide, trivial⟩, trivial, trivial, trivial, trivial, trivial, trivial⟩⟩

/-- A RACK node whose assembly holds twelve empty positions and expects segment 17. -/
def assembling : Node :=
  { node1 .rack with accepted := some 0, assembly := some ⟨positions none, 17⟩ }

def segmented (n : Node) : State := (polled .rack poll1 dwelling).withNodes [(31, n)]

/-- The last segment of an open assembly, and what completes nothing: a repeat, and a batch that is not fresh. -/
theorem test_witness_Segments :
    (∃ r, ValidAnswer (segmented assembling) poll1 31 assembling
        (respond 5 5 17 1 [] (snapItems [⟨11, true, label1⟩])) r ∧
      WholeSnapshot assembling r (positions none ++ [⟨11, true, label1⟩])) ∧
      (∃ r, ValidAnswer (segmented assembling) poll1 31 assembling (respond 5 1 16 0 [] []) r ∧
        r.number + 1 = 17 ∧ r.number ≠ 0 ∧ readItems .rack r = .segment [] ∧ NothingHanded assembling r) ∧
      (∃ r, ValidAnswer (segmented assembling) poll1 31 assembling (respond 5 0 1 0 [] []) r ∧
        r.fresh = false ∧ assembling.assembly.isSome = true) := by
  refine ⟨⟨_, ⟨rfl, ⟨_, rfl⟩, rfl, rfl, rfl, rfl, rfl⟩, rfl, _, _, rfl, by decide, .inr ⟨by decide, _, rfl, rfl, rfl⟩⟩,
    ⟨_, ⟨rfl, ⟨_, rfl⟩, rfl, rfl, rfl, rfl, rfl⟩, rfl, by decide, rfl, rfl, ?_, ?_⟩,
    ⟨_, ⟨rfl, ⟨_, rfl⟩, rfl, rfl, rfl, rfl, rfl⟩, rfl, rfl⟩⟩
  · rintro es ⟨h, _⟩; cases h
  · rintro es ⟨h, _⟩; cases h

/-- What each segment leaves of the assembly and the accepted sequence (R35, R36). -/
def segmentLeaves (n : Node) (flags number : Byte) (es : List SnapEntry) : Option (Option Nat × Option Assembly) :=
  ((after (.fieldReportReceived (respond 5 flags number (byteOf es.length) [] (snapItems es)))
    (segmented n)).node? 31).map fun y => (y.accepted, y.assembly)

/-- R35, R36: opened, extended, repeated, out of step, completed, and a batch that is not fresh. -/
theorem test_segments :
    let e : SnapEntry := ⟨11, true, label1⟩
    let far : SnapEntry := ⟨12, true, label1⟩
    let open1 := { assembling with assembly := some ⟨[e], 17⟩ }
    segmentLeaves (node1 .rack) 1 0 [e, far] = some (some 0, some ⟨[e], 1⟩) ∧
      segmentLeaves (node1 .rack) 1 1 [e] = some (none, none) ∧
      segmentLeaves open1 1 17 [far, e] = some (some 1, some ⟨[e, e], 18⟩) ∧
      segmentLeaves open1 1 16 [e] = some (some 0, some ⟨[e], 17⟩) ∧
      segmentLeaves open1 1 18 [e] = some (none, none) ∧
      segmentLeaves open1 1 0 [e] = some (some 0, some ⟨[e], 1⟩) ∧
      segmentLeaves open1 0 1 [] = some (none, none) := by decide +kernel

/-- R62, R107: a rack snapshot with an unknown label over a CONDITIONING record: the record is MISSING at
UNKNOWN, the label holds the position, and its last event is the record's departure (logs 20, 21). -/
theorem test_rack_snapshot_missing :
    let s := verified (polled .rack poll1 dwelling)
    let t := after (.fieldReportReceived
      (respond 5 5 0 12 [] (snapItems (positions (some (11, 0x4142434445464748)))))) s
    (t.record? 2047).map (fun r => (r.state, r.location)) = some (.blocked .missing, .unknown) ∧
      t.position 11 = ⟨some (.foreign 0x4142434445464748), none, false⟩ ∧
      t.notices.pending.get? 50 =
        some (.rackPosition 11 .interrupted true false (some 2047) none none) := by decide +kernel

/-- An image whose two copies fail their checks. -/
def lost (α : Type) (v : α) : Image α := ⟨⟨0, false, v⟩, ⟨0, false, v⟩⟩

/-- The store whose next write is verified or not, as the record and courier requests' clauses take it. -/
theorem test_witness_NextWrite :
    (ready.withStore { ready.store with script := [false] }).store.nextFails = false ∧
      (faulted.withStore { ready.store with script := [true] }).store.nextFails = true ∧
      ((lost Nat 5).written false 7).loaded = some 7 ∧ ((lost Nat 5).written true 7).loaded = none := by
  decide

theorem test_witness_EnrolCartridgeMakesRecord :
    firstFailure (enrolChecks windowed label1 4095) = none ∧ zoneOfSlot windowed 4095 = some 7 ∧
    firstFailure (enrolChecks windowed label1 4096) = some .badOperand ∧
    firstFailure (enrolChecks faulted label1 0) = some .storeFault := by decide

theorem test_witness_RetireCartridgeFreesPlace :
    let s := holding (record1 .shelved (.slot 4095))
    labelOk label1 = true ∧ labelOk 0 = false ∧ findLabel ready label1 = none ∧
      findLabel s label1 = some 2047 ∧ s.record? 2047 = some (record1 .shelved (.slot 4095)) ∧
      s.orders = [] ∧ (record1 (.blocked .fire) .hatch).state.isBlocked = true ∧
      (record1 .loose .inHand).state.isBlocked = false := by decide

theorem test_witness_GetCartridgeReadsRecord :
    labelOk label1 = true ∧ labelOk 0 = false ∧ findLabel ready label1 = none ∧
    findLabel (holding (record1 .loose .inHand)) label1 = some 2047 ∧
    (holding (record1 .loose .inHand)).record? 2047 = some (record1 .loose .inHand) := by decide

theorem test_witness_ListCartridgesWalksTable : 2047 < (2048 : Half).toNat ∧ (2047 : Half).toNat ≤ 2047 ∧
    10 < (11 : Byte).toNat ∧ (254 : Byte).toNat < 255 ∧ (10 : Byte).toNat ≤ 10 ∧ (255 : Byte).toNat = 255 := by
  decide

theorem test_witness_UnblockCartridgeReleases :
    let s := holding (record1 (.blocked .fire) (.slot 4095))
    lockout s = false ∧ s.device.storeFault = false ∧ findLabel s label1 = some 2047 ∧
      s.record? 2047 = some (record1 (.blocked .fire) (.slot 4095)) ∧ faulted.device.storeFault = true ∧
      lockout (burning (fire1 .confirmed)) = true ∧ (record1 .loose .inHand).state.isBlocked = false := by
  decide

/-- A SHELVED record at its home slot and an ACTIVE courier. -/
def stocked : State :=
  (holding (record1 .shelved (.slot 4095))).withHandover (rostered .active).handover

theorem test_witness_CheckoutReserves :
    firstFailure (checkoutChecks stocked 255 65000 1440 1) = none ∧
    listFailure stocked [label1] = none ∧ recordOf stocked label1 = some (record1 .shelved (.slot 4095)) ∧
    findLabel stocked label1 = some 2047 ∧
    firstFailure (checkoutChecks stocked 255 65000 1440 25) = some .badOperand ∧
    listFailure stocked [label1, label1] = some (.duplicate, 1) ∧ ([label1] : List Label).length ≤ 30 := by
  decide

theorem test_witness_CancelAndDeadlineFinishOrder :
    findOrder ready 255 = none ∧ findOrder (ordered .opened) (255 : Byte).toNat = some 15 ∧
    (ordered .opened).order? 15 = some (order1 .opened) ∧ (order1 .opened).state.isWaiting = true ∧
    (order1 (.inHandover 1)).state.isWaiting = false ∧ (order1 .ready).deadline.isSome = true ∧
    (ordered .ready).order? (15 : Fin 16).val = some (order1 .ready) := by decide

/-- An unhanded entry whose record is RESERVED at its home slot, and one that no entry names. -/
theorem test_witness_UnhandedReleased :
    let o := { order1 .opened with entries := [⟨2047, false⟩, ⟨0, true⟩] }
    2047 ∈ o.unhanded ∧ 0 ∉ o.unhanded ∧
      (holding { record1 .reserved (.slot 4095) with orderSlot := some 15 }).record? 2047 =
        some { record1 .reserved (.slot 4095) with orderSlot := some 15 } := by decide

theorem test_witness_GetOrderReadsOrder : findOrder ready 1 = none ∧
    findOrder (ordered .ready) (255 : Byte).toNat = some 15 ∧
    (ordered .ready).order? 15 = some (order1 .ready) := by decide

theorem test_witness_EnrolCourierTakesEntry : 999999 < (1000000 : BitVec 24).toNat ∧
    (999999 : BitVec 24).toNat ≤ 999999 ∧ 1 ≤ (65000 : Half).toNat ∧ (65000 : Half).toNat ≤ 65000 ∧
    ready.device.storeFault = false ∧ faulted.device.storeFault = true ∧
    (findCourier ready 65000).getD ready.handover.roster.lowestFree = 0 ∧
    (findCourier (rostered .active) 65000).getD 0 = 63 ∧
    Table.lowestFree ((List.range 64).map fun i => (i, (⟨i + 1, 0, .active, 0⟩ : Courier))) = 64 := by
  decide

theorem test_witness_CourierRequestsByEntry : 65000 < (65001 : Half).toNat ∧
    findCourier ready 1 = none ∧ findCourier (rostered .revoked) (65000 : Half).toNat = some 63 ∧
    (rostered .revoked).courierAt? 63 = some ⟨65000, 999999, .revoked, 0⟩ ∧
    courierHasOrder (rostered .revoked) 65000 = false ∧ courierContext (rostered .revoked) 65000 = none ∧
    courierHasOrder (ordered .opened) 65000 = true ∧
    (courierContext (handing (context1 .outbound .waitHatch)) 65000).isSome = true := by decide

/-- A courier's entry at place 63, with service available and something to return. -/
def serving (st : CourierState) (failed code : Nat) : State :=
  let s := (holding { record1 .out (.courier 65000) with custodian := some 65000 }).withNodes
    [(0, { node1 .hatch with binding := ⟨1, .hatch⟩ }),
      (31, { node1 .terminal with accepted := some 1 })]
  (s.withHandover { roster := [(63, ⟨65000, code, st, failed⟩)], contexts := [] }).withLink
    { ready.link with activity := .awaiting poll1 20 }

/-- TOKEN events of the clauses: locked, a wrong code that counts and one that locks, and the right code with
a slot free. -/
theorem test_witness_TokenClauses :
    let report := respond 7 0 2 1 [] ([4] ++ field16 65000 ++ field24 999999 ++ [2])
    (∃ r, ValidAnswer (serving .active 0 999999) poll1 31 { node1 .terminal with accepted := some 1 }
        report r ∧ NewBatch { node1 .terminal with accepted := some 1 } r [.token 65000 999999 2]) ∧
      (serving .active 0 999999).device.condition = .running ∧ someFire (serving .active 0 999999) = false ∧
      (findNode (serving .active 0 999999).nodes .hatch).isSome = true ∧
      tokenDirection 2 = some .returning ∧
      findCourier (serving .locked 3 999999) 65000 = some 63 ∧
      (serving .locked 3 999999).courierAt? 63 = some ⟨65000, 999999, .locked, 3⟩ ∧
      (serving .revoked 1 0).courierAt? 63 = some ⟨65000, 0, .revoked, 1⟩ ∧ (999999 : Nat) ≠ 0 ∧
      courierContext (serving .active 0 999999) 65000 = none ∧
      (serving .active 0 999999).context? 0 = none ∧ outWith (serving .active 0 999999) 65000 ≠ 0 ∧
      courierHasReady ready 65000 = false :=
  ⟨⟨_, ⟨rfl, ⟨_, rfl⟩, rfl, rfl, rfl, rfl, rfl⟩, rfl, .inl ⟨rfl, rfl, rfl, by decide⟩⟩, rfl, rfl, rfl,
    rfl, rfl, rfl, rfl, by decide, rfl, rfl, by decide, rfl⟩

/-- Counts of 2 and 3 outside LOCKED, and a REVOKED courier's right code in either direction. -/
theorem test_witness_TokenCounts :
    (serving .active 2 0).courierAt? 63 = some ⟨65000, 0, .active, 2⟩ ∧
      (serving .revoked 3 0).courierAt? 63 = some ⟨65000, 0, .revoked, 3⟩ ∧
      (serving .revoked 3 999999).courierAt? 63 = some ⟨65000, 999999, .revoked, 3⟩ ∧
      tokenDirection 1 = some .outbound ∧ courierContext (serving .revoked 3 999999) 65000 = none ∧
      (serving .revoked 3 999999).context? 0 = none ∧ outWith (serving .revoked 3 999999) 65000 ≠ 0 := by
  decide

/-- A context at the terminal, by the way it came there, with a TERMINAL that was answered before. -/
def terminal (x : Context) (h : Hatch) : State :=
  (((polled .terminal poll1 (handing x)).withHatch h).withNodes
    [(31, { node1 .terminal with accepted := some 1 })])

/-- CONFIRM and CANCEL: the owner, the yielded context, the head of the waiting list; and the conditions of the
clauses. -/
theorem test_witness_TerminalEvents :
    let x := context1 .outbound .collecting
    let own := { doored .closed with owner := .context 1 }
    let n := { node1 .terminal with accepted := some 1 }
    (∃ r, ValidAnswer (terminal x own) poll1 31 n (respond 7 0 2 1 [] [5]) r ∧ NewBatch n r [.confirm]) ∧
      (∃ r, ValidAnswer (terminal x own) poll1 31 n (respond 7 0 2 1 [] [6]) r ∧ NewBatch n r [.cancel]) ∧
      AtTerminal (terminal x own) (1 : Fin 2).val x ∧
      AtTerminal (terminal x { doored .closed with owner := .purge, yielded := some 1 }) (1 : Fin 2).val x ∧
      AtTerminal (terminal x { doored .closed with waiting := [1, 0] }) (1 : Fin 2).val x ∧
      AtTerminal ((terminal x { doored .closed with waiting := [0] }).withHandover
        { roster := [], contexts := [(0, x)] }) (0 : Fin 2).val x ∧
      roomDoor (terminal x own) = .closed ∧ x.rejected = [] ∧
      roomDoor (terminal x (doored .opened)) = .opened ∧
      ({ x with rejected := [label1] }).rejected ≠ [] ∧
      (context1 .returning .loadingIn).manifest = [] ∧
      (taking .returning .loadingIn []).manifest ≠ [] ∧
      ((after (.fieldReportReceived (respond 7 0 2 1 [] [5])) (terminal x own)).context? 1).map
        (·.phase) = some .awaitRelease ∧
      ((after (.fieldReportReceived (respond 7 0 2 1 [] [6]))
        (terminal (context1 .outbound .waitHatch) { doored .closed with waiting := [1] })).context? 1).map
          (·.finish) = some (some (.waitHatch, .cancelled)) :=
  ⟨⟨_, ⟨rfl, ⟨_, rfl⟩, rfl, rfl, rfl, rfl, rfl⟩, rfl, .inl ⟨rfl, rfl, rfl, by decide⟩⟩,
    ⟨_, ⟨rfl, ⟨_, rfl⟩, rfl, rfl, rfl, rfl, rfl⟩, rfl, .inl ⟨rfl, rfl, rfl, by decide⟩⟩,
    ⟨rfl, .inl rfl⟩, ⟨rfl, .inr ⟨nofun, .inl rfl⟩⟩, ⟨rfl, .inr ⟨nofun, .inr ⟨rfl, rfl⟩⟩⟩,
    ⟨rfl, .inr ⟨nofun, .inr ⟨rfl, rfl⟩⟩⟩, rfl, rfl, rfl, by decide, rfl, by decide, by decide, by decide⟩

theorem test_witness_GetHandoverReadsSlot : 2 ≤ (2 : Byte).toNat ∧ ready.context? (1 : Byte).toNat = none ∧
    (handing (context1 .outbound .waitHatch)).context? (1 : Byte).toNat =
      some (context1 .outbound .waitHatch) := by decide

theorem test_witness_HostDecidesHandover :
    let s := handing (context1 .returning .awaitRelease)
    lockout s = false ∧ s.device.storeFault = false ∧ faulted.device.storeFault = true ∧
      liveContext? s (1 : Byte).toNat = some (context1 .returning .awaitRelease) ∧
      liveContext? s (0 : Byte).toNat = none ∧ 2 ≤ (2 : Byte).toNat ∧
      lockout (burning (fire1 .confirmed)) = true ∧
      (∀ ph ∈ [Phase.waitHatch, .loading, .collecting, .loadingIn, .awaitRelease, .recall, .recallReturn,
        .waitDry, .unloading], liveContext? (handing (context1 .outbound ph)) (1 : Byte).toNat =
          some (context1 .outbound ph)) := by decide

/-- The manifest clauses of ACCEPT, ABORT and of the recall limit: what is taken, what is held. -/
theorem test_witness_ManifestClauses :
    let staged := holding (record1 .staged (.courier 65000))
    (taking .outbound .awaitRelease []).isTaken 2047 = true ∧
      (taking .outbound .recall [⟨5, false⟩]).isTaken 5 = false ∧
      (taking .returning .recallReturn [⟨5, false⟩]).holds 5 = true ∧
      (taking .outbound .recall []).pendingOutcome = some .disputed ∧
      RecordIs staged 2047 .staged (.courier 65000) ∧
      RecordIs (holding (record1 .inbound .hatch)) 2047 .inbound .hatch ∧
      roomDoor (hatched (doored .closed)) = .closed ∧ roomDoor (hatched (doored .opened)) = .opened ∧
      (hatched { Hatch.restarted with contents := [label1] }).hatch.contents ≠ [] :=
  ⟨rfl, rfl, rfl, rfl, ⟨_, rfl, rfl, rfl⟩, ⟨_, rfl, rfl, rfl⟩, rfl, rfl, by decide⟩

/-- An outbound release accepted: the taken record is OUT at COURIER and the context ends (R158). -/
theorem test_accept_outbound :
    let s := (holding (record1 .staged (.courier 65000))).withHandover
      { roster := [], contexts := [(1, taking .outbound .awaitRelease [])] }
    let t := after (.acceptHandover 1 1) (verified s)
    (t.record? 2047).map (fun r => (r.state, r.location, r.custodian)) =
        some (.out, .courier 65000, some 65000) ∧
      (t.context? 1).map (fun x => (x.phase, x.finish, x.accepted)) =
        some (.ended, some (.awaitRelease, .accepted), 1) := by decide

/-- After the recall limit RECALL is left on the door CLOSED alone (R160; log 40). -/
theorem test_recall_limit :
    let s := (holding (record1 .staged (.courier 65000))).withHandover
      { roster := [], contexts := [(1, taking .outbound .recall [])] }
    let t := after (.recallLimitExpiry 1) (verified (s.withHatch (doored .closed)))
    (t.record? 2047).map (fun r => (r.state, r.location)) =
        some (.blocked .handoverUnresolved, .courier 65000) ∧
      (t.context? 1).map (fun x => (x.phase, x.manifest)) = some (.waitDry, []) := by decide

theorem test_witness_PhaseLimitsExpire :
    let s := fun ph => handing (context1 .outbound ph)
    (s .waitHatch).up = true ∧
      liveContext? (s .waitHatch) (1 : Fin 2).val = some (context1 .outbound .waitHatch) ∧
      liveContext? (s .loading) 1 = some (context1 .outbound .loading) ∧
      liveContext? (s .loadingIn) 1 = some (context1 .outbound .loadingIn) ∧
      liveContext? (s .collecting) 1 = some (context1 .outbound .collecting) ∧
      liveContext? (s .awaitRelease) 1 = some (context1 .outbound .awaitRelease) ∧
      liveContext? (s .recall) 1 = some (context1 .outbound .recall) ∧
      liveContext? (s .recallReturn) 1 = some (context1 .outbound .recallReturn) ∧
      (context1 .outbound .recall).timer.isSome = true := by decide

/-- RECALL_RETURN at its expiry with an empty hatch and a CLOSED door: it ends there (log 30). -/
theorem test_recall_return_ends :
    let x := { taking .returning .recallReturn [] with manifest := [] }
    let s := (handing x).withHatch (doored .closed)
    x.pendingOutcome = some .disputed ∧ s.hatch.contents = [] ∧ roomDoor s = .closed ∧
      ((after (.recallLimitExpiry 1) s).context? 1).map (·.finish) =
        some (some (.recallReturn, .disputed)) := by decide

/-- A retained record, as its image holds it. -/
def data1 (st : CState) (loc : Location) (label : Label) (home : Nat) : RecordData :=
  ⟨label, home, st, loc, none, false⟩

def kept {α : Type} (v : α) : Image α := ⟨⟨1, true, v⟩, ⟨0, false, v⟩⟩

/-- A part without power whose store holds record and settings images. -/
def stored (records : Table (Image (Option RecordData))) (d : Option SettingsData) : State :=
  off.withStore { off.store with records := records, settings := kept d, script := List.replicate 4 false }

/-- Settings whose zone 7 covers slots up to a limit. -/
def covering (limit : Nat) : SettingsData :=
  { SettingsData.defaults with
    zones := SettingsData.defaults.zones.set 7 { ZoneSettings.defaults with window := some ⟨0, limit⟩ } }

/-- Retained states of the clauses: lost images, settings that cover, are missing and leave slots uncovered,
records apart, alone and together at a rack position. -/
theorem test_witness_RestartGivesValues :
    let two := stored [(0, kept (some (data1 .reserved (.slot 0) 7 0))),
      (2047, kept (some (data1 .staged .hatch 8 4095)))] (some (covering 4095))
    off.device.powered = false ∧ off.device.rst = false ∧
      (replying ⟨.kept, 1, 3, .accepted, []⟩ []).up = true ∧
      (⟨.kept, 1, 3, .accepted, []⟩ : Reply).isRestart = true ∧ (kept 5).loaded = some 5 ∧
      (stored [(2047, lost _ none)] none).store.records.get? 2047 = some (lost _ none) ∧
      (lost (Option Courier) none).first.sound = false ∧
      two.store.settings.loaded = some (some (covering 4095)) ∧ (covering 4095).usable = true ∧
      (zoneOfSlotIn (covering 4095).zones 4095).isSome = true ∧
      zoneOfSlotIn (covering 4094).zones 4095 = none ∧
      (two.store.records.get? 2047).bind Image.loaded = some (some (data1 .staged .hatch 8 4095)) ∧
      (two.store.records.get? 0).bind Image.loaded = some (some (data1 .reserved (.slot 0) 7 0)) ∧
      (7 : Label) ≠ 8 ∧ (0 : Nat) ≠ 4095 ∧ (0 : Nat) < 2047 := by decide

theorem test_witness_RestartTables (records : Table (Image (Option RecordData))) (h : records.rising)
    (d : Option SettingsData) : TablesOk (stored records d) :=
  ⟨trivial, trivial, trivial, trivial, trivial, trivial, h, trivial⟩

/-- A restart: a RESERVED record is SHELVED, a STAGED one BLOCKED, and the second record of a rack position is
MISSING (R179, R180). -/
theorem test_restart_resolves :
    let t := restart .powerOn (stored [(0, kept (some (data1 .reserved (.slot 0) 7 0))),
      (1, kept (some (data1 .loose (.rack 11) 8 1))), (2, kept (some (data1 .loose (.rack 11) 9 2)))]
      (some (covering 4095)))
    (t.record? 0).map (·.state) = some .shelved ∧ (t.record? 1).map (·.location) = some (.rack 11) ∧
      (t.record? 2).map (fun r => (r.state, r.location)) = some (.blocked .missing, .unknown) ∧
      t.position 11 = ⟨some (.record 1), none, false⟩ := by decide

theorem test_witness_LinesRestartAndHold : off.device.powered = false ∧ off.device.rst = false ∧
    ready.device.powered = true ∧
    (ready.withDevice { ready.device with rst := true }).device.rst = true ∧
    (off.withDevice { off.device with rst := true }).device.rst = true ∧
    (off.withDevice { off.device with rst := true }).device.powered = false := by decide

end Sys2Proof.Tests
end

section
/-! The zone table and the node table as the host reads them: GET_ZONE (R18) and GET_NODE (R30). A request
with a tag, whose operand length is right, is answered by its owning block; the taking of the request touches
neither table. -/

namespace Sys2Proof.Machine

variable {s t : State} {tag code : Byte} {ops data : List Byte} {st : Status}

/-! ## A request that passes the checks of the Host Link Controller -/

/-- R4, R5: with its three checks passed, a request is in its owning block's hands. -/
theorem execute_of_checks (ht : tag ≠ 0) (ho : operandsOk code.toNat ops = some true) :
    execute ⟨tag, code, ops⟩ s = carryOut tag code ops s := by
  simp only [execute, if_neg ht, ho]

/-- What the owning block replies is what the host is answered. -/
theorem answers_of_carryOut (h : HostReady s) (ht : tag ≠ 0)
    (hl : bodyLengthOk (ops.length + 2) = true) (ho : operandsOk code.toNat ops = some true)
    (e : carryOut tag code ops (taken s) = .reply st data t) :
    request tag code ops s = .next (settle (withReply tag code st data t)) :=
  answers_of_execute h hl ((execute_of_checks ht ho).trans e)

/-! ## The tables stand while a request is taken -/

@[simp] theorem taken_zone (s : State) (z : Fin 8) : (taken s).zone z = s.zone z := rfl

@[simp] theorem taken_node? (s : State) (i : Nat) : (taken s).node? i = s.node? i := rfl

/-! ## GET_ZONE -/

/-- A zone operand outside 0 to 7 names no store zone. -/
theorem zoneOperand_eq_none {zone : Byte} (h : 8 ≤ zone.toNat) : zoneOperand zone = none :=
  dif_neg (Nat.not_lt.mpr h)

/-- A zone operand 0 to 7 names the store zone of its number. -/
theorem zoneOperand_eq_some {zone : Byte} {z : Fin 8} (h : zone.toNat = z.val) :
    zoneOperand zone = some z := by
  have hlt : zone.toNat < 8 := h ▸ z.isLt
  have hz : (⟨zone.toNat, hlt⟩ : Fin 8) = z := Fin.ext h
  exact (dif_pos hlt).trans (congrArg some hz)

/-- A byte operand that carries a number is the byte that a reply carries for it. -/
theorem byteOf_eq_of_toNat {b : Byte} {n : Nat} (h : b.toNat = n) : byteOf n = b := by
  rw [← h, byteOf, BitVec.ofNat_toNat, BitVec.setWidth_eq]

/-- The reply data of GET_ZONE depends on the zone's own entry alone. -/
theorem zoneData_congr {z : Fin 8} (h : s.zone z = t.zone z) : zoneData s z = zoneData t z := by
  simp only [zoneData, h]

theorem getZoneRequest_outside {zone : Byte} (h : 8 ≤ zone.toNat) (s : State) :
    getZoneRequest zone s = refuse .badOperand s := by
  simp only [getZoneRequest, zoneOperand_eq_none h]

theorem getZoneRequest_inside {zone : Byte} {z : Fin 8} (h : zone.toNat = z.val) (s : State) :
    getZoneRequest zone s = okWith (zoneData s z) s := by
  simp only [getZoneRequest, zoneOperand_eq_some h]

/-- The reply to GET_ZONE is its owning block's. -/
theorem answers_getZone {zone : Byte} (h : HostReady s) (ht : tag ≠ 0)
    (e : getZoneRequest zone (taken s) = .reply st data t) :
    Answers (.getZone tag zone) tag 0x12 st data s t :=
  answers_of_carryOut h ht rfl rfl e

/-! ## GET_NODE -/

theorem indexOk_iff (index : Byte) : indexOk index = true ↔ index.toNat < 32 :=
  decide_eq_true_iff

theorem getNodeRequest_outside {index : Byte} (h : 32 ≤ index.toNat) (s : State) :
    getNodeRequest index s = refuse .badOperand s :=
  if_neg fun hi => absurd ((indexOk_iff index).mp hi) (Nat.not_lt.mpr h)

theorem getNodeRequest_inside {index : Byte} (h : index.toNat < 32) (s : State) :
    getNodeRequest index s = okWith (nodeData index (s.node? index.toNat)) s :=
  if_pos ((indexOk_iff index).mpr h)

/-- The reply to GET_NODE is its owning block's. -/
theorem answers_getNode {index : Byte} (h : HostReady s) (ht : tag ≠ 0)
    (e : getNodeRequest index (taken s) = .reply st data t) :
    Answers (.getNode tag index) tag 0x20 st data s t :=
  answers_of_carryOut h ht rfl rfl e

/-- An index of the table is answered OK with the entry that stands there, and nothing else changes. -/
theorem answers_getNode_inside {index : Byte} (h : HostReady s) (ht : tag ≠ 0)
    (hi : index.toNat < 32) :
    Answers (.getNode tag index) tag 0x20 .ok (nodeData index (s.node? index.toNat)) s (taken s) := by
  rw [← taken_node? s index.toNat]
  exact answers_getNode h ht (getNodeRequest_inside hi (taken s))

end Sys2Proof.Machine

namespace Sys2Proof

open Machine

/-- Settles O24, by the two branches of the zone operand. -/
theorem getZoneReadsEntry : Obligations.GetZoneReadsEntry := by
  intro s tag zone hready htag
  constructor
  case left =>
    intro houtside
    exact answers_getZone hready htag (getZoneRequest_outside houtside (taken s))
  case right =>
    intro z hz
    have hanswer : Answers (.getZone tag zone) tag 0x12 .ok (zoneData (taken s) z) s (taken s) :=
      answers_getZone hready htag (getZoneRequest_inside hz (taken s))
    rw [zoneData_congr (taken_zone s z), zoneData, byteOf_eq_of_toNat hz] at hanswer
    exact hanswer

/-- Settles O28, by the bound of the index and by the entry: absent or bound. -/
theorem getNodeReadsEntry : Obligations.GetNodeReadsEntry := by
  intro s tag index hready htag
  refine ⟨fun houtside => ?outside, fun hi hnone => ?unbound, fun n hi hsome => ?bound⟩
  case outside => exact answers_getNode hready htag (getNodeRequest_outside houtside (taken s))
  case unbound =>
    have hanswer := answers_getNode_inside hready htag hi
    rw [hnone] at hanswer
    exact hanswer
  case bound =>
    have hanswer := answers_getNode_inside hready htag hi
    rw [hsome] at hanswer
    exact hanswer

end Sys2Proof
end

section
/-! The record table as the host reads it: GET_CARTRIDGE (R66) and LIST_CARTRIDGES (R67). Each request's
operands read as the fields that were sent; the taking of the request leaves the record table as it is. -/

namespace Sys2Proof.Machine

variable {s t : State} {tag : Byte} {data : List Byte} {st : Status}

/-! ## The record table stands while a request is taken -/

@[simp] theorem taken_record? (s : State) (i : Nat) : (taken s).record? i = s.record? i := rfl

@[simp] theorem findLabel_taken (s : State) (l : Label) : findLabel (taken s) l = findLabel s l := rfl

@[simp] theorem listedFrom_taken (s : State) (start filter : Nat) :
    listedFrom (taken s) start filter = listedFrom s start filter := rfl

/-! ## GET_CARTRIDGE -/

theorem getCartridgeRequest_malformed {label : Label} (h : labelOk label = false) (s : State) :
    getCartridgeRequest label s = refuse .badOperand s := by
  simp only [getCartridgeRequest, h, Bool.false_eq_true, if_false]

theorem getCartridgeRequest_unheld {label : Label} (h : labelOk label = true)
    (hf : findLabel s label = none) : getCartridgeRequest label s = refuse .notFound s := by
  simp only [getCartridgeRequest, h, if_true, hf]

theorem getCartridgeRequest_held {label : Label} {i : Nat} {r : Record} (h : labelOk label = true)
    (hf : findLabel s label = some i) (hr : s.record? i = some r) :
    getCartridgeRequest label s = okWith (cartridgeData i r) s := by
  simp only [getCartridgeRequest, h, if_true, hf, hr]

/-- The block that owns GET_CARTRIDGE reads its operand as the label that was sent. -/
theorem carryOut_getCartridge (tag : Byte) (label : Label) (s : State) :
    carryOut tag 0x52 (fieldLabel label) s = getCartridgeRequest label s :=
  congrArg (getCartridgeRequest · s) (readLabel_fieldLabel label)

/-- The reply to GET_CARTRIDGE is its owning block's. -/
theorem answers_getCartridge {label : Label} (h : HostReady s) (ht : tag ≠ 0)
    (e : getCartridgeRequest label (taken s) = .reply st data t) :
    Answers (.getCartridge tag label) tag 0x52 st data s t :=
  answers_of_carryOut h ht rfl rfl ((carryOut_getCartridge tag label (taken s)).trans e)

/-! ## LIST_CARTRIDGES -/

/-- No place of a table that rises from lo is below lo. -/
theorem Table.le_of_mem_places {α : Type} {u : Table α} {lo k : Nat} (h : u.risingFrom lo)
    (hk : k ∈ u.places) : lo ≤ k := by
  induction u generalizing lo with
  | nil => cases hk
  | cons p u ih =>
    obtain ⟨j, v⟩ := p
    obtain ⟨hj, hu⟩ := h
    rcases List.mem_cons.mp hk with rfl | hrest
    · exact hj
    · exact Nat.le_trans hj (Nat.le_of_succ_le (ih hu hrest))

/-- The places of a table in canonical form rise strictly. -/
theorem Table.places_pairwise_lt {α : Type} {u : Table α} {lo : Nat} (h : u.risingFrom lo) :
    u.places.Pairwise (· < ·) := by
  induction u generalizing lo with
  | nil => exact .nil
  | cons p u ih =>
    obtain ⟨j, v⟩ := p
    obtain ⟨_, hu⟩ := h
    exact .cons (fun _ hk => Table.le_of_mem_places hu hk) (ih hu)

/-- R67: what is listed from a table in canonical form stands in ascending order. -/
theorem listedFrom_ascending (h : s.custody.records.rising) (start filter : Nat) :
    ((listedFrom s start filter).map (·.1)).Pairwise (· < ·) := by
  rw [listedFrom, List.map_take]
  exact (Table.places_pairwise_lt (Table.filter_rising h)).take

/-- The reply data of LIST_CARTRIDGES (R67). -/
def listData (listed : List (Nat × Record)) : List Byte :=
  field16 (nextIndex listed) ++ [byteOf listed.length] ++
    listed.flatMap fun p => field16 p.1 ++ fieldLabel p.2.label ++ [byteOf p.2.state.code]

theorem listCartridgesRequest_outside {start : Half} {filter : Byte}
    (h : 2047 < start.toNat ∨ (10 < filter.toNat ∧ filter.toNat < 255)) (s : State) :
    listCartridgesRequest start filter s = refuse .badOperand s := by
  refine if_neg ?_
  have hall : (0xFF : Byte).toNat = 255 := rfl
  rintro ⟨hstart, hstate | rfl⟩ <;> omega

theorem listCartridgesRequest_inside {start : Half} {filter : Byte} (hs : start.toNat ≤ 2047)
    (hf : filter.toNat ≤ 10 ∨ filter.toNat = 255) (s : State) :
    listCartridgesRequest start filter s = okWith (listData (listedFrom s start.toNat filter.toNat)) s :=
  if_pos ⟨hs, hf.imp_right (BitVec.eq_of_toNat_eq (y := (0xFF : Byte)))⟩

/-- The block that owns LIST_CARTRIDGES reads its operands as the start index and the filter that were
sent. -/
theorem carryOut_listCartridges (tag : Byte) (start : Half) (filter : Byte) (s : State) :
    carryOut tag 0x53 (fieldHalf start ++ [filter]) s = listCartridgesRequest start filter s :=
  congrArg (listCartridgesRequest · filter s) (half_bytes start)

/-- The reply to LIST_CARTRIDGES is its owning block's. -/
theorem answers_listCartridges {start : Half} {filter : Byte} (h : HostReady s) (ht : tag ≠ 0)
    (e : listCartridgesRequest start filter (taken s) = .reply st data t) :
    Answers (.listCartridges tag start filter) tag 0x53 st data s t :=
  answers_of_carryOut h ht rfl rfl ((carryOut_listCartridges tag start filter (taken s)).trans e)

end Sys2Proof.Machine

namespace Sys2Proof

open Machine

/-- Settles O48, by the label: malformed, held by no record, or held. -/
theorem getCartridgeReadsRecord : Obligations.GetCartridgeReadsRecord := by
  intro s tag label hready htag
  refine ⟨fun hbad => ?malformed, fun hok hnone => ?unheld, fun i r hok hfound hrecord => ?held⟩
  case malformed =>
    exact answers_getCartridge hready htag (getCartridgeRequest_malformed hbad (taken s))
  case unheld =>
    rw [← findLabel_taken] at hnone
    exact answers_getCartridge hready htag (getCartridgeRequest_unheld hok hnone)
  case held =>
    rw [← findLabel_taken] at hfound
    rw [← taken_record?] at hrecord
    exact answers_getCartridge hready htag (getCartridgeRequest_held hok hfound hrecord)

/-- Settles O49, by the range of the operands; the listed places rise because the table's do. -/
theorem listCartridgesWalksTable : Obligations.ListCartridgesWalksTable := by
  intro s tag start filter hready htag
  refine ⟨fun houtside => ?outside, fun hstart hfilter => ⟨fun htables => ?ascending, ?answered⟩⟩
  case outside =>
    exact answers_listCartridges hready htag (listCartridgesRequest_outside houtside (taken s))
  case ascending =>
    obtain ⟨_, hrecords, _⟩ := htables
    exact listedFrom_ascending hrecords start.toNat filter.toNat
  case answered =>
    have hanswer : Answers (.listCartridges tag start filter) tag 0x53 .ok
        (listData (listedFrom (taken s) start.toNat filter.toNat)) s (taken s) :=
      answers_listCartridges hready htag (listCartridgesRequest_inside hstart hfilter (taken s))
    rw [listedFrom_taken] at hanswer
    exact hanswer

end Sys2Proof
end

section
/-! The exit lock and ALARM OUT (R125, R134): an operation that leaves the fire records alone keeps both by its
moves; the Fire Controller's own operations work ALARM OUT out afresh with every record they take, and tell the
Hatch Arbiter of every change of a zone's state. -/

namespace Sys2Proof.Machine

variable {s t u : State}

/-! ## The two conditions, and what keeps them -/

/-- R125: ALARM OUT is driven exactly while its condition holds. -/
def AlarmRight (s : State) : Prop := s.fire.alarmOut = alarmWanted s

/-- Both conditions pass from s to t. -/
structure FireKept (s t : State) : Prop where
  exit : ExitOpenInFire s → ExitOpenInFire t
  alarm : AlarmRight s → AlarmRight t

/-- Every block but the fire records. -/
def Allow.butFire : Allow := { Allow.all with fire := False }

theorem FireKept.refl : FireKept s s := ⟨id, id⟩

theorem FireKept.trans (h : FireKept s t) (g : FireKept t u) : FireKept s u :=
  ⟨g.exit ∘ h.exit, g.alarm ∘ h.alarm⟩

theorem someFire_congr (h : t.fire = s.fire) : someFire t = someFire s := by
  simp only [someFire, State.zoneFire, h]

theorem alarmRight_congr (h : t.fire = s.fire) : AlarmRight t ↔ AlarmRight s := by
  simp only [AlarmRight, alarmWanted, State.zoneFire, h]

/-- A move that leaves the fire records alone keeps both. -/
theorem fireKept_of_moves {A : Allow} (n : ¬A.fire) (m : Moves A s t) : FireKept s t := by
  have hf := m.fire_eq n
  refine ⟨fun h hs => ?_, (alarmRight_congr hf).mpr⟩
  rw [someFire_congr hf] at hs
  exact (m.exitUnlocked n hs (h hs)).1

theorem FireKept.still (h : FireKept s t) (m : Moves .butFire t u) : FireKept s u :=
  h.trans (fireKept_of_moves id m)

/-- Keeping both through a list of operations. -/
theorem FireKept.foldl {α : Type} {f : State → α → State} (l : List α) (hf : ∀ a t, FireKept t (f t a)) :
    FireKept s (l.foldl f s) := by
  induction l generalizing s with
  | nil => exact .refl
  | cons a l ih => exact (hf a s).trans ih

/-! ## Taking a fire record -/

theorem updateAlarm_alarmRight (s : State) : AlarmRight (updateAlarm s) := by
  unfold updateAlarm
  dsimp only
  split
  · next h => exact h.symm
  · rfl

theorem putFire_alarmRight (z : Fin 8) (new : ZoneFire) (s : State) : AlarmRight (putFire z new s) :=
  updateAlarm_alarmRight _

theorem updateAlarm_hatch (s : State) : (updateAlarm s).hatch = s.hatch := by
  unfold updateAlarm; dsimp only; split <;> rfl

theorem updateAlarm_zones (s : State) : (updateAlarm s).fire.zones = s.fire.zones := by
  unfold updateAlarm; dsimp only; split <;> rfl

theorem putFire_hatch (z : Fin 8) (new : ZoneFire) (s : State) : (putFire z new s).hatch = s.hatch := by
  unfold putFire
  rw [updateAlarm_hatch]
  split <;> rfl

theorem putFire_zones (z : Fin 8) (new : ZoneFire) (s : State) :
    (putFire z new s).fire.zones = s.fire.zones.set z new := by
  unfold putFire
  rw [updateAlarm_zones]
  split <;> rfl

@[simp] theorem putFire_zoneFire_same (z : Fin 8) (new : ZoneFire) (s : State) :
    (putFire z new s).zoneFire z = new := by
  simp [State.zoneFire, putFire_zones]

theorem putFire_zoneFire_other {y z : Fin 8} (h : y ≠ z) (new : ZoneFire) (s : State) :
    (putFire z new s).zoneFire y = s.zoneFire y := by
  have hv : z.val ≠ y.val := fun e => h (Fin.ext e.symm)
  simp [State.zoneFire, putFire_zones, hv]

theorem mem_zoneIds (z : Fin 8) : z ∈ zoneIds := by revert z; decide

theorem someFire_iff (s : State) : someFire s = true ↔ ∃ z, (s.zoneFire z).state.inFire = true := by
  simp [someFire, List.any_eq_true, mem_zoneIds]

/-- A record that brings no zone into fire keeps both. -/
theorem putFire_fireKept {z : Fin 8} {new : ZoneFire}
    (h : new.state.inFire = true → (s.zoneFire z).state.inFire = true) : FireKept s (putFire z new s) := by
  refine ⟨fun hs hfire => ?_, fun _ => putFire_alarmRight z new s⟩
  rw [putFire_hatch]
  obtain ⟨y, hy⟩ := (someFire_iff _).mp hfire
  by_cases e : y = z
  · subst e
    rw [putFire_zoneFire_same] at hy
    exact hs ((someFire_iff s).mpr ⟨y, h hy⟩)
  · rw [putFire_zoneFire_other e] at hy
    exact hs ((someFire_iff s).mpr ⟨y, hy⟩)

/-! ## The Hatch Arbiter is told -/

theorem updateLocks_exitOpen (s : State) : ExitOpenInFire (updateLocks s) := by
  obtain ⟨q, _, e⟩ := updateLocks_spec s
  rw [e]
  intro hfire
  have hs : someFire s = true := hfire
  show exitLockWanted s = .unlocked
  simp [exitLockWanted, hs]

/-- R134: a hatch that has been told of a zone's fire state stands with the exit unlocked in fire. -/
theorem hatchFireTold_exitOpen (z : Fin 8) (s : State) : ExitOpenInFire (hatchFireTold z s) := by
  unfold hatchFireTold
  dsimp only
  split
  · split
    · split <;> exact updateLocks_exitOpen _
    · split
      · exact (fireKept_of_moves (A := .butFire) id (by apply grantEval_moves .refl <;> trivial)).exit
          (updateLocks_exitOpen _)
      · exact updateLocks_exitOpen _
  · exact updateLocks_exitOpen _

theorem hatchFireTold_butFire (z : Fin 8) (s : State) : Moves .butFire s (hatchFireTold z s) := by
  apply hatchFireTold_moves z .refl <;> trivial

theorem tellFire_butFire (z : Fin 8) (old : FireState) (s : State) :
    Moves .butFire s (tellFire z old s) := by
  apply tellFire_moves z old .refl <;> trivial

/-! ## Changes and confirmations -/

theorem changeFire_fireKept (z : Fin 8) (new : ZoneFire) (s : State) : FireKept s (changeFire z new s) := by
  unfold changeFire
  dsimp only
  split
  · next h => exact putFire_fireKept fun k => h ▸ k
  · refine ⟨fun _ => hatchFireTold_exitOpen _ _, fun _ => ?_⟩
    exact (fireKept_of_moves id (tellFire_butFire z _ _)).alarm (putFire_alarmRight z new s)

theorem countdownTest_fireKept (z : Fin 8) (s : State) : FireKept s (countdownTest z s) := by
  unfold countdownTest
  dsimp only
  split
  · exact changeFire_fireKept ..
  · exact .refl

/-- What a confirmation does once its record has been taken (R127) leaves the fire records alone. -/
theorem confirm_eq (z : Fin 8) (f : ZoneFire) (s : State) :
    confirm z f s =
      climateFireTold z (s.zoneFire z).state .confirmed (updateRackPause (ordersFailFire z
        (hatchFireTold z (fireAbort (preempt (putFire z (f.confirmed (s.param .ackTime * 1000)) s)))))) := rfl

theorem confirm_fireKept (z : Fin 8) (f : ZoneFire) (s : State) : FireKept s (confirm z f s) := by
  rw [confirm_eq]
  generalize hp : putFire z (f.confirmed (s.param .ackTime * 1000)) s = p
  have before : Moves .butFire p (hatchFireTold z (fireAbort (preempt p))) := by
    apply hatchFireTold_moves
    · apply fireAbort_moves
      · exact preempt_moves .refl trivial
      all_goals trivial
    all_goals trivial
  have after : ∀ v, Moves .butFire v
      (climateFireTold z (s.zoneFire z).state .confirmed (updateRackPause (ordersFailFire z v))) := by
    intro v
    apply climateFireTold_moves
    · apply updateRackPause_moves
      · apply ordersFailFire_moves _ .refl <;> trivial
      all_goals trivial
    all_goals trivial
  refine ⟨fun _ => ?_, fun _ => ?_⟩
  · exact (fireKept_of_moves id (after _)).exit (hatchFireTold_exitOpen _ _)
  · exact (fireKept_of_moves id (before.trans (after _))).alarm (hp ▸ putFire_alarmRight ..)

theorem confirmAndCount_fireKept (z : Fin 8) (f : ZoneFire) (s : State) :
    FireKept s (confirmAndCount z f s) :=
  (confirm_fireKept z f s).trans (countdownTest_fireKept z _)

/-! ## The state fields of a FIRE report -/

theorem takeHeads_fireKept (z : Fin 8) (a b : Head) (s : State) : FireKept s (takeHeads z a b s) := by
  unfold takeHeads
  dsimp only
  split
  · split
    · exact confirmAndCount_fireKept ..
    · exact putFire_fireKept id
  · split
    · split
      · split
        · exact confirmAndCount_fireKept ..
        · exact changeFire_fireKept ..
      · exact putFire_fireKept id
    · split
      · exact confirmAndCount_fireKept ..
      · split
        · exact changeFire_fireKept ..
        · exact putFire_fireKept id
    all_goals exact putFire_fireKept id

theorem takeHold_fireKept (z : Fin 8) (h : Hold) (s : State) : FireKept s (takeHold z h s) := by
  have taken : FireKept s (putFire z { s.zoneFire z with hold := h } s) := putFire_fireKept id
  unfold takeHold
  dsimp only
  split
  · exact .refl
  · split
    · exact taken.trans (countdownTest_fireKept z _)
    · split
      · exact changeFire_fireKept ..
      · exact taken
    · split
      · exact changeFire_fireKept ..
      · exact taken
    all_goals exact taken

theorem quarantine_butFire (z : Fin 8) (s : State) : Moves .butFire s (quarantine z s) := by
  apply quarantine_moves z .refl <;> trivial

theorem discharge_fireKept (z : Fin 8) (s : State) : FireKept s (discharge z s) := by
  have discharged : ∀ u, FireKept s u →
      FireKept s
        (if (u.zoneFire z).state = .discharged ∧ ¬ (u.zoneFire z).drill then
          changeFire z { u.zoneFire z with state := .discharged, countdownTimer := none, drill := false } u
        else quarantine z
          (changeFire z { u.zoneFire z with state := .discharged, countdownTimer := none, drill := false } u)) := by
    intro u hu
    have h := hu.trans (changeFire_fireKept z
      { u.zoneFire z with state := .discharged, countdownTimer := none, drill := false } u)
    split
    · exact h
    · exact h.still (quarantine_butFire z _)
  unfold discharge
  apply discharged
  split
  · exact confirm_fireKept ..
  · exact confirm_fireKept ..
  all_goals exact .refl

/-- The valve is no part of either condition. -/
theorem setValve_fireKept (z : Fin 8) (v : Valve) (s : State) :
    FireKept s (setZoneFire z { s.zoneFire z with valve := v } s) := by
  have hz : ∀ y, ∃ w, (setZoneFire z { s.zoneFire z with valve := v } s).zoneFire y =
      { s.zoneFire y with valve := w } := by
    intro y
    by_cases e : y = z
    · subst e; exact ⟨v, by simp [setZoneFire, State.zoneFire]⟩
    · have hv : z.val ≠ y.val := fun e' => e (Fin.ext e'.symm)
      exact ⟨(s.zoneFire y).valve, by simp [setZoneFire, State.zoneFire, hv]⟩
  have hs : ∀ y, ((setZoneFire z { s.zoneFire z with valve := v } s).zoneFire y).state =
      (s.zoneFire y).state := fun y => by obtain ⟨w, e⟩ := hz y; rw [e]
  have ha : ∀ y, ((setZoneFire z { s.zoneFire z with valve := v } s).zoneFire y).acknowledged =
      (s.zoneFire y).acknowledged := fun y => by obtain ⟨w, e⟩ := hz y; rw [e]
  have hx : ∀ y, ((setZoneFire z { s.zoneFire z with valve := v } s).zoneFire y).ackExpired =
      (s.zoneFire y).ackExpired := fun y => by obtain ⟨w, e⟩ := hz y; rw [e]
  refine ⟨fun h hf => ?_, fun h => ?_⟩
  · refine h ?_
    simpa only [someFire, hs] using hf
  · have hw : alarmWanted (setZoneFire z { s.zoneFire z with valve := v } s) = alarmWanted s := by
      simp only [alarmWanted, hs, ha, hx]
    exact h.trans hw.symm

theorem takeValve_fireKept (z : Fin 8) (v : Valve) (code : Nat) (s : State) :
    FireKept s (takeValve z v code s) := by
  unfold takeValve
  dsimp only
  split
  · exact (setValve_fireKept z v s).trans (discharge_fireKept z _)
  · exact (setValve_fireKept z v s).still (releaseAgain_moves z v code .refl trivial)

theorem takeFire_fireKept (z : Fin 8) (a b : Head) (h : Hold) (v : Valve) (code : Nat) (s : State) :
    FireKept s (takeFire z a b h v code s) :=
  ((takeHeads_fireKept z a b s).trans (takeHold_fireKept z h _)).trans (takeValve_fireKept z v code _)

theorem setEquipmentLost_fireKept (z : Fin 8) (lost : Bool) (s : State) :
    FireKept s (setEquipmentLost z lost s) := putFire_fireKept id

theorem unboundFire_fireKept (z : Fin 8) (s : State) : FireKept s (unboundFire z s) := putFire_fireKept id

/-! ## Timers and requests -/

theorem alertExpired_fireKept (z : Fin 8) (s : State) : FireKept s (alertExpired z s) := by
  unfold alertExpired
  dsimp only
  split
  · exact confirmAndCount_fireKept ..
  · exact .refl

theorem countdownExpired_fireKept (z : Fin 8) (s : State) : FireKept s (countdownExpired z s) := by
  unfold countdownExpired
  dsimp only
  split
  · split
    · exact changeFire_fireKept ..
    · exact (changeFire_fireKept ..).still (postRelease_moves z .refl trivial)
  · exact .refl

theorem ackExpired_fireKept (z : Fin 8) (s : State) : FireKept s (ackExpired z s) := by
  unfold ackExpired
  dsimp only
  split
  · exact .refl
  · exact putFire_fireKept id

theorem armedChanged_fireKept (z : Fin 8) (s : State) : FireKept s (armedChanged z s) := by
  unfold armedChanged
  dsimp only
  split
  · exact countdownTest_fireKept z s
  · split
    all_goals first | exact changeFire_fireKept .. | exact .refl

theorem setArmedFlag_fireKept (z : Fin 8) (armed : Bool) (s : State) :
    FireKept s (setArmedFlag z armed s) := by
  unfold setArmedFlag
  dsimp only
  split
  · exact .refl
  · exact (FireKept.refl.still (.settings _ trivial .refl)).trans (armedChanged_fireKept z _)

/-! ## The end of a field transaction -/

theorem healthChanged_fireKept (i : Nat) (before : Health) (s : State) :
    FireKept s (healthChanged i before s) := by
  have left : ∀ (c : Prop) [Decidable c] u, FireKept s u → FireKept s (if c then leaveStartup i u else u) := by
    intro c _ u hu
    split
    · exact hu.still (leaveStartup_moves i .refl trivial)
    · exact hu
  have posted : FireKept s (postHealth i s) := FireKept.refl.still (postHealth_moves i .refl trivial)
  unfold healthChanged
  dsimp only
  split
  · exact .refl
  · split
    · exact .refl
    · apply left
      split
      · exact posted.trans (setEquipmentLost_fireKept ..)
      · split
        · exact posted
        · exact posted.still (by apply refreshReading_moves _ .refl <;> trivial)
      all_goals exact posted

theorem handState_fireKept (i : Nat) (n : Node) (code : Nat) (st : NodeState) (s : State) :
    FireKept s (handState i n code st s) := by
  unfold handState
  split
  · exact FireKept.refl.still (by apply takeProbe_moves _ _ _ .refl <;> trivial)
  · exact FireKept.refl.still (by apply refreshReading_moves _ .refl <;> trivial)
  · exact takeFire_fireKept ..
  · exact FireKept.refl.still (takeAir_moves _ _ _ .refl trivial)
  · exact FireKept.refl.still (by apply takeHatch_moves _ _ .refl <;> trivial)
  · exact .refl

theorem endDelivery_butFire (d : Bool) (s : State) : Moves .butFire s (endDelivery d s) :=
  endDelivery_moves d .refl trivial

theorem forwardReply_butFire (o : Origin) (st : Status) (data : List Byte) (s : State) :
    Moves .butFire s (forwardReply o st data s) := by
  apply forwardReply_moves _ _ _ .refl <;> trivial

theorem dropForward_butFire (i : Nat) (s : State) : Moves .butFire s (dropForward i s) := by
  apply dropForward_moves _ .refl <;> trivial

theorem noteMore_butFire (i : Nat) (more : Bool) (s : State) : Moves .butFire s (noteMore i more s) :=
  noteMore_moves i more .refl trivial

theorem putNode_butFire (i : Nat) (n : Node) (s : State) : Moves .butFire s (putNode i n s) :=
  putNode_moves i n .refl trivial

theorem takeMiss_fireKept (i : Nat) (n : Node) (t : Transaction) (s : State) :
    FireKept s (takeMiss i n t s) :=
  ((((FireKept.refl.still (endDelivery_butFire false s)).still (putNode_butFire i _ _)).trans
    (healthChanged_fireKept i n.health _)).still (forwardReply_butFire ..)).still (dropForward_butFire ..)

theorem takeOtherKind_fireKept (i : Nat) (n : Node) (t : Transaction) (r : Report) (s : State) :
    FireKept s (takeOtherKind i n t r s) :=
  (((((FireKept.refl.still (endDelivery_butFire false s)).still (putNode_butFire i _ _)).trans
    (healthChanged_fireKept i n.health _)).still (noteMore_butFire ..)).still
    (forwardReply_butFire ..)).still (dropForward_butFire ..)

theorem takeItems_butFire (i : Nat) (r : Report) (items : Items) (s : State) :
    Moves .butFire s (takeItems i r items s) := by
  apply takeItems_moves _ _ _ .refl <;> trivial

theorem takeValid_fireKept (i : Nat) (n : Node) (t : Transaction) (bytes : List Byte) (r : Report)
    (st : NodeState) (items : Items) (s : State) : FireKept s (takeValid i n t bytes r st items s) :=
  (((((((FireKept.refl.still (endDelivery_butFire true s)).still (putNode_butFire i _ _)).trans
    (healthChanged_fireKept i n.health _)).still (leaveStartup_moves i .refl trivial)).trans
    (handState_fireKept ..)).still (takeItems_butFire ..)).still (noteMore_butFire ..)).still
    (forwardReply_butFire ..)

/-- The count of a transaction and the arbiter's choice after it leave the fire records alone. -/
theorem chosen_butFire (f : Option Nat) (counted missed : Bool) (s : State) :
    Moves .butFire s (chooseTransaction f (countTransaction counted missed s)) :=
  chooseTransaction_moves f (countTransaction_moves counted missed .refl trivial) trivial

theorem endTransaction_fireKept (t : Transaction) (bytes : Option (List Byte)) (s : State) :
    FireKept s (endTransaction t bytes s) := by
  have idle : FireKept s (s.withLink { s.link with activity := .idle }) :=
    FireKept.refl.still (.link _ trivial id .refl)
  unfold endTransaction
  dsimp only
  split
  · exact idle.still (endOrphan_moves t _ .refl trivial)
  · split
    · exact (idle.trans (takeMiss_fireKept ..)).still (chosen_butFire ..)
    · split
      · exact (idle.trans (takeMiss_fireKept ..)).still (chosen_butFire ..)
      · exact (idle.trans (takeOtherKind_fireKept ..)).still (chosen_butFire ..)
      · exact (idle.trans (takeValid_fireKept ..)).still (chosen_butFire ..)

theorem reportArrives_fireKept (bytes : List Byte) (s : State) : FireKept s (reportArrives bytes s) := by
  unfold reportArrives
  split
  · exact endTransaction_fireKept ..
  all_goals exact .refl

theorem replyWindowEnds_fireKept (s : State) : FireKept s (replyWindowEnds s) := by
  unfold replyWindowEnds
  split
  · exact endTransaction_fireKept ..
  all_goals exact .refl

/-! ## Binding -/

theorem bindTold_fireKept (i : Nat) (g : Target) (s : State) : FireKept s (bindTold i g s) := by
  unfold bindTold
  split
  · exact FireKept.refl.still (by
      apply refreshReading_moves
      · apply resetAgreement_moves
        · exact setProbe_moves _ _ .refl trivial
        all_goals trivial
      all_goals trivial)
  · exact unboundFire_fireKept ..
  · exact FireKept.refl.still (postMode_moves _ .refl trivial)
  · exact FireKept.refl.still (by apply bindHatch_moves .refl <;> trivial)
  all_goals exact .refl

theorem unbindTold_fireKept (i : Nat) (g : Target) (s : State) : FireKept s (unbindTold i g s) := by
  unfold unbindTold
  split
  · exact FireKept.refl.still (by
      apply refreshReading_moves
      · apply resetAgreement_moves
        · exact setProbe_moves _ _ .refl trivial
        all_goals trivial
      all_goals trivial)
  · exact unboundFire_fireKept ..
  · exact FireKept.refl.still (unbindHatch_moves .refl trivial)
  all_goals exact .refl

theorem bindNodeEffect_fireKept (i : Nat) (b : Binding) (s : State) :
    FireKept s (bindNodeEffect i b s) := by
  have told : ∀ u, Moves .butFire s u → FireKept s (bindTold i b.target (postHealth i u)) := fun u m =>
    (FireKept.refl.still (postHealth_moves i m trivial)).trans (bindTold_fireKept i b.target _)
  have bound := putNode_moves i
    { binding := b, health := .online, misses := 0, accepted := none, rate := s.link.rate,
      assembly := none } (Moves.refl (A := .butFire) (s := s)) trivial
  have started : ∀ u, Moves .butFire s u →
      Moves .butFire s (if u.device.condition = .starting then
        u.withDevice { u.device with startupSet := u.device.startupSet ++ [i] } else u) := by
    intro u m
    split
    · exact .device _ trivial rfl m
    · exact m
  refine told _ (started _ ?_)
  split
  · exact bound
  · exact .link _ trivial id bound

theorem unbindNodeEffect_fireKept (i : Nat) (n : Node) (s : State) :
    FireKept s (unbindNodeEffect i n s) := by
  unfold unbindNodeEffect
  dsimp only
  refine (FireKept.trans (FireKept.refl.still ?_) (unbindTold_fireKept i n.binding.target _)).still
    (leaveStartup_moves i .refl trivial)
  refine post_moves _ (.link _ trivial (fun h => ?_) (.nodes _ trivial Table.erase_keeps .refl)) trivial
  exact List.Nodup.sublist (List.Sublist.map _ List.filter_sublist) h

end Sys2Proof.Machine
end

section
/-! What every step keeps: `Upholds s t` says that each invariant of Safety passes from s to t and that the lines
and the waiting commands stand. Moves give the invariants of the blocks, `FireKept` gives the two of the Fire
Controller; the reply queue needs one more look, at the places where a reply enters it. -/

namespace Sys2Proof.Machine

variable {s t u : State}

/-! ## Requests and the fire records -/

/-- The state an answer leaves keeps the exit lock and ALARM OUT. -/
def Answer.FireKept (s : State) : Answer → Prop
  | .reply _ _ t => Machine.FireKept s t
  | .held t => Machine.FireKept s t

/-- An answer that is a move without the fire records keeps both. -/
theorem Answer.fireKept_of_moved {a : Answer} (m : a.Moved .butFire s) : a.FireKept s := by
  cases a with
  | reply st data t => exact fireKept_of_moves id m
  | held t =>
    obtain ⟨tag, l, hl, rfl⟩ := m
    exact ⟨id, id⟩

theorem refuse_fireKept (st : Status) : (refuse st s).FireKept s := FireKept.refl

theorem checked_fireKept (checks : List (Bool × Status)) {a : Answer} (h : a.FireKept s) :
    (checked checks s a).FireKept s := by
  unfold checked
  split
  · exact refuse_fireKept _
  · exact h

theorem fireReply_fireKept {z : Fin 8} (h : FireKept s t) : (fireReply z t).FireKept s := h

theorem acknowledge_fireKept (z : Fin 8) (s : State) : FireKept s (acknowledge z s) := putFire_fireKept id

theorem ackFireRequest_fireKept (zone : Byte) : (ackFireRequest zone s).FireKept s := by
  unfold ackFireRequest
  dsimp only
  split
  · exact refuse_fireKept _
  · split
    · split
      · exact fireReply_fireKept .refl
      · exact fireReply_fireKept (acknowledge_fireKept ..)
    · exact refuse_fireKept _

theorem fireResetRequest_fireKept (zone : Byte) : (fireResetRequest zone s).FireKept s := by
  unfold fireResetRequest
  split
  · exact refuse_fireKept _
  · split
    · exact fireReply_fireKept (changeFire_fireKept ..)
    · exact refuse_fireKept _

theorem setArmedRequest_fireKept (zone armed : Byte) : (setArmedRequest zone armed s).FireKept s := by
  unfold setArmedRequest
  split
  · exact fireReply_fireKept (setArmedFlag_fireKept ..)
  · exact refuse_fireKept _

theorem setDrillRequest_fireKept (zone start : Byte) : (setDrillRequest zone start s).FireKept s := by
  unfold setDrillRequest
  dsimp only
  split
  · split
    · exact fireReply_fireKept (confirmAndCount_fireKept ..)
    · exact refuse_fireKept _
  · split
    · exact fireReply_fireKept (changeFire_fireKept ..)
    · exact refuse_fireKept _
  · exact refuse_fireKept _

theorem zoneDefaulted_fireKept (before : Vector ZoneSettings 8) (z : Fin 8) (s : State) :
    FireKept s (zoneDefaulted before z s) := by
  have evaluated : FireKept s (evaluateZone z false s) :=
    FireKept.refl.still (by apply evaluateZone_moves _ _ .refl <;> trivial)
  have armed : ∀ u, FireKept s u → FireKept s (if before[z].armed then u else armedChanged z u) := by
    intro u hu
    split
    · exact hu
    · exact hu.trans (armedChanged_fireKept ..)
  refine armed _ ?_
  split
  · exact .refl
  · exact evaluated

theorem loadDefaultsRequest_fireKept : (loadDefaultsRequest s).FireKept s :=
  FireKept.trans (FireKept.refl.still (.settings _ trivial .refl))
    (FireKept.foldl zoneIds fun z t => zoneDefaulted_fireKept s.settings.zones z t)

theorem bindNodeRequest_fireKept (index physicalId kind zone : Byte) (base limit : Half) :
    (bindNodeRequest index physicalId kind zone base limit s).FireKept s := by
  unfold bindNodeRequest
  dsimp only
  split
  · split
    · exact refuse_fireKept _
    · exact checked_fireKept _ (bindNodeEffect_fireKept ..)
  · exact refuse_fireKept _

theorem unbindNodeRequest_fireKept (index : Byte) : (unbindNodeRequest index s).FireKept s := by
  unfold unbindNodeRequest
  split
  · split
    · exact refuse_fireKept _
    · exact checked_fireKept _ (unbindNodeEffect_fireKept ..)
  · exact refuse_fireKept _

theorem withByte_fireKept {ops : List Byte} {k : Byte → Answer} (h : ∀ a, (k a).FireKept s) :
    (withByte ops s k).FireKept s := by
  unfold withByte; split
  · exact h _
  · exact refuse_fireKept _

theorem withTwo_fireKept {ops : List Byte} {k : Byte → Byte → Answer} (h : ∀ a b, (k a b).FireKept s) :
    (withTwo ops s k).FireKept s := by
  unfold withTwo; split
  · exact h _ _
  · exact refuse_fireKept _

theorem carrySetZone_fireKept (ops : List Byte) : (carrySetZone ops s).FireKept s := by
  unfold carrySetZone; split
  · exact Answer.fireKept_of_moved (by apply setZoneRequest_moved <;> trivial)
  · exact refuse_fireKept _

theorem carryBindNode_fireKept (ops : List Byte) : (carryBindNode ops s).FireKept s := by
  unfold carryBindNode; split
  · exact bindNodeRequest_fireKept ..
  · exact refuse_fireKept _

theorem carryForward_fireKept (tag : Byte) (ops : List Byte) : (carryForward tag ops s).FireKept s := by
  unfold carryForward; split
  · exact Answer.fireKept_of_moved (forwardRequest_moved ..)
  · exact refuse_fireKept _

theorem carryCheckout_fireKept (ops : List Byte) : (carryCheckout ops s).FireKept s := by
  unfold carryCheckout; split
  · exact Answer.fireKept_of_moved (by apply checkoutRequest_moved <;> trivial)
  · exact refuse_fireKept _

theorem carryEnrolCourier_fireKept (ops : List Byte) : (carryEnrolCourier ops s).FireKept s := by
  unfold carryEnrolCourier; split
  · exact Answer.fireKept_of_moved (by apply enrolCourierRequest_moved <;> trivial)
  · exact refuse_fireKept _

/-- Whatever its code and operands, a request keeps the exit lock and ALARM OUT. -/
theorem carryOut_fireKept (tag code : Byte) (ops : List Byte) : (carryOut tag code ops s).FireKept s := by
  unfold carryOut
  split
  · exact Answer.fireKept_of_moved (statusRequest_moved trivial)
  · exact Answer.fireKept_of_moved (withByte_moved fun _ => setNoticeMaskRequest_moved _ trivial)
  · exact Answer.fireKept_of_moved restartRequest_moved
  · exact Answer.fireKept_of_moved (withByte_moved fun _ => getParamRequest_moved _)
  · exact Answer.fireKept_of_moved (withThree_moved fun _ _ _ => by
      apply setParamRequest_moved <;> trivial)
  · exact Answer.fireKept_of_moved (withByte_moved fun _ => getZoneRequest_moved _)
  · exact carrySetZone_fireKept _
  · exact Answer.fireKept_of_moved (by apply saveSettingsRequest_moved <;> trivial)
  · exact loadDefaultsRequest_fireKept
  · exact Answer.fireKept_of_moved (withByte_moved fun _ => getNodeRequest_moved _)
  · exact carryBindNode_fireKept _
  · exact withByte_fireKept fun _ => unbindNodeRequest_fireKept _
  · exact carryForward_fireKept _ _
  · exact Answer.fireKept_of_moved (restoreLinkRateRequest_moved trivial trivial)
  · exact withByte_fireKept fun _ => ackFireRequest_fireKept _
  · exact withByte_fireKept fun _ => fireResetRequest_fireKept _
  · exact withTwo_fireKept fun _ _ => setArmedRequest_fireKept _ _
  · exact withTwo_fireKept fun _ _ => setDrillRequest_fireKept _ _
  · exact Answer.fireKept_of_moved getRackRequest_moved
  · exact Answer.fireKept_of_moved getHatchRequest_moved
  · exact Answer.fireKept_of_moved (by apply hatchDryOverrideRequest_moved <;> trivial)
  · exact Answer.fireKept_of_moved (by apply enrolCartridgeRequest_moved <;> trivial)
  · exact Answer.fireKept_of_moved (by apply retireCartridgeRequest_moved <;> trivial)
  · exact Answer.fireKept_of_moved (getCartridgeRequest_moved _)
  · exact Answer.fireKept_of_moved (withThree_moved fun _ _ _ => listCartridgesRequest_moved _ _)
  · exact Answer.fireKept_of_moved (by apply unblockCartridgeRequest_moved <;> trivial)
  · exact carryCheckout_fireKept _
  · exact Answer.fireKept_of_moved (withByte_moved fun _ => by apply cancelOrderRequest_moved <;> trivial)
  · exact Answer.fireKept_of_moved (withByte_moved fun _ => getOrderRequest_moved _)
  · exact carryEnrolCourier_fireKept _
  · exact Answer.fireKept_of_moved (withHalf_moved fun _ => by apply revokeCourierRequest_moved <;> trivial)
  · exact Answer.fireKept_of_moved (withHalf_moved fun _ => by
      apply reinstateCourierRequest_moved <;> trivial)
  · exact Answer.fireKept_of_moved (withHalf_moved fun _ => getCourierRequest_moved _)
  · exact Answer.fireKept_of_moved (withByte_moved fun _ => getHandoverRequest_moved _)
  · exact Answer.fireKept_of_moved (withByte_moved fun _ => by
      apply acceptHandoverRequest_moved <;> trivial)
  · exact Answer.fireKept_of_moved (withByte_moved fun _ => by
      apply disputeHandoverRequest_moved <;> trivial)
  · exact Answer.fireKept_of_moved (withByte_moved fun _ => by
      apply abortHandoverRequest_moved <;> trivial)
  · exact refuse_fireKept _

theorem execute_fireKept (f : Frame) : (execute f s).FireKept s := by
  unfold execute
  split
  · exact refuse_fireKept _
  · split
    · exact refuse_fireKept _
    · exact refuse_fireKept _
    · exact carryOut_fireKept _ _ _

/-! ## All invariants at once -/

/-- Each invariant of Safety passes from s to t; the lines and the waiting commands stand. -/
structure Upholds (s t : State) : Prop where
  locks : LocksSafe s.hatch → LocksSafe t.hatch
  replies : RepliesOk s.host → RepliesOk t.host
  notices : NoticesOk s.notices → NoticesOk t.notices
  queue : QueueOk s.link → QueueOk t.link
  tables : TablesOk s → TablesOk t
  exit : ExitOpenInFire s → ExitOpenInFire t
  alarm : AlarmRight s → AlarmRight t
  outside : t.outside = s.outside

namespace Upholds

theorem refl : Upholds s s := ⟨id, id, id, id, id, id, id, rfl⟩

theorem trans (h : Upholds s t) (g : Upholds t u) : Upholds s u :=
  ⟨g.locks ∘ h.locks, g.replies ∘ h.replies, g.notices ∘ h.notices, g.queue ∘ h.queue,
    g.tables ∘ h.tables, g.exit ∘ h.exit, g.alarm ∘ h.alarm, g.outside.trans h.outside⟩

/-- A move upholds the invariants of the blocks; the fire records' two are said apart. -/
theorem of_moves {A : Allow} (m : Moves A s t) (k : FireKept s t) : Upholds s t :=
  ⟨m.locksSafe, m.repliesOk, m.noticesOk, m.queueOk, m.tablesOk, k.exit, k.alarm, m.outside⟩

theorem of_butFire (m : Moves .butFire s t) : Upholds s t := of_moves m (fireKept_of_moves id m)

/-- An update of the host link alone upholds everything but what the reply queue asks of it. -/
theorem withHost {x : HostLink} (h : RepliesOk s.host → RepliesOk x) : Upholds s (s.withHost x) :=
  ⟨id, h, id, id, id, id, id, rfl⟩

/-- What follows an update of the host link. -/
theorem ofHost {x : HostLink} (g : Upholds (s.withHost x) t) (h : RepliesOk s.host → RepliesOk x) :
    Upholds s t := (withHost h).trans g

end Upholds

/-- The lines of a part say whether it is up. -/
theorem up_of_outside (h : t.outside = s.outside) : t.up = s.up := by
  simp only [State.outside, Prod.mk.injEq] at h
  obtain ⟨hp, hr, hq, _⟩ := h
  simp only [State.up, hp, hr, hq]

/-! ## The end of an event -/

theorem startEvent_upholds (s : State) : Upholds s (startEvent s) :=
  .of_butFire (.store _ trivial (.inr rfl) id id .refl)

theorem mem_of_mem_erase {α : Type} {t : Table α} {n : Nat} {p : Nat × α} (h : p ∈ t.erase n) : p ∈ t := by
  induction t with
  | nil => exact h
  | cons q t ih =>
    obtain ⟨k, v⟩ := q
    unfold Table.erase at h
    split at h
    · exact List.mem_cons_of_mem _ (ih h)
    · rcases List.mem_cons.mp h with rfl | h
      · exact List.mem_cons_self
      · exact List.mem_cons_of_mem _ (ih h)

/-- A notice that leaves the pending set leaves the others at their keys' places. -/
theorem erase_noticesOk {x : NoticeUnit} (n : Nat) (h : NoticesOk x) :
    NoticesOk { x with pending := x.pending.erase n } :=
  ⟨Table.erase_rising h.1, fun p hp => h.2 p (mem_of_mem_erase hp)⟩

theorem settleHost_upholds (s : State) : Upholds s (settleHost s) := by
  unfold settleHost
  split
  · exact .refl
  · split
    · exact .withHost id
    · split
      · exact .refl
      · exact ⟨id, id, erase_noticesOk _, id, id, id, id, rfl⟩

theorem settle_upholds (s : State) : Upholds s (settle s) :=
  (Upholds.of_butFire (settleField_moves .refl trivial)).trans (settleHost_upholds _)

/-! ## The reply queue -/

theorem keptTotal_reply (h : HostLink) (r : Reply) :
    keptTotal { h with replies := h.replies ++ [r] } = keptTotal h + (if r.place = .kept then 1 else 0) := by
  rw [keptTotal_append]
  cases e : r.place <;> simp [e]

theorem refusalTotal_reply (h : HostLink) (r : Reply) :
    refusalTotal { h with replies := h.replies ++ [r] } =
      refusalTotal h + (if r.place = .refusal then 1 else 0) := by
  rw [refusalTotal_append]
  cases e : r.place <;> simp [e]

/-- With nothing in execution and the kept place free, nothing is kept (R2). -/
theorem keptTotal_eq_zero (he : s.host.executing = none) (hk : keptOccupied s = false) :
    keptTotal s.host = 0 := by
  have hf : (s.host.replies.filter fun r => r.place == .kept) = [] := by
    rw [List.filter_eq_nil_iff]
    intro r hr hp
    have : keptOccupied s = true := List.any_eq_true.mpr ⟨r, hr, hp⟩
    rw [hk] at this
    exact absurd this (by decide)
  simp [keptTotal, hf, he]

/-- R5: an answer is taken into a kept place that is free. -/
theorem takeAnswer_upholds (tag code : Byte) {a : Answer} (m : a.Moved .all s) (k : a.FireKept s)
    (h0 : keptTotal s.host = 0) : Upholds s (takeAnswer tag code a) := by
  cases a with
  | reply st data t =>
    have moved : Upholds s t := .of_moves m k
    refine ⟨moved.locks, fun h => ⟨?_, ?_⟩, moved.notices, moved.queue, moved.tables, moved.exit,
      moved.alarm, moved.outside⟩
    · show keptTotal { t.host with replies := t.host.replies ++ [_] } ≤ 1
      rw [keptTotal_reply, Moves.keptTotal m, h0]
      exact Nat.le_refl 1
    · show refusalTotal { t.host with replies := t.host.replies ++ [_] } ≤ 4
      rw [refusalTotal_reply]
      exact (moved.replies h).2
  | held t =>
    obtain ⟨tag', l, hl, rfl⟩ := m
    refine ⟨id, fun h => ⟨?_, h.2⟩, id, hl, id, k.exit, k.alarm, rfl⟩
    have hf : (s.host.replies.filter fun r => r.place == .kept).length = 0 := by
      simp only [keptTotal] at h0; omega
    show (s.host.replies.filter fun r => r.place == .kept).length + 1 ≤ 1
    omega

theorem tryBegin_upholds (s : State) : Upholds s (tryBegin s) := by
  unfold tryBegin
  split
  · exact .refl
  · split
    · exact .refl
    · next hfree =>
      simp only [Bool.or_eq_true, not_or, Bool.not_eq_true, Option.isSome_eq_false_iff,
        Option.isNone_iff_eq_none] at hfree
      exact .ofHost (takeAnswer_upholds _ _ (execute_moved _) (execute_fireKept _)
        (keptTotal_eq_zero hfree.1 hfree.2)) id

/-! ## The rows of the host link -/

theorem discardFrame_upholds (s : State) : Upholds s (discardFrame s) := .withHost id

theorem takeIn_upholds (f : Frame) (s : State) : Upholds s (takeIn f s) := by
  unfold takeIn
  split
  · exact .ofHost (tryBegin_upholds _) id
  · exact .of_butFire (refuseFrame_moves f .linkBusy .refl trivial)

theorem frameComplete_upholds (f : Frame) (s : State) : Upholds s (frameComplete f s) :=
  .ofHost (takeIn_upholds f _) id

theorem bodyComplete_upholds (body : List Byte) (s : State) : Upholds s (bodyComplete body s) := by
  unfold bodyComplete
  split
  · exact frameComplete_upholds ..
  · exact discardFrame_upholds s

theorem takeCharacter_upholds (c : Byte) (s : State) : Upholds s (takeCharacter c s) := by
  unfold takeCharacter
  split
  · split
    · exact .withHost id
    · exact .refl
  · split
    · exact .withHost id
    · exact discardFrame_upholds s
  · exact .withHost id
  · exact .withHost id
  · split
    · exact frameComplete_upholds ..
    · exact discardFrame_upholds s

theorem characterArrives_upholds (c : Byte) (stopBit : Bool) (s : State) :
    Upholds s (characterArrives c stopBit s) := by
  unfold characterArrives
  split
  · exact takeCharacter_upholds c s
  · split
    · exact .refl
    · exact discardFrame_upholds s

theorem noticeSent_upholds (n : Notice) (s : State) : Upholds s (noticeSent n s) :=
  .of_butFire (noticeSent_moves n .refl trivial trivial)

/-- A reply that leaves the queue frees its place. -/
theorem replySent_repliesOk {x : HostLink} (h : RepliesOk x) :
    RepliesOk { x with transmitting := none, replies := x.replies.tail } := by
  have shorter : ∀ p : Reply → Bool, (x.replies.tail.filter p).length ≤ (x.replies.filter p).length :=
    fun p => ((List.tail_sublist _).filter p).length_le
  obtain ⟨hk, hr⟩ := h
  exact ⟨Nat.le_trans (Nat.add_le_add_right (shorter _) _) hk, Nat.le_trans (shorter _) hr⟩

/-! ## The restart -/

theorem takeSettings_fire (d : SettingsData) (b : Bool) (s : State) : (takeSettings d b s).fire = s.fire := rfl

theorem loadSettings_fire (s : State) : (loadSettings s).fire = s.fire := by
  unfold loadSettings
  dsimp only
  split <;> exact takeSettings_fire ..

theorem takeSettings_hatch (d : SettingsData) (b : Bool) (s : State) :
    (takeSettings d b s).hatch = s.hatch := rfl

theorem loadSettings_hatch (s : State) : (loadSettings s).hatch = s.hatch := by
  unfold loadSettings
  dsimp only
  split <;> exact takeSettings_hatch ..

/-- A restart leaves the fire records as its first step gives them (R131), so it keeps both conditions. -/
theorem restart_fireKept (cause : Cause) (s : State) : FireKept (cleared cause s) (restart cause s) := by
  have images : FireKept (cleared cause s) (repairImages (loadImages (cleared cause s))) :=
    FireKept.refl.still (by
      apply repairImages_moves
      · apply loadImages_moves .refl <;> trivial
      all_goals trivial)
  have settings : ∀ v, FireKept v (loadSettings v) := fun v =>
    ⟨fun h hf => by
      rw [loadSettings_hatch]
      exact h (someFire_congr (loadSettings_fire v) ▸ hf),
     (alarmRight_congr (loadSettings_fire v)).mpr⟩
  have resolved : ∀ v, FireKept v ((recordPlaces v).foldl (fun s i => resolveRecord i s) v) := fun v =>
    .foldl _ fun i w => FireKept.refl.still (by apply resolveRecord_moves i .refl <;> trivial)
  have rebuilt : ∀ v, FireKept v ((recordPlaces v).foldl (fun s i => rebuildRecord i s) v) := fun v =>
    .foldl _ fun i w => FireKept.refl.still (by apply rebuildRecord_moves i .refl <;> trivial)
  have posted : ∀ v, FireKept v (formStartupSet (postRestarted (postOutputs v))) := fun v =>
    FireKept.refl.still
      (formStartupSet_moves (postRestarted_moves (postOutputs_moves .refl trivial) trivial) trivial)
  exact (((images.trans (settings _)).trans (resolved _)).trans (rebuilt _)).trans (posted _)

/-- R176, step 1: every invariant holds of the restart values, whatever stood before, if the tables of the
retained store are in canonical form. -/
theorem cleared_invariants (cause : Cause) (s : State) :
    LocksSafe (cleared cause s).hatch ∧ RepliesOk (cleared cause s).host ∧
      NoticesOk (cleared cause s).notices ∧ QueueOk (cleared cause s).link ∧
      (TablesOk s → TablesOk (cleared cause s)) ∧ ExitOpenInFire (cleared cause s) ∧
      AlarmRight (cleared cause s) := by
  have quiet : alarmWanted (cleared cause s) = false := rfl
  refine ⟨⟨nofun, nofun⟩, ⟨Nat.zero_le 1, Nat.zero_le 4⟩, ⟨trivial, nofun⟩, List.nodup_nil, fun h => ?_,
    fun _ => rfl, quiet.symm⟩
  obtain ⟨_, _, _, _, _, _, hrecords, hroster⟩ := h
  exact ⟨trivial, trivial, trivial, trivial, trivial, trivial, hrecords, hroster⟩

/-- R176: a restart upholds every invariant; of the lines it changes only a pending power-on, and the waiting
commands stand. -/
theorem restart_upholds (cause : Cause) (s : State) (h : s.device.powerOnPending = false) :
    Upholds s (restart cause s) := by
  obtain ⟨hl, hr, hn, hq, ht, he, ha⟩ := cleared_invariants cause s
  have m : Upholds (cleared cause s) (restart cause s) :=
    .of_moves (restart_moves cause s) (restart_fireKept cause s)
  refine ⟨fun _ => m.locks hl, fun _ => m.replies hr, fun _ => m.notices hn, fun _ => m.queue hq,
    fun k => m.tables (ht k), fun _ => m.exit he, fun _ => m.alarm ha, m.outside.trans ?_⟩
  simp only [State.outside, cleared, h]

theorem outgoingSent_upholds (s : State) (h : s.device.powerOnPending = false) :
    Upholds s (outgoingSent s) := by
  unfold outgoingSent
  split
  · exact .refl
  · have sent : Upholds s (s.withHost { s.host with transmitting := none, replies := s.host.replies.tail }) :=
      .withHost replySent_repliesOk
    split
    · exact sent.trans (restart_upholds _ _ h)
    · exact sent.trans (tryBegin_upholds _)
  · exact .ofHost (noticeSent_upholds ..) id

end Sys2Proof.Machine
end

section
/-! The step: every row of the table upholds the invariants of Safety, and so does 1 ms on an empty queue; the
state after reset meets them. -/

namespace Sys2Proof.Machine

variable {s t u : State}

/-! ## The events -/

theorem deadlineEnds_butFire (k : Nat) (s : State) : Moves .butFire s (deadlineEnds k s) := by
  unfold deadlineEnds
  split
  · exact .refl
  · split
    · apply finishOrder_moves _ _ .refl <;> trivial
    · exact .refl

theorem dwellEnds_butFire (p : Fin 12) (s : State) : Moves .butFire s (dwellEnds p s) := by
  unfold dwellEnds
  split
  · exact .refl
  · apply completeDwell_moves _ .refl <;> trivial

/-- The power and RST rows. -/
def isLineRow : Instr → Bool
  | .powerOn _ | .powerLoss _ | .resetLineAssert | .resetLineRelease => true
  | _ => false

/-- Every row but the power and RST rows is one event, whose effect upholds the invariants. A request row and a
complete frame are one frame's arrival (log 1). -/
theorem exec_eq_event {c : Instr} (h : isLineRow c = false) :
    ∃ f, (∀ s, exec c s = event f s) ∧
      ∀ s : State, s.device.powerOnPending = false → Upholds s (f s) := by
  cases c with
  | powerOn hrate => cases h
  | powerLoss unmade => cases h
  | resetLineAssert => cases h
  | resetLineRelease => cases h
  | frameTimerExpiry => exact ⟨_, fun _ => rfl, fun s _ => .of_butFire (frameTimerEnds_moves .refl trivial)⟩
  | frameSent => exact ⟨_, fun _ => rfl, outgoingSent_upholds⟩
  | hostCharacterReceived c stop => exact ⟨_, fun _ => rfl, fun s _ => characterArrives_upholds c stop s⟩
  | pollSent => exact ⟨_, fun _ => rfl, fun s _ => .of_butFire (pollEnds_moves .refl trivial)⟩
  | fieldReportReceived report =>
    exact ⟨_, fun _ => rfl, fun s _ => .of_moves (A := .all)
      (by apply reportArrives_moves _ .refl <;> trivial) (reportArrives_fireKept report s)⟩
  | replyWindowExpiry =>
    exact ⟨_, fun _ => rfl, fun s _ => .of_moves (A := .all)
      (by apply replyWindowEnds_moves .refl <;> trivial) (replyWindowEnds_fireKept s)⟩
  | rateBroadcastSent =>
    exact ⟨_, fun _ => rfl, fun s _ => .of_butFire (by apply broadcastEnds_moves .refl <;> trivial)⟩
  | deadlineExpiry slot => exact ⟨_, fun _ => rfl, fun s _ => .of_butFire (deadlineEnds_butFire _ s)⟩
  | probeAgeTimerExpiry node =>
    exact ⟨_, fun _ => rfl, fun s _ => .of_butFire (by apply probeAgeExpired_moves _ .refl <;> trivial)⟩
  | graceTimerExpiry zone =>
    exact ⟨_, fun _ => rfl, fun s _ => .of_butFire (by apply graceExpired_moves _ .refl <;> trivial)⟩
  | minuteTimerExpiry zone =>
    exact ⟨_, fun _ => rfl, fun s _ => .of_butFire (by apply minuteExpired_moves _ .refl <;> trivial)⟩
  | dwellCompletion position => exact ⟨_, fun _ => rfl, fun s _ => .of_butFire (dwellEnds_butFire _ s)⟩
  | carryWindowExpiry record =>
    exact ⟨_, fun _ => rfl, fun s _ => .of_butFire (by apply carryExpired_moves _ .refl <;> trivial)⟩
  | alertTimerExpiry zone =>
    exact ⟨_, fun _ => rfl, fun s _ => .of_moves (A := .all)
      (by apply alertExpired_moves _ .refl <;> trivial) (alertExpired_fireKept zone s)⟩
  | countdownTimerExpiry zone =>
    exact ⟨_, fun _ => rfl, fun s _ => .of_moves (A := .all)
      (by apply countdownExpired_moves _ .refl <;> trivial) (countdownExpired_fireKept zone s)⟩
  | ackTimerExpiry zone =>
    exact ⟨_, fun _ => rfl, fun s _ => .of_moves (A := .all)
      (ackExpired_moves zone .refl trivial trivial) (ackExpired_fireKept zone s)⟩
  | purgeMinimumTimerExpiry =>
    exact ⟨_, fun _ => rfl, fun s _ => .of_butFire (by apply purgeMinExpired_moves .refl <;> trivial)⟩
  | purgeMaximumTimerExpiry =>
    exact ⟨_, fun _ => rfl, fun s _ => .of_butFire (by apply purgeMaxExpired_moves .refl <;> trivial)⟩
  | retryDelayExpiry =>
    exact ⟨_, fun _ => rfl, fun s _ => .of_butFire (by apply retryExpired_moves .refl <;> trivial)⟩
  | wetDwellExpiry =>
    exact ⟨_, fun _ => rfl, fun s _ => .of_butFire (by apply wetDwellExpired_moves .refl <;> trivial)⟩
  | hatchWaitLimitExpiry context =>
    exact ⟨_, fun _ => rfl, fun s _ => .of_butFire (by apply waitLimitExpired_moves _ .refl <;> trivial)⟩
  | loadingLimitExpiry context =>
    exact ⟨_, fun _ => rfl, fun s _ => .of_butFire (by apply loadingLimitExpired_moves _ .refl <;> trivial)⟩
  | collectingLimitExpiry context =>
    exact ⟨_, fun _ => rfl, fun s _ => .of_butFire (by
      apply collectingLimitExpired_moves _ .refl <;> trivial)⟩
  | releaseWaitLimitExpiry context =>
    exact ⟨_, fun _ => rfl, fun s _ => .of_butFire (by apply releaseLimitExpired_moves _ .refl <;> trivial)⟩
  | recallLimitExpiry context =>
    exact ⟨_, fun _ => rfl, fun s _ => .of_butFire (by apply recallLimitExpired_moves _ .refl <;> trivial)⟩
  | _ => exact ⟨_, fun _ => rfl, fun s _ => bodyComplete_upholds _ s⟩

/-- An event upholds what its effect upholds. -/
theorem event_upholds {f : State → State}
    (hf : ∀ s : State, s.device.powerOnPending = false → Upholds s (f s)) (h : event f s = .next t) :
    Upholds s t := by
  unfold event at h
  split at h
  · next hup =>
    cases h
    have hpending : s.device.powerOnPending = false := by
      simp only [State.up, Bool.and_eq_true, Bool.not_eq_true'] at hup
      exact hup.2
    exact ((startEvent_upholds s).trans (hf _ hpending)).trans (settle_upholds _)
  · cases h; exact .refl

theorem exec_upholds {c : Instr} (hc : isLineRow c = false) (h : exec c s = .next t) : Upholds s t := by
  obtain ⟨f, he, hf⟩ := exec_eq_event hc
  exact event_upholds hf ((he s).symm.trans h)

/-! ## The power and RST rows -/

/-- Each invariant passes from s to t, that of ALARM OUT where the part is up. -/
structure Kept (s t : State) : Prop where
  locks : LocksSafe s.hatch → LocksSafe t.hatch
  replies : RepliesOk s.host → RepliesOk t.host
  notices : NoticesOk s.notices → NoticesOk t.notices
  queue : QueueOk s.link → QueueOk t.link
  tables : TablesOk s → TablesOk t
  exit : ExitOpenInFire s → ExitOpenInFire t
  alarm : AlarmOk s → AlarmOk t

theorem Kept.refl : Kept s s := ⟨id, id, id, id, id, id, id⟩

theorem Kept.trans (h : Kept s t) (g : Kept t u) : Kept s u :=
  ⟨g.locks ∘ h.locks, g.replies ∘ h.replies, g.notices ∘ h.notices, g.queue ∘ h.queue,
    g.tables ∘ h.tables, g.exit ∘ h.exit, g.alarm ∘ h.alarm⟩

theorem Upholds.kept (h : Upholds s t) : Kept s t := by
  refine ⟨h.locks, h.replies, h.notices, h.queue, h.tables, h.exit, fun ha hup => ?_⟩
  rw [up_of_outside h.outside] at hup
  exact h.alarm (ha hup)

/-- Of a part that is not up, ALARM OUT asks nothing. -/
theorem alarmOk_of_down (h : s.up = false) : AlarmOk s := fun hup => absurd (h.symm.trans hup) (by decide)

/-- R176: a restart, on lines that may have changed in the same event, meets every invariant; of the tables it
needs those of the retained store. -/
theorem restart_kept (cause : Cause) (d : Device) (s : State) : Kept s (restart cause (s.withDevice d)) := by
  obtain ⟨hl, hr, hn, hq, ht, he, ha⟩ := cleared_invariants cause (s.withDevice d)
  have m : Kept (cleared cause (s.withDevice d)) (restart cause (s.withDevice d)) :=
    (Upholds.of_moves (restart_moves cause _) (restart_fireKept cause _)).kept
  exact ⟨fun _ => m.locks hl, fun _ => m.replies hr, fun _ => m.notices hn, fun _ => m.queue hq,
    fun k => m.tables (ht k), fun _ => m.exit he, fun _ => m.alarm fun _ => ha⟩

theorem pending_of_outside (h : t.outside = s.outside) : t.pending = s.pending := by
  simp only [State.outside, Prod.mk.injEq] at h
  obtain ⟨_, _, _, _, hpending⟩ := h
  exact hpending

theorem restart_pending (cause : Cause) (s : State) : (restart cause s).pending = s.pending :=
  pending_of_outside (s := cleared cause s) (restart_moves cause s).outside

/-- A change of the lines alone that leaves the part down. -/
theorem withDevice_kept {d : Device} (h : (s.withDevice d).up = false) : Kept s (s.withDevice d) :=
  ⟨id, id, id, id, id, id, fun _ => alarmOk_of_down h⟩

/-- Both arbiters choose at the end of a line event of a part that is up. -/
theorem lineEvent_kept {f : State → State} (k : Kept s (f s)) (hp : (f s).pending = s.pending)
    (h : lineEvent f s = .next t) : Kept s t ∧ t.pending = s.pending := by
  unfold lineEvent at h
  dsimp only at h
  split at h
  · cases h
    have g := settle_upholds (f s)
    exact ⟨k.trans g.kept, (pending_of_outside g.outside).trans hp⟩
  · cases h
    exact ⟨k, hp⟩

/-- A part that is quiet and down keeps every invariant: the host link rests, the queue stands, ALARM OUT is
released. -/
theorem quiesce_kept {d : Device} (h : ((quiesce s).withDevice d).up = false) :
    Kept s ((quiesce s).withDevice d) :=
  ⟨id, fun _ => ⟨Nat.zero_le 1, Nat.zero_le 4⟩, id, id, id, id, fun _ => alarmOk_of_down h⟩

theorem undoOne_rising (u : Undo) {st : Store} (h : st.records.rising ∧ st.roster.rising) :
    (undoOne u st).records.rising ∧ (undoOne u st).roster.rising := by
  obtain ⟨hrecords, hroster⟩ := h
  cases u with
  | settings old => exact ⟨hrecords, hroster⟩
  | record i old => exact ⟨Table.set_rising hrecords, hroster⟩
  | courier i old => exact ⟨hrecords, Table.set_rising hroster⟩

/-- The writes that a power loss takes back leave the images' tables in canonical form. -/
theorem undoWrites_rising (n : Nat) {st : Store} (h : st.records.rising ∧ st.roster.rising) :
    (undoWrites n st).records.rising ∧ (undoWrites n st).roster.rising := by
  have folded : ∀ (us : List Undo) (st : Store), st.records.rising ∧ st.roster.rising →
      (us.foldl (fun st u => undoOne u st) st).records.rising ∧
        (us.foldl (fun st u => undoOne u st) st).roster.rising := by
    intro us
    induction us with
    | nil => exact fun _ h => h
    | cons u us ih => exact fun st h => ih _ (undoOne_rising u h)
  exact folded _ st h

theorem undoWrites_kept (n : Nat) (s : State) : Kept s (s.withStore (undoWrites n s.store)) := by
  refine ⟨id, id, id, id, fun h => ?_, id, id⟩
  obtain ⟨hnodes, hrecords, horders, hcontexts, hroster, hprobes, hstored, hcouriers⟩ := h
  obtain ⟨hr, hc⟩ := undoWrites_rising n ⟨hstored, hcouriers⟩
  exact ⟨hnodes, hrecords, horders, hcontexts, hroster, hprobes, hr, hc⟩

theorem powerApplied_kept (hrate : Bool) (s : State) :
    Kept s (powerApplied hrate s) ∧ (powerApplied hrate s).pending = s.pending := by
  unfold powerApplied
  dsimp only
  split
  · exact ⟨.refl, rfl⟩
  · split
    · next hrst =>
      have hr : s.device.rst = true := hrst
      exact ⟨withDevice_kept (by simp [State.up, State.withDevice, hr]), rfl⟩
    · exact ⟨restart_kept _ _ s, restart_pending _ _⟩

theorem powerLost_kept (unmade : Nat) (s : State) :
    Kept s (powerLost unmade s) ∧ (powerLost unmade s).pending = s.pending := by
  unfold powerLost
  dsimp only
  split
  · exact ⟨(undoWrites_kept unmade s).trans (quiesce_kept rfl), rfl⟩
  · exact ⟨.refl, rfl⟩

/-- A part under RST is not up. -/
theorem up_of_rst (h : s.device.rst = true) : s.up = false := by simp [State.up, h]

/-- A part without power is not up. -/
theorem up_of_unpowered (h : s.device.powered = false) : s.up = false := by simp [State.up, h]

theorem rstAsserted_kept (s : State) :
    Kept s (rstAsserted s) ∧ (rstAsserted s).pending = s.pending := by
  unfold rstAsserted
  dsimp only
  split
  · exact ⟨quiesce_kept (d := { s.device with rst := true }) (up_of_rst rfl), rfl⟩
  · exact ⟨withDevice_kept (up_of_rst rfl), rfl⟩

theorem rstReleased_kept (s : State) :
    Kept s (rstReleased s) ∧ (rstReleased s).pending = s.pending := by
  unfold rstReleased
  dsimp only
  split
  · split
    · exact ⟨restart_kept _ _ s, restart_pending _ _⟩
    · next hoff =>
      have hp : s.device.powered = false := Bool.not_eq_true _ ▸ hoff
      exact ⟨withDevice_kept (up_of_unpowered hp), rfl⟩
  · exact ⟨.refl, rfl⟩

/-- Every command keeps every invariant and the queue of waiting commands. -/
theorem exec_kept {c : Instr} (h : exec c s = .next t) : Kept s t ∧ t.pending = s.pending := by
  cases hc : isLineRow c with
  | false =>
    have k := exec_upholds hc h
    exact ⟨k.kept, pending_of_outside k.outside⟩
  | true =>
    cases c with
    | powerOn hrate => exact lineEvent_kept (powerApplied_kept hrate s).1 (powerApplied_kept hrate s).2 h
    | powerLoss unmade => exact lineEvent_kept (powerLost_kept unmade s).1 (powerLost_kept unmade s).2 h
    | resetLineAssert =>
      have k := rstAsserted_kept (startEvent s)
      exact lineEvent_kept (f := fun s => rstAsserted (startEvent s))
        ((startEvent_upholds s).kept.trans k.1) k.2 h
    | resetLineRelease => exact lineEvent_kept (rstReleased_kept s).1 (rstReleased_kept s).2 h
    | _ => cases hc

/-! ## Time -/

/-- A deadline, and every other timer of an entry, counts down in its place. -/
theorem passTime_tables {s : State} (h : TablesOk s) : TablesOk (passTime s) := by
  obtain ⟨hnodes, hrecords, horders, hcontexts, hroster, hprobes, hstored, hcouriers⟩ := h
  exact ⟨hnodes, Table.map_rising hrecords, Table.map_rising horders, Table.map_rising hcontexts, hroster,
    Table.map_rising hprobes, hstored, hcouriers⟩

theorem passTime_zoneFire (s : State) (z : Fin 8) : (passTime s).zoneFire z = (s.zoneFire z).tick := by
  simp [State.zoneFire, passTime]

/-- 1 ms changes no fire state, no acknowledgement and no expiry flag. -/
theorem passTime_kept (s : State) : Kept s (passTime s) := by
  have hf : someFire (passTime s) = someFire s := by
    simp only [someFire, passTime_zoneFire, ZoneFire.tick]
  have ha : alarmWanted (passTime s) = alarmWanted s := by
    simp only [alarmWanted, passTime_zoneFire, ZoneFire.tick]
  exact ⟨id, id, id, id, passTime_tables, fun h k => h (hf.symm.trans k), fun h k => (h k).trans ha.symm⟩

theorem tick_kept (s : State) : Kept s (tick s) := by
  unfold tick
  split
  · have k := (startEvent_upholds s).kept.trans (passTime_kept _)
    exact ⟨k.locks, k.replies, k.notices, k.queue, k.tables, k.exit, k.alarm⟩
  · exact .refl

/-- Every step keeps every invariant: it runs a command on the queue's rest, or lets 1 ms pass. -/
theorem step_kept (h : step s = .next t) : Kept s t := by
  unfold step at h
  split at h
  · have k := (exec_kept h).1
    exact ⟨k.locks, k.replies, k.notices, k.queue, k.tables, k.exit, k.alarm⟩
  · cases h
    exact tick_kept s

/-! ## Every command answers -/

/-- An event answers a next state, whether it is taken or not. -/
theorem event_answers (f : State → State) (s : State) : ∃ t, event f s = .next t := by
  unfold event
  split <;> exact ⟨_, rfl⟩

theorem exec_answers (c : Instr) (s : State) : ∃ t, exec c s = .next t := by
  cases hc : isLineRow c with
  | false =>
    obtain ⟨f, he, _⟩ := exec_eq_event hc
    rw [he]
    exact event_answers f s
  | true =>
    cases c with
    | powerOn hrate => exact ⟨_, rfl⟩
    | powerLoss unmade => exact ⟨_, rfl⟩
    | resetLineAssert => exact ⟨_, rfl⟩
    | resetLineRelease => exact ⟨_, rfl⟩
    | _ => cases hc

theorem isLineRow_eq_false {c : Instr} (h1 : ∀ h, c ≠ .powerOn h) (h2 : ∀ n, c ≠ .powerLoss n)
    (h3 : c ≠ .resetLineAssert) (h4 : c ≠ .resetLineRelease) : isLineRow c = false := by
  unfold isLineRow
  split
  · next h => exact absurd rfl (h1 h)
  · next n => exact absurd rfl (h2 n)
  · exact absurd rfl h3
  · exact absurd rfl h4
  · rfl

/-! ## 1 ms -/

/-- Changing every entry in its place changes what is read there. -/
theorem Table.get?_map {α β : Type} (f : α → β) (t : Table α) (n : Nat) :
    Table.get? (t.map fun p => (p.1, f p.2)) n = (t.get? n).map f := by
  induction t with
  | nil => rfl
  | cons p t ih =>
    obtain ⟨k, v⟩ := p
    simp only [List.map_cons, Table.get?]
    split
    · rfl
    · exact ih

theorem passTime_order? {k : Nat} {o : Order} (h : s.order? k = some o) :
    (passTime s).order? k = some o.tick :=
  (Table.get?_map Order.tick s.orders k).trans (congrArg (Option.map Order.tick) h)

theorem passTime_probe {i : Nat} {p : Probe} (h : s.climate.probes.get? i = some p) :
    (passTime s).climate.probes.get? i = some p.tick :=
  (Table.get?_map Probe.tick s.climate.probes i).trans (congrArg (Option.map Probe.tick) h)

theorem passTime_record? {i : Nat} {r : Record} (h : s.record? i = some r) :
    (passTime s).record? i = some r.tick :=
  (Table.get?_map Record.tick s.custody.records i).trans (congrArg (Option.map Record.tick) h)

theorem passTime_context? {c : Nat} {x : Context} (h : s.context? c = some x) :
    (passTime s).context? c = some x.tick :=
  (Table.get?_map Context.tick s.handover.contexts c).trans (congrArg (Option.map Context.tick) h)

theorem passTime_zoneClimate (s : State) (z : Fin 8) :
    (passTime s).zoneClimate z = (s.zoneClimate z).tick (readingKnown s z) := by
  simp [State.zoneClimate, passTime]

theorem passTime_position (s : State) (p : Fin 12) : (passTime s).position p = (s.position p).tick := by
  simp [State.position, passTime]

theorem Order.tick_eq (o : Order) :
    o.tick = if o.state.isWaiting then { o with deadline := o.deadline.map (· - 1) } else o := by
  cases h : o.state.isWaiting <;> simp [Order.tick, countDownIf, countDown, h]

theorem ZoneClimate.tick_eq (known : Bool) (c : ZoneClimate) :
    c.tick known =
      if known then { c with grace := c.grace.map (· - 1), minuteTimer := c.minuteTimer.map (· - 1) }
      else c := by
  cases known <;> rfl

theorem Position.tick_eq (x : Position) :
    x.tick = if x.paused then x else { x with dwell := x.dwell.map (· - 1) } := by
  obtain ⟨occupant, dwell, paused⟩ := x
  cases paused <;> rfl

theorem Activity.tick_of_not_awaiting {a : Activity} (h : ∀ x left, a ≠ .awaiting x left) : a.tick = a := by
  cases a with
  | awaiting x left => exact absurd rfl (h x left)
  | _ => rfl

/-- A part that is up counts 1 ms in every block, and queues what falls due. -/
theorem tick_up (h : s.up = true) :
    tick s = (passTime (startEvent s)).withPending
      (s.pending ++ dueExpiries (passTime (startEvent s))) := by
  unfold tick
  rw [if_pos h]
  rfl

theorem tick_down (h : s.up = false) : tick s = s := by
  unfold tick
  rw [h]
  rfl

theorem step_empty (h : s.pending = []) : step s = .next (tick s) := by
  unfold step
  rw [h]

end Sys2Proof.Machine

namespace Sys2Proof

open Machine

/-- Settles O2: on an empty queue every block counts its own timers. -/
theorem emptyQueueTakesTime : Obligations.EmptyQueueTakesTime := by
  intro s hempty
  refine ⟨step_empty hempty, fun hdown => ?_, fun hup => ⟨tick s, step_empty hempty, ?_⟩⟩
  · rw [step_empty hempty, tick_down hdown]
  rw [tick_up hup, hempty, List.nil_append]
  refine ⟨rfl, rfl, rfl, rfl, rfl, rfl, fun x left hwait => ?reply, fun hwait => ?noReply,
    fun k o ho => ?deadline, fun i p hp => passTime_probe hp, fun z => ?zone, fun p => ?dwell,
    fun i r hr => passTime_record? hr, fun z => passTime_zoneFire _ z, rfl,
    fun c x hx => passTime_context? hx⟩
  case reply =>
    show { s.link with activity := s.link.activity.tick } = _
    rw [hwait]
    rfl
  case noReply =>
    show { s.link with activity := s.link.activity.tick } = _
    rw [Activity.tick_of_not_awaiting hwait]
  case deadline => rw [← Order.tick_eq]; exact passTime_order? ho
  case zone => exact (passTime_zoneClimate _ z).trans (ZoneClimate.tick_eq ..)
  case dwell => exact (passTime_position _ p).trans (Position.tick_eq _)

/-- Settles O6: lock commands follow the wanted locks (R133), which every move of the hatch keeps safe. -/
theorem stepKeepsLocksSafe : Obligations.StepKeepsLocksSafe := fun _ _ hs h => (step_kept h).locks hs

/-- Settles O7: a reply enters the kept place only where it is free (R4), a refusal only where one of the four
places is. -/
theorem stepKeepsReplyPlaces : Obligations.StepKeepsReplyPlaces := fun _ _ hs h => (step_kept h).replies hs

/-- Settles O8: a notice is posted at its key's place. -/
theorem stepKeepsNoticeKeys : Obligations.StepKeepsNoticeKeys := fun _ _ hs h => (step_kept h).notices hs

/-- Settles O9: a posted command replaces the one of its node and kind. -/
theorem stepKeepsCommandKeys : Obligations.StepKeepsCommandKeys := fun _ _ hs h => (step_kept h).queue hs

/-- Settles O10: every table is changed by puts, erasures and maps in place. -/
theorem stepKeepsTables : Obligations.StepKeepsTables := fun _ _ hs h => (step_kept h).tables hs

/-- Settles O11: the Hatch Arbiter is told of every zone that comes into fire, in the same event. -/
theorem stepKeepsExitOpenInFire : Obligations.StepKeepsExitOpenInFire :=
  fun _ _ hs h => (step_kept h).exit hs

/-- Settles O12: ALARM OUT is worked out afresh with every fire record taken. -/
theorem stepKeepsAlarm : Obligations.StepKeepsAlarm := fun _ _ hs h => (step_kept h).alarm hs

/-- Settles O3, by the form of the rows: an event or a line event. -/
theorem everyCommandAnswersANextState : Obligations.EveryCommandAnswersANextState := exec_answers

/-- Settles O4: the lines stand in every event, the queue in every command. -/
theorem onlyLineRowsTouchTheLines : Obligations.OnlyLineRowsTouchTheLines := fun _ _ _ h =>
  ⟨(exec_kept h).2, fun h1 h2 h3 h4 => (exec_upholds (isLineRow_eq_false h1 h2 h3 h4) h).outside⟩

/-- Settles O1: the queue's front is taken off and run. -/
theorem stepRunsFrontCommand : Obligations.StepRunsFrontCommand := fun _ _ _ => rfl

/-- Settles O5: at reset both hatch doors are locked, the queues and tables are empty and no zone is in fire. -/
theorem resetMeetsInvariants : Obligations.ResetMeetsInvariants :=
  ⟨⟨nofun, nofun⟩, ⟨Nat.zero_le 1, Nat.zero_le 4⟩, ⟨trivial, nofun⟩, List.nodup_nil,
    ⟨trivial, trivial, trivial, trivial, trivial, trivial, trivial, trivial⟩, fun _ => rfl, fun _ => rfl⟩

/-- Settles O13, by the register's value after each of the nine bytes. -/
theorem crcCheckValue : Obligations.CrcCheckValue := by
  have h1 : crcByte 0xFFFF#16 0x31 = 51074 := by decide
  have h2 : crcByte 51074 0x32 = 15802 := by decide
  have h3 : crcByte 15802 0x33 = 23502 := by decide
  have h4 : crcByte 23502 0x34 = 21321 := by decide
  have h5 : crcByte 21321 0x35 = 17760 := by decide
  have h6 : crcByte 17760 0x36 = 12020 := by decide
  have h7 : crcByte 12020 0x37 = 30488 := by decide
  have h8 : crcByte 30488 0x38 = 41259 := by decide
  have h9 : crcByte 41259 0x39 = 10673 := by decide
  simp only [Obligations.CrcCheckValue, crc, List.foldl_cons, List.foldl_nil, h1, h2, h3, h4, h5, h6, h7, h8,
    h9]

end Sys2Proof
end

section
/-! The host link (R1 to R4, R8, R14): reception of a frame by its characters, admission, what a sent frame
frees, and what an idle line sends next. -/

namespace Sys2Proof.Machine

variable {s t u : State} {tag code : Byte} {ops : List Byte}

/-! ## One event -/

/-- A part that is up takes an event, and then its arbiters choose. -/
theorem takes_event {f : State → State} (h : s.up = true) (e : f (startEvent s) = t) :
    event f s = .next (settle t) := by
  rw [event_up h, e]

/-! ## Reception -/

/-- A part in the middle of a frame: the receive state, with the frame timer started at the sync character. -/
def receiving (r : Receiver) (s : State) : State :=
  s.withHost { s.host with receiver := r, frameTimer := some Config.frameTime }

theorem sync_receiving (h : s.host.receiver = .hunt) : characterArrives 0x5A true s = receiving .length s := by
  simp only [characterArrives, takeCharacter, h, receiving, if_true]

theorem length_receiving {c : Byte} (h : bodyLengthOk c.toNat = true) (s : State) :
    characterArrives c true (receiving .length s) = receiving (.body c.toNat []) s :=
  if_pos h

/-- The body's characters are gathered, and the last one is followed by the check bytes. -/
theorem body_receiving {n : Nat} (s : State) (rest : List Byte) :
    ∀ taken : List Byte, rest ≠ [] → taken.length + rest.length = n →
      rest.foldl (fun s c => characterArrives c true s) (receiving (.body n taken) s) =
        receiving (.check n (taken ++ rest) none) s := by
  induction rest with
  | nil => intro _ h; exact absurd rfl h
  | cons c rest ih =>
    intro taken _ hn
    have one : characterArrives c true (receiving (.body n taken) s) =
        receiving (if (taken ++ [c]).length < n then .body n (taken ++ [c])
          else .check n (taken ++ [c]) none) s := rfl
    have hlen : (taken ++ [c]).length + rest.length = n := by
      rw [← hn, List.length_append, List.length_cons, List.length_cons, List.length_nil]; omega
    rw [List.foldl_cons, one]
    cases rest with
    | nil => rw [if_neg (by rw [← hlen]; exact Nat.lt_irrefl _)]; rfl
    | cons d rest =>
      rw [if_pos (by rw [← hlen]; exact Nat.lt_add_of_pos_right (Nat.succ_pos _)),
        ih (taken ++ [c]) (List.cons_ne_nil _ _) hlen, List.append_assoc]
      rfl

/-- The right check bytes complete the frame, whose timer is discarded. -/
theorem check_receiving (n : Nat) (taken : List Byte) (s : State) :
    (fieldHalf (crc (byteOf n :: taken))).foldl (fun s c => characterArrives c true s)
      (receiving (.check n taken none) s) = frameComplete (.ofBody taken) s :=
  if_pos rfl

/-- A body length is the length byte's value. -/
theorem lengthByte_toNat {n : Nat} (h : bodyLengthOk n = true) : (byteOf n).toNat = n := by
  simp only [bodyLengthOk, Bool.and_eq_true, decide_eq_true_eq] at h
  rw [byteOf_toNat]
  omega

theorem serialFrame {body : List Byte} (hl : bodyLengthOk body.length = true)
    (h : s.host.receiver = .hunt) :
    (hostWire body).foldl (fun s c => characterArrives c true s) s = frameComplete (.ofBody body) s := by
  have hn := lengthByte_toNat hl
  have hne : body ≠ [] := by
    rintro rfl
    exact absurd hl (by decide)
  have head : [0x5A, byteOf body.length].foldl (fun s c => characterArrives c true s) s =
      receiving (.body body.length []) s := by
    rw [List.foldl_cons, List.foldl_cons, List.foldl_nil, sync_receiving h,
      length_receiving (by rw [hn]; exact hl), hn]
  rw [hostWire, List.foldl_append, List.foldl_append, head, body_receiving s body [] hne (Nat.zero_add _),
    List.nil_append, check_receiving]

/-- A body of an allowed length is the complete frame. -/
theorem bodyComplete_of_ok {body : List Byte} (h : bodyLengthOk body.length = true) (s : State) :
    bodyComplete body s = frameComplete (.ofBody body) s := if_pos h

/-! ## Admission -/

/-- A frame waits behind a request in execution or a reply in the kept place (R4). -/
theorem tryBegin_waits (h : s.host.executing.isSome = true ∨ keptOccupied s = true) : tryBegin s = s := by
  unfold tryBegin
  split
  · rfl
  · exact if_pos (by rcases h with h | h <;> simp [h])

theorem tryBegin_empty (h : s.host.buffer = none) : tryBegin s = s := by
  unfold tryBegin
  rw [h]

/-- R2: with a refusal place free the frame is answered. -/
theorem refuseFrame_answered {f : Frame} {st : Status} (h : refusalTotal s.host < 4) :
    refuseFrame f st s = s.withHost { s.host with replies := s.host.replies ++
      [{ place := .refusal, tag := f.tag, code := f.code, status := st, data := [] }] } :=
  if_pos h

/-- R2: with the four refusal places taken the frame is dropped. -/
theorem refuseFrame_dropped {f : Frame} {st : Status} (h : 4 ≤ refusalTotal s.host) :
    refuseFrame f st s = s.withHost { s.host with framesDiscarded := true } :=
  if_neg (Nat.not_lt.mpr h)

theorem takeIn_empty {f : Frame} (h : s.host.buffer = none) :
    takeIn f s = tryBegin (s.withHost { s.host with buffer := some f }) := by
  unfold takeIn
  rw [h]

theorem takeIn_full {f : Frame} (h : s.host.buffer.isSome = true) :
    takeIn f s = refuseFrame f .linkBusy s := by
  obtain ⟨g, hg⟩ := Option.isSome_iff_exists.mp h
  unfold takeIn
  rw [hg]

/-- A frame's complete body is let in (R2). -/
theorem frame_takes (h : s.up = true) (hl : bodyLengthOk (ops.length + 2) = true)
    (e : takeIn ⟨tag, code, ops⟩
      ((startEvent s).withHost { s.host with receiver := .hunt, frameTimer := none }) = t) :
    Takes (.hostFrameReceived (tag :: code :: ops)) s t :=
  takes_event (f := bodyComplete (tag :: code :: ops)) h
    ((bodyComplete_of_ok (body := tag :: code :: ops) hl _).trans e)

/-! ## What a sent frame frees -/

/-- The host link with the frame on the line sent: a reply has freed its place. -/
def HostLink.replySent (h : HostLink) : HostLink :=
  { h with transmitting := none, replies := h.replies.tail }

theorem outgoingSent_reply {r : Reply} (h : s.host.transmitting = some (.reply r))
    (hr : r.isRestart = false) : outgoingSent s = tryBegin (s.withHost s.host.replySent) := by
  unfold outgoingSent
  rw [h]
  dsimp only
  rw [hr]
  rfl

theorem outgoingSent_restart {r : Reply} (h : s.host.transmitting = some (.reply r))
    (hr : r.isRestart = true) :
    outgoingSent s = restart .restartRequest (s.withHost s.host.replySent) := by
  unfold outgoingSent
  rw [h]
  dsimp only
  exact if_pos hr

theorem outgoingSent_notice {n : Notice} (h : s.host.transmitting = some (.notice n)) :
    outgoingSent s = noticeSent n (s.withHost { s.host with transmitting := none }) := by
  unfold outgoingSent
  rw [h]

/-- R4: a request that waited begins as if it arrived then, where no other frame is in reception. -/
theorem waiting_as_received {r : Reply} {f : Frame} (hup : s.up = true)
    (ht : s.host.transmitting = some (.reply r)) (hr : r.isRestart = false) (hb : s.host.buffer = some f)
    (hh : s.host.receiver = .hunt) (hn : s.host.frameTimer = none)
    (hl : bodyLengthOk (f.operands.length + 2) = true) :
    exec .frameSent s = exec (.hostFrameReceived (f.tag :: f.code :: f.operands))
      (s.withHost { s.host.replySent with buffer := none }) := by
  have same : { s.host.replySent with receiver := .hunt, frameTimer := none, buffer := some f } =
      s.host.replySent := by
    simp only [HostLink.replySent, ← hh, ← hn, ← hb]
  have sent : exec .frameSent s = .next (settle (tryBegin ((startEvent s).withHost s.host.replySent))) :=
    takes_event (f := outgoingSent) hup (outgoingSent_reply ht hr)
  have received := frame_takes (s := s.withHost { s.host.replySent with buffer := none }) hup hl
    (takeIn_empty (f := f) rfl)
  rw [sent, received]
  exact congrArg (fun h => Host.Outcome.next (settle (tryBegin ((startEvent s).withHost h)))) same.symm

/-! ## What an idle line sends next -/

/-- The arbiter of the field link leaves the host link and the notices to the transmit arbiter. -/
theorem settle_host_notices (u : State) :
    (settle u).host = (settleHost u).host ∧ (settle u).notices = (settleHost u).notices := by
  have key : ∀ v : State, v.host = u.host → v.notices = u.notices →
      (settleHost v).host = (settleHost u).host ∧ (settleHost v).notices = (settleHost u).notices := by
    intro v hh hn
    unfold settleHost nextNotice
    rw [hh, hn]
    split
    · exact ⟨hh, hn⟩
    · split
      · exact ⟨rfl, hn⟩
      · split
        · exact ⟨hh, hn⟩
        · exact ⟨rfl, rfl⟩
  have e := settleField_eq u
  unfold settle
  rw [e]
  exact key _ rfl rfl

theorem settleHost_notice {n : Notice} (ht : u.host.transmitting = none) (hr : u.host.replies = [])
    (hn : nextNotice u = some n) :
    settleHost u = (u.withNotices { u.notices with pending := u.notices.pending.erase n.rank }).withHost
      { u.host with transmitting := some (.notice n) } := by
  unfold settleHost
  rw [ht, hr, hn]

theorem settleHost_silent (ht : u.host.transmitting = none) (hr : u.host.replies = [])
    (hn : nextNotice u = none) : settleHost u = u := by
  unfold settleHost
  rw [ht, hr, hn]

/-- In a table in canonical form an entry is read at its place. -/
theorem Table.get?_of_mem {α : Type} {t : Table α} {lo k : Nat} {v : α} (h : t.risingFrom lo)
    (hm : (k, v) ∈ t) : t.get? k = some v := by
  induction t generalizing lo with
  | nil => cases hm
  | cons p t ih =>
    obtain ⟨j, w⟩ := p
    obtain ⟨_, ht⟩ := h
    rcases List.mem_cons.mp hm with e | hm
    · cases e; exact if_pos rfl
    · have hj : j + 1 ≤ k := Table.le_of_mem_places ht (List.mem_map_of_mem (f := Prod.fst) hm)
      exact (if_neg (by omega)).trans (ih ht hm)

/-- What is read at a place is an entry of the table. -/
theorem Table.mem_of_get? {α : Type} {t : Table α} {k : Nat} {v : α} (h : t.get? k = some v) :
    (k, v) ∈ t := by
  induction t with
  | nil => cases h
  | cons p t ih =>
    obtain ⟨j, w⟩ := p
    unfold Table.get? at h
    split at h
    · next e => cases h; subst e; exact List.mem_cons_self
    · exact List.mem_cons_of_mem _ (ih h)

/-- In canonical form the first entry that meets a condition is the one in the lowest place. -/
theorem Table.find?_eq_of_lowest {α : Type} {t : Table α} {lo k : Nat} {v : α} {P : Nat × α → Bool}
    (h : t.risingFrom lo) (hm : (k, v) ∈ t) (hp : P (k, v) = true)
    (hlow : ∀ p ∈ t, P p = true → k ≤ p.1) : t.find? P = some (k, v) := by
  induction t generalizing lo with
  | nil => cases hm
  | cons q t ih =>
    obtain ⟨j, w⟩ := q
    obtain ⟨_, ht⟩ := h
    rcases List.mem_cons.mp hm with e | hm
    · cases e; exact List.find?_cons_of_pos hp
    · have hj : j + 1 ≤ k := Table.le_of_mem_places ht (List.mem_map_of_mem (f := Prod.fst) hm)
      have hq : ¬ P (j, w) = true := fun hq => by
        have := hlow _ List.mem_cons_self hq
        have hkj : k ≤ j := this
        omega
      rw [List.find?_cons_of_neg hq]
      exact ih ht hm fun p hp' => hlow p (List.mem_cons_of_mem _ hp')

/-- A notice waits at its key's place and its class is not masked (R10, R13). -/
def Waits (u : State) (n : Notice) : Prop :=
  u.notices.pending.get? n.rank = some n ∧ (n.cls = 0 ∨ u.notices.mask.getLsbD n.cls = false)

theorem classMasked_eq_false_iff (mask : Byte) (cls : Nat) :
    classMasked mask cls = false ↔ cls = 0 ∨ mask.getLsbD cls = false := by
  simp only [classMasked, Bool.and_eq_false_iff, bne_eq_false_iff_eq]

/-- An entry of the pending set that is not masked waits. -/
theorem waits_of_mem (h : NoticesOk u.notices) {p : Nat × Notice} (hm : p ∈ u.notices.pending)
    (hp : classMasked u.notices.mask p.2.cls = false) : Waits u p.2 := by
  obtain ⟨hrising, hplace⟩ := h
  have e : p.1 = p.2.rank := hplace p hm
  exact ⟨e ▸ Table.get?_of_mem hrising hm, (classMasked_eq_false_iff ..).mp hp⟩

theorem nextNotice_lowest (h : NoticesOk u.notices) {n : Notice} (hn : Waits u n)
    (hlow : ∀ m, Waits u m → n.rank ≤ m.rank) : nextNotice u = some n := by
  obtain ⟨hget, hmask⟩ := hn
  have hfind : u.notices.pending.find? (fun p => !classMasked u.notices.mask p.2.cls) =
      some (n.rank, n) := by
    refine Table.find?_eq_of_lowest h.1 (Table.mem_of_get? hget) ?_ fun p hp hopen => ?_
    · simpa using (classMasked_eq_false_iff ..).mpr hmask
    · have hw := waits_of_mem h hp (by simpa using hopen)
      rw [h.2 p hp]
      exact hlow _ hw
  unfold nextNotice
  rw [hfind]
  rfl

theorem nextNotice_none (h : NoticesOk u.notices) (hnone : ∀ n, ¬Waits u n) : nextNotice u = none := by
  unfold nextNotice
  rw [List.find?_eq_none.mpr fun p hp hopen => hnone p.2 (waits_of_mem h hp (by simpa using hopen))]
  rfl

/-! ## The notices that free a slot -/

theorem noticeSent_order (k tag : Nat) (st : OrderState) (a b : Nat) (s : State) :
    noticeSent (.orderState k tag st a b) s = orderStateSent k st s := rfl

theorem orderStateSent_eq (k : Nat) (st : OrderState) (s : State) :
    orderStateSent k st s = s.withOrders (if st.isFinished then s.orders.erase k else s.orders) := by
  unfold orderStateSent
  split <;> rfl

theorem handoverStateSent_frees {c : Nat} {x : Context} (hx : s.context? c = some x) (hl : x.live = false) :
    (handoverStateSent c .ended s).context? c = none ∧
      ∀ j, j ≠ c → (handoverStateSent c .ended s).context? j = s.context? j := by
  have e : handoverStateSent c .ended s =
      s.withHandover { s.handover with contexts := s.handover.contexts.erase c } := by
    unfold handoverStateSent
    rw [hx]
    exact if_pos ⟨rfl, by simp [hl]⟩
  rw [e]
  exact ⟨Table.get?_erase_same .., fun j hj => Table.get?_erase_other _ hj⟩

theorem handoverStateSent_keeps {c : Nat} {x : Context} {ph : Phase} (hx : s.context? c = some x)
    (h : ph ≠ .ended ∨ x.live = true) : handoverStateSent c ph s = s := by
  unfold handoverStateSent
  rw [hx]
  exact if_neg fun ⟨he, hl⟩ => h.elim (· he) hl

/-! ## Confirmation by an alert timer -/

/-- Every block but the host link and the fire records. -/
def Allow.told : Allow := { Allow.all with fire := False, host := False }

/-- R115: the state in which a confirmation has taken the zone's record. -/
theorem confirm_of_putFire (z : Fin 8) (f : ZoneFire) (s : State) :
    ∃ p, p = putFire z (f.confirmed (s.param .ackTime * 1000)) s ∧
      Moves .told (preempt p) (confirm z f s) := by
  refine ⟨_, rfl, ?_⟩
  rw [confirm_eq]
  apply climateFireTold_moves
  · apply updateRackPause_moves
    · apply ordersFailFire_moves
      · apply hatchFireTold_moves
        · apply fireAbort_moves .refl <;> trivial
        all_goals trivial
      all_goals trivial
    all_goals trivial
  all_goals trivial

theorem updateAlarm_host (s : State) : (updateAlarm s).host = s.host := by
  unfold updateAlarm; dsimp only; split <;> rfl

theorem putFire_host (z : Fin 8) (new : ZoneFire) (s : State) : (putFire z new s).host = s.host := by
  unfold putFire
  rw [updateAlarm_host]
  split <;> rfl

theorem preempt_fire (s : State) : (preempt s).fire = s.fire := by
  unfold preempt refuseFrame
  split
  · rfl
  · split <;> rfl

theorem zoneFire_congr (h : t.fire = s.fire) (z : Fin 8) : t.zoneFire z = s.zoneFire z := by
  simp only [State.zoneFire, h]

/-- A confirmed zone is in fire. -/
theorem confirm_state (z : Fin 8) (f : ZoneFire) (s : State) :
    ((confirm z f s).zoneFire z).state = .confirmed := by
  obtain ⟨p, hp, m⟩ := confirm_of_putFire z f s
  rw [zoneFire_congr ((m.fire_eq id).trans (preempt_fire p)), hp, putFire_zoneFire_same]
  rfl

theorem preempt_empty (h : s.host.buffer = none) : preempt s = s := by
  unfold preempt
  rw [h]

theorem preempt_waiting {f : Frame} (h : s.host.buffer = some f) :
    preempt s = refuseFrame f .firePreempted (s.withHost { s.host with buffer := none }) := by
  unfold preempt
  rw [h]

theorem refuseFrame_host (f : Frame) (st : Status) (s : State) :
    (refuseFrame f st s).host =
      if refusalTotal s.host < 4 then
        { s.host with replies := s.host.replies ++
          [{ place := .refusal, tag := f.tag, code := f.code, status := st, data := [] }] }
      else { s.host with framesDiscarded := true } :=
  apply_ite State.host ..

/-- R3: what a pre-emption does to the host link, the host link says. -/
theorem preempt_host_congr (h : t.host = s.host) : (preempt t).host = (preempt s).host := by
  cases hb : s.host.buffer with
  | none => rw [preempt_empty hb, preempt_empty (h ▸ hb), h]
  | some f =>
    rw [preempt_waiting hb, preempt_waiting (h ▸ hb), refuseFrame_host, refuseFrame_host, State.withHost_host,
      State.withHost_host, h]

theorem changeFire_host (z : Fin 8) (new : ZoneFire) (s : State) : (changeFire z new s).host = s.host := by
  unfold changeFire
  dsimp only
  split
  · exact putFire_host ..
  · have m : Moves .told (putFire z new s) (tellFire z (s.zoneFire z).state (putFire z new s)) := by
      apply tellFire_moves z _ .refl <;> trivial
    exact (m.host_eq id).trans (putFire_host ..)

theorem countdownTest_host (z : Fin 8) (s : State) : (countdownTest z s).host = s.host := by
  unfold countdownTest
  dsimp only
  split
  · exact changeFire_host ..
  · rfl

/-- R3: of the host link a confirmation changes what the pre-emption of the waiting frame does. -/
theorem confirmAndCount_host (z : Fin 8) (f : ZoneFire) (s : State) :
    (confirmAndCount z f s).host = (preempt s).host := by
  obtain ⟨p, hp, m⟩ := confirm_of_putFire z f s
  have hc : (confirm z f s).host = (preempt s).host := by
    rw [m.host_eq id, hp]
    exact preempt_host_congr (putFire_host ..)
  exact (countdownTest_host z _).trans hc

theorem changeFire_state (z : Fin 8) (new : ZoneFire) (s : State) :
    ((changeFire z new s).zoneFire z) = new := by
  unfold changeFire
  dsimp only
  split
  · exact putFire_zoneFire_same ..
  · rw [zoneFire_congr ((tellFire_butFire z _ _).fire_eq id), putFire_zoneFire_same]

/-- The countdown test leaves a zone in fire. -/
theorem countdownTest_inFire {z : Fin 8} (h : (s.zoneFire z).state.inFire = true) :
    ((countdownTest z s).zoneFire z).state.inFire = true := by
  unfold countdownTest
  dsimp only
  split
  · rw [changeFire_state]; rfl
  · exact h

theorem confirmAndCount_inFire (z : Fin 8) (f : ZoneFire) (s : State) :
    ((confirmAndCount z f s).zoneFire z).state.inFire = true :=
  countdownTest_inFire (by rw [confirm_state]; rfl)

theorem alertExpired_confirms {z : Fin 8} (h : (s.zoneFire z).state = .alert)
    (ht : (s.zoneFire z).alertTimer.isSome = true) :
    alertExpired z s = confirmAndCount z (s.zoneFire z) s := if_pos ⟨h, ht⟩

/-! ## Refusals by the Host Link Controller -/

/-- The part refuses what `execute` refuses, and that has no effect (R4, R5). -/
theorem refuses_of_execute {st : Status} (h : HostReady s) (hl : bodyLengthOk (ops.length + 2) = true)
    (e : execute ⟨tag, code, ops⟩ (taken s) = refuse st (taken s)) :
    request tag code ops s = .next (settle (withReply tag code st [] (taken s))) :=
  answers_of_execute h hl e

theorem execute_badTag : execute ⟨0, code, ops⟩ s = refuse .badTag s := if_pos rfl

theorem operandsOk_unknown (h : requestCodes.contains code.toNat = false) : operandsOk code.toNat ops = none := by
  unfold operandsOk
  split
  all_goals first | rfl | (next e => rw [e] at h; exact absurd h (by decide))

theorem execute_unknown (ht : tag ≠ 0) (h : requestCodes.contains code.toNat = false) :
    execute ⟨tag, code, ops⟩ s = refuse .unknownRequest s := by
  simp only [execute, if_neg ht, operandsOk_unknown h]

theorem execute_badLength (ht : tag ≠ 0) (h : operandsOk code.toNat ops = some false) :
    execute ⟨tag, code, ops⟩ s = refuse .badOperand s := by
  simp only [execute, if_neg ht, h]

/-- A filler byte that is not 0x00 fails the third check (R4). -/
theorem filler_refused {code b : Byte} (h : HostReady s) (ht : tag ≠ 0) (hb : b ≠ 0)
    (ho : operandsOk code.toNat [b] = some (fillerOk [b])) :
    request tag code [b] s = .next (settle (withReply tag code .badOperand [] (taken s))) := by
  have hfill : fillerOk [b] = false := by simpa [fillerOk] using hb
  exact refuses_of_execute h rfl (execute_badLength ht (ho.trans (congrArg some hfill)))

end Sys2Proof.Machine

namespace Sys2Proof

open Machine

/-- Settles O14: sync, length, body and check bytes take the receiver through its states. -/
theorem serialFrameIsCompleteFrame : Obligations.SerialFrameIsCompleteFrame :=
  fun _ _ hl hhunt => serialFrame hl hhunt

/-- Settles O15, by the receive state. -/
theorem characterReception : Obligations.CharacterReception := by
  intro s c hup e gone
  have arrives : ∀ {stop t}, characterArrives c stop e = t → Takes (.hostCharacterReceived c stop) s t :=
    fun {stop} _ h => takes_event (f := characterArrives c stop) hup h
  have good : ∀ {t}, takeCharacter c e = t → Takes (.hostCharacterReceived c true) s t := fun h => arrives h
  have hr : e.host.receiver = s.host.receiver := rfl
  refine ⟨fun h hc => good ?_, fun h hc => good ?_, fun h => arrives (if_pos h), fun h => arrives (if_neg h),
    fun h h3 h253 => good ?_, fun h hout => good ?_, fun n taken h hlt => good ?_, fun n taken h hge => good ?_,
    fun n taken h => good ?_, fun n taken first h hne => good ?_, fun n taken first h hl heq => ?_⟩
  all_goals rw [← hr] at h
  · subst hc; simp only [takeCharacter, h, if_true]; rfl
  · simp only [takeCharacter, h, if_neg hc]
  · have hok : bodyLengthOk c.toNat = true := by simp [bodyLengthOk, h3, h253]
    simp only [takeCharacter, h, hok, if_true]; rfl
  · have hbad : bodyLengthOk c.toNat = false := by simp only [bodyLengthOk]; rw [Bool.and_eq_false_iff]; simp; omega
    simp only [takeCharacter, h, hbad, Bool.false_eq_true, if_false]; rfl
  · simp only [takeCharacter, h, List.length_append, List.length_singleton, if_pos hlt]; rfl
  · simp only [takeCharacter, h, List.length_append, List.length_singleton, if_neg (Nat.not_lt.mpr hge)]; rfl
  · simp only [takeCharacter, h]; rfl
  · simp only [takeCharacter, h, if_neg hne]; rfl
  · have taken' : takeCharacter c e = bodyComplete taken e := by
      rw [bodyComplete_of_ok hl]
      simp only [takeCharacter, h, if_pos heq]
    exact (good taken').trans (event_up hup (bodyComplete taken)).symm

/-- Settles O17, by the notice that was sent: it frees its slot, or its block is left as it was. -/
theorem sentNoticesFreeSlots : Obligations.SentNoticesFreeSlots := by
  intro s hup
  refine ⟨fun k tag st h n ht => ⟨_, takes_event (f := outgoingSent) hup (outgoingSent_notice ht), ?_⟩,
    fun c id d ph o st m k x ht hx =>
      ⟨_, takes_event (f := outgoingSent) hup (outgoingSent_notice ht), ?_, ?_⟩⟩
  · rw [noticeSent_order, orderStateSent_eq]
    refine ⟨fun hf => ?_, fun hf => ?_, rfl⟩
    · rw [if_pos hf]
      exact ⟨Table.get?_erase_same .., fun j hj => Table.get?_erase_other _ hj⟩
    · rw [if_neg (by rw [hf]; exact Bool.false_ne_true)]
      rfl
  · rintro rfl hdead
    exact handoverStateSent_frees (s := (startEvent s).withHost _) hx hdead
  · intro hkeeps
    exact (congrArg State.handover (handoverStateSent_keeps (s := (startEvent s).withHost _) hx hkeeps)).trans rfl

/-- Settles O18, by the receive buffer and what holds the frame back. -/
theorem frameAdmission : Obligations.FrameAdmission := by
  intro s tag code ops hup hl c h
  let arrived := (startEvent s).withHost h
  refine ⟨fun hb he hk => request_taken ⟨hup, hb, he, hk⟩ tag code ops hl, fun hb hheld => ?_,
    fun hb hroom => ?_, fun hb hfull => ?_⟩
  · exact frame_takes hup hl ((takeIn_empty (s := arrived) hb).trans (tryBegin_waits hheld))
  · exact frame_takes hup hl ((takeIn_full (s := arrived) hb).trans (refuseFrame_answered hroom))
  · exact frame_takes hup hl ((takeIn_full (s := arrived) hb).trans (refuseFrame_dropped hfull))

/-- Settles O19: a confirmation's pre-emption is all it does to the host link. -/
theorem confirmationPreemptsWaitingFrame : Obligations.ConfirmationPreemptsWaitingFrame := by
  intro s z hup halert htimer
  refine ⟨confirmAndCount z (s.zoneFire z) (startEvent s),
    takes_event (f := alertExpired z) hup (alertExpired_confirms halert htimer),
    confirmAndCount_inFire .., fun hb => ?_, fun f hb hroom => ?_, fun f hb hfull => ?_⟩
  · rw [confirmAndCount_host, preempt_empty (s := startEvent s) hb]
    rfl
  · rw [confirmAndCount_host, preempt_waiting (s := startEvent s) hb, refuseFrame_host]
    exact if_pos hroom
  · rw [confirmAndCount_host, preempt_waiting (s := startEvent s) hb, refuseFrame_host]
    exact if_neg (Nat.not_lt.mpr hfull)

/-- Settles O20, by the three checks in their order. -/
theorem linkControllerRefusals : Obligations.LinkControllerRefusals := by
  intro s tag code ops hready hl
  refine ⟨?_, fun ht hcode => ?_, fun ht hlen => ?_, fun b ht hb => ?_⟩
  · rintro rfl
    exact refuses_of_execute hready hl execute_badTag
  · have refused := refuses_of_execute hready hl (execute_unknown (s := taken s) (ops := ops) ht hcode)
    exact ⟨refused, refused⟩
  · exact refuses_of_execute hready hl (execute_badLength ht hlen)
  · exact ⟨filler_refused hready ht hb rfl, filler_refused hready ht hb rfl, filler_refused hready ht hb rfl,
      filler_refused hready ht hb rfl, filler_refused hready ht hb rfl, filler_refused hready ht hb rfl,
      filler_refused hready ht hb rfl, filler_refused hready ht hb rfl⟩

end Sys2Proof
end

section
/-! The requests that read or set a part of the state without a field event: STATUS, the mask and RESTART
(R9 to R11), parameters (R12, R23), SET_ZONE (R19 to R21), the settings image (R173, R174), and the reads of the
rack, the hatch, an order and a context slot (R108, R145, R82, R169). -/

namespace Sys2Proof.Machine

variable {s t u : State} {tag : Byte} {data : List Byte} {st : Status}

/-! ## Checks of a request -/

/-- The first failing check refuses. -/
theorem checked_fails {cs : List (Bool × Status)} {a : Answer} (h : firstFailure cs = some st) :
    checked cs s a = refuse st s := by
  unfold checked; rw [h]

/-- With every check passed the request is carried out. -/
theorem checked_passes {cs : List (Bool × Status)} {a : Answer} (h : firstFailure cs = none) :
    checked cs s a = a := by
  unfold checked; rw [h]

/-- A passed check leaves the decision to the rest. -/
theorem firstFailure_pass {b : Bool} {cs : List (Bool × Status)} (h : b = true) :
    firstFailure ((b, st) :: cs) = firstFailure cs := by
  subst h; rfl

/-- A failed check decides. -/
theorem firstFailure_fail {b : Bool} {cs : List (Bool × Status)} (h : b = false) :
    firstFailure ((b, st) :: cs) = some st := by
  subst h; rfl

/-! ## What a change of records can touch -/

/-- The blocks that a change of records, and what it tells, can touch. -/
def Allow.records : Allow :=
  ⟨True, False, True, True, False, False, False, True, False, True, True, False, True, False, True, False, False⟩

/-- What a rack whose pause condition is worked out afresh can touch (R101, R104). -/
theorem updateRackPause_records (s : State) : Moves .records s (updateRackPause s) := by
  apply updateRackPause_moves .refl <;> trivial

/-- Beside the zone's own record, taking it touches what a change of records can touch. -/
theorem takeZoneClimate_records (z : Fin 8) (new : ZoneClimate) (passed : Bool) (s : State) :
    Moves .records (setZoneClimate z new s) (takeZoneClimate z new passed s) := by
  have mode : Moves .records (setZoneClimate z new s)
      (if new.control ≠ (s.zoneClimate z).control then postMode z (setZoneClimate z new s)
        else setZoneClimate z new s) := by
    split
    · exact postMode_moves z .refl trivial
    · exact .refl
  have posted : ∀ (c : Prop) [Decidable c] v, Moves .records (setZoneClimate z new s) v →
      Moves .records (setZoneClimate z new s) (if c then postZoneClimate z v else v) := by
    intro c _ v m
    split
    · exact postZoneClimate_moves z m trivial
    · exact m
  have paused : ∀ (c : Prop) [Decidable c] v, Moves .records (setZoneClimate z new s) v →
      Moves .records (setZoneClimate z new s) (if c then updateRackPause v else v) := by
    intro c _ v m
    split
    · exact m.trans (updateRackPause_records v)
    · exact m
  exact paused _ _ (posted _ _ mode)

@[simp] theorem setZoneClimate_same (z : Fin 8) (c : ZoneClimate) (s : State) :
    (setZoneClimate z c s).zoneClimate z = c := by
  simp [State.zoneClimate, setZoneClimate]

theorem setZoneClimate_other {y z : Fin 8} (h : y ≠ z) (c : ZoneClimate) (s : State) :
    (setZoneClimate z c s).zoneClimate y = s.zoneClimate y := by
  have hv : z.val ≠ y.val := fun e => h (Fin.ext e.symm)
  simp [State.zoneClimate, setZoneClimate, hv]

/-- The climate after a zone's record has been taken is the climate with that record set. -/
theorem takeZoneClimate_climate (z : Fin 8) (new : ZoneClimate) (passed : Bool) (s : State) :
    (takeZoneClimate z new passed s).climate = (setZoneClimate z new s).climate :=
  (takeZoneClimate_records z new passed s).climate_eq id

theorem zoneClimate_congr (h : t.climate = s.climate) (z : Fin 8) : t.zoneClimate z = s.zoneClimate z := by
  simp only [State.zoneClimate, h]

theorem zone_congr (h : t.settings = s.settings) (z : Fin 8) : t.zone z = s.zone z := by
  simp only [State.zone, h]

theorem param_congr (h : t.settings = s.settings) (p : Param) : t.param p = s.param p := by
  simp only [State.param, h]

/-! ## GET_PARAM and SET_PARAM -/

theorem paramOfNumber_outside {n : Nat} (h : n = 0 ∨ 27 < n) : Param.ofNumber n = none := by
  unfold Param.ofNumber
  split
  · rfl
  · have hlen : Param.all.length = 27 := rfl
    exact List.getElem?_eq_none (by omega)

theorem getParamRequest_outside {number : Byte} (h : Param.ofNumber number.toNat = none) (s : State) :
    getParamRequest number s = refuse .badOperand s := by
  unfold getParamRequest; rw [h]

theorem getParamRequest_inside {number : Byte} {p : Param} (h : Param.ofNumber number.toNat = some p)
    (s : State) : getParamRequest number s = okWith (number :: field16 (s.param p)) s := by
  unfold getParamRequest; rw [h]

theorem setParamRequest_outside {number : Byte} (h : Param.ofNumber number.toNat = none) (value : Half)
    (s : State) : setParamRequest number value s = refuse .badOperand s := by
  unfold setParamRequest; rw [h]

theorem setParamRequest_inside {number : Byte} {p : Param} (h : Param.ofNumber number.toNat = some p)
    (value : Half) (s : State) :
    setParamRequest number value s =
      checked
        ((p.valueOk value.toNat, .badOperand) :: (agreementPairOk s p value.toNat, .badOperand) ::
          placementChecks s p value.toNat) s
        (okWith (number :: fieldHalf value) (setParamEffect p value.toNat s)) := by
  unfold setParamRequest; rw [h]; rfl

theorem answers_getParam {number : Byte} (h : HostReady s) (ht : tag ≠ 0)
    (e : getParamRequest number (taken s) = .reply st data t) :
    Answers (.getParam tag number) tag 0x10 st data s t :=
  answers_of_carryOut h ht rfl rfl e

/-- The block that owns SET_PARAM reads its operand as the value that was sent. -/
theorem carryOut_setParam (tag number : Byte) (value : Half) (s : State) :
    carryOut tag 0x11 (number :: fieldHalf value) s = setParamRequest number value s :=
  congrArg (setParamRequest number · s) (half_bytes value)

theorem answers_setParam {number : Byte} {value : Half} (h : HostReady s) (ht : tag ≠ 0)
    (e : setParamRequest number value (taken s) = .reply st data t) :
    Answers (.setParam tag number value) tag 0x11 st data s t :=
  answers_of_carryOut h ht rfl rfl ((carryOut_setParam tag number value (taken s)).trans e)

/-! ## SET_ZONE -/

theorem setZoneRequest_refused {zone present : Byte} {b l sp db rl rh tl th : Half} {c : ClimateSettings}
    (hc : c = { setpoint := sp.toNat, deadband := db.toNat, rhLow := rl.toNat, rhHigh := rh.toNat,
                tempLow := tl.toInt, tempHigh := th.toInt })
    (h : 8 ≤ zone.toNat ∨ windowOperand present b l = none ∨ c.ok = false) (s : State) :
    setZoneRequest zone present b l sp db rl rh tl th s = refuse .badOperand s := by
  subst hc
  unfold setZoneRequest
  dsimp only
  split
  · next z w hz hw =>
    rcases h with h | h | h
    · rw [zoneOperand_eq_none h] at hz; cases hz
    · rw [h] at hw; cases hw
    · exact if_neg (by rw [h]; exact Bool.false_ne_true)
  · rfl

theorem setZoneRequest_inside {zone present : Byte} {b l sp db rl rh tl th : Half} {z : Fin 8}
    {w : Option Window} {c : ClimateSettings} (hz : zone.toNat = z.val)
    (hw : windowOperand present b l = some w)
    (hc : c = { setpoint := sp.toNat, deadband := db.toNat, rhLow := rl.toNat, rhHigh := rh.toNat,
                tempLow := tl.toInt, tempHigh := th.toInt }) (hok : c.ok = true) (s : State) :
    setZoneRequest zone present b l sp db rl rh tl th s =
      checked (setZoneChecks s z w c) s
        (okWith (zoneData (evaluateZone z false (s.withSettings { s.settings with zones := zonesWith s z w c })) z)
          (evaluateZone z false (s.withSettings { s.settings with zones := zonesWith s z w c }))) := by
  subst hc
  unfold setZoneRequest
  rw [zoneOperand_eq_some hz, hw]
  exact if_pos hok

/-- The block that owns SET_ZONE reads its operands as the fields that were sent. -/
theorem carryOut_setZone (tag zone present : Byte) (b l sp db rl rh tl th : Half) (s : State) :
    carryOut tag 0x13 ([zone, present] ++ fieldHalf b ++ fieldHalf l ++ fieldHalf sp ++ fieldHalf db ++
      fieldHalf rl ++ fieldHalf rh ++ fieldHalf tl ++ fieldHalf th) s =
      setZoneRequest zone present b l sp db rl rh tl th s := by
  show setZoneRequest zone present (byteOf (b.toNat / 256) ++ byteOf b.toNat)
    (byteOf (l.toNat / 256) ++ byteOf l.toNat) (byteOf (sp.toNat / 256) ++ byteOf sp.toNat)
    (byteOf (db.toNat / 256) ++ byteOf db.toNat) (byteOf (rl.toNat / 256) ++ byteOf rl.toNat)
    (byteOf (rh.toNat / 256) ++ byteOf rh.toNat) (byteOf (tl.toNat / 256) ++ byteOf tl.toNat)
    (byteOf (th.toNat / 256) ++ byteOf th.toNat) s = _
  simp only [half_bytes]

theorem answers_setZone {zone present : Byte} {b l sp db rl rh tl th : Half} (h : HostReady s) (ht : tag ≠ 0)
    (e : setZoneRequest zone present b l sp db rl rh tl th (taken s) = .reply st data t) :
    Answers (.setZone tag zone present b l sp db rl rh tl th) tag 0x13 st data s t :=
  answers_of_carryOut h ht rfl rfl ((carryOut_setZone ..).trans e)

/-! ## The settings image -/

/-- R171: a verified write is what is loaded next. -/
theorem Image.loaded_written {α : Type} (img : Image α) (v : α) :
    (img.written false v).loaded = some v := by
  unfold Image.written Image.loaded
  split
  · have h : ¬ img.second.number + 1 < img.second.number := by omega
    simp [h]
  · simp

theorem saveSettingsRequest_verified (h : s.store.nextFails = false) :
    saveSettingsRequest s =
      okPlain ((writeSettings s).withDevice { (writeSettings s).device with settingsDefaulted := false }) := by
  unfold saveSettingsRequest
  rw [h]
  rfl

theorem saveSettingsRequest_failed (h : s.store.nextFails = true) :
    saveSettingsRequest s = .reply .storeFault [] (writeSettings s) := by
  unfold saveSettingsRequest
  exact if_pos h

/-- The store once the settings image has been written. -/
def settingsWritten (s : State) : Store :=
  { s.store with
    settings := s.store.settings.written s.store.nextFails (some (settingsData s)),
    undo := .settings s.store.settings :: s.store.undo,
    script := s.store.script.tail, writes := s.store.writes + 1 }

theorem writeSettings_eq (s : State) :
    writeSettings s = afterWrite s.store.nextFails (s.withStore (settingsWritten s)) := rfl

/-- R172: a faulted store is flagged, and STORE_FAULT is posted where the flag rises. -/
theorem faultStore_spec (s : State) :
    (faultStore s).device = { s.device with storeFault := true } ∧
      faultStore s = { s with device := (faultStore s).device, notices := (faultStore s).notices } ∧
      (s.device.storeFault = false → (faultStore s).notices.pending.get? 30 = some .storeFault) := by
  unfold faultStore
  split
  · next h =>
    refine ⟨?_, rfl, fun hf => absurd (h.symm.trans hf) (by decide)⟩
    rw [← h]
  · exact ⟨rfl, rfl, fun _ => Table.get?_put_same ..⟩

theorem answers_saveSettings (h : HostReady s) (ht : tag ≠ 0)
    (e : saveSettingsRequest (taken s) = .reply st data t) :
    Answers (.saveSettings tag 0) tag 0x14 st data s t :=
  answers_of_carryOut h ht rfl rfl e

/-! ## The defaults -/

/-- R174: of the parameters the rack zone and the hatch zone are kept. -/
theorem defaultedParams_value (ps : Params) (p : Param) :
    (defaultedParams ps).value p =
      if p = .rackZone then ps.value .rackZone else if p = .hatchZone then ps.value .hatchZone else p.default := by
  cases p <;> simp [defaultedParams, Params.value, Params.change, Param.index] <;> rfl

/-- LOAD_DEFAULTS touches no settings once it has set them. -/
def Allow.defaulted : Allow :=
  ⟨True, False, True, True, False, False, True, True, True, True, True, True, True, False, True, False, False⟩

/-- The settings that LOAD_DEFAULTS sets (R174). -/
def defaultedSettings (x : Settings) : Settings :=
  { params := defaultedParams x.params,
    zones := Vector.map (fun (z : ZoneSettings) => { z with climate := .defaults, armed := true }) x.zones }

theorem loadDefaultsRequest_eq (s : State) :
    ∃ t, loadDefaultsRequest s = .reply .ok [] t ∧
      Moves .defaulted (s.withSettings (defaultedSettings s.settings)) t := by
  refine ⟨_, rfl, ?_⟩
  exact .foldl _ (fun z t m => by apply zoneDefaulted_moves _ _ m <;> trivial) .refl

/-! ## Reads -/

theorem getOrderRequest_noTag (s : State) : getOrderRequest 0 s = refuse .badOperand s := if_pos rfl

theorem getOrderRequest_absent {orderTag : Byte} (h : orderTag ≠ 0)
    (hf : findOrder s orderTag.toNat = none) : getOrderRequest orderTag s = refuse .notFound s := by
  simp only [getOrderRequest, if_neg h, hf, Option.bind_none]

theorem getOrderRequest_held {orderTag : Byte} {k : Nat} {o : Order} (h : orderTag ≠ 0)
    (hf : findOrder s orderTag.toNat = some k) (ho : s.order? k = some o) :
    getOrderRequest orderTag s = okWith (orderData k o) s := by
  simp only [getOrderRequest, if_neg h, hf, Option.bind_some, ho, Option.map_some]

theorem answers_getOrder {orderTag : Byte} (h : HostReady s) (ht : tag ≠ 0)
    (e : getOrderRequest orderTag (taken s) = .reply st data t) :
    Answers (.getOrder tag orderTag) tag 0x62 st data s t :=
  answers_of_carryOut h ht rfl rfl e

theorem contextOk_iff (context : Byte) : contextOk context = true ↔ context.toNat < 2 := by
  simp only [contextOk, decide_eq_true_eq]
  omega

theorem getHandoverRequest_outside {context : Byte} (h : 2 ≤ context.toNat) (s : State) :
    getHandoverRequest context s = refuse .badOperand s :=
  if_neg fun hc => absurd ((contextOk_iff context).mp hc) (Nat.not_lt.mpr h)

theorem getHandoverRequest_inside {context : Byte} (h : context.toNat < 2) (s : State) :
    getHandoverRequest context s = okWith (handoverData s context) s :=
  if_pos ((contextOk_iff context).mpr h)

theorem answers_getHandover {context : Byte} (h : HostReady s) (ht : tag ≠ 0)
    (e : getHandoverRequest context (taken s) = .reply st data t) :
    Answers (.getHandover tag context) tag 0x80 st data s t :=
  answers_of_carryOut h ht rfl rfl e

/-- What is said of the layout of a context slot's data does not depend on how the yielded mark is compared. -/
theorem handoverData_held {context : Byte} {x : Context} (h : s.context? context.toNat = some x) :
    handoverData s context =
      [context, flagByte x.live] ++ field16 x.courier ++
        [byteOf x.direction.code, byteOf x.phase.code, byteOf (stepCode (x.finish.map (·.1))),
         flagByte (decide (s.hatch.yielded = some context.toNat))] ++
        field16OrAbsent (x.timer.map secondsUp) ++
        [byteOf (outcomeCode (x.finish.map (·.2))), byteOf x.manifest.length] ++
        x.manifest.flatMap (fun e => field16 e.record ++ [flagByte e.taken]) ++
        [byteOf x.rejected.length] ++ x.rejected.flatMap fieldLabel := by
  have hy : (s.hatch.yielded == some context.toNat) = decide (s.hatch.yielded = some context.toNat) := by
    rw [Bool.eq_iff_iff, beq_iff_eq, decide_eq_true_iff]
  simp only [handoverData, h, hy]

theorem handoverData_free {context : Byte} (h : s.context? context.toNat = none) :
    handoverData s context =
      [context, 0] ++ field16 0 ++ [0, byteOf Phase.ended.code, 0xFF, 0] ++ field16 0xFFFF ++ [0, 0, 0] := by
  simp only [handoverData, h]

end Sys2Proof.Machine

namespace Sys2Proof

open Machine

/-- Settles O21: the owning block's answer is the layout of Table 1-5. -/
theorem statusReports : Obligations.StatusReports := by
  intro s tag hready htag
  exact answers_of_carryOut (code := 0x01) (ops := [0]) (data := statusData (taken s)) hready htag rfl rfl rfl

/-- Settles O22, by the bits of the mask; a RESTART is answered without an effect. -/
theorem setNoticeMaskAndRestart : Obligations.SetNoticeMaskAndRestart := by
  intro s tag mask hready htag
  refine ⟨fun hok => ?_, fun hbad => ?_, answers_of_carryOut (code := 0x03) (ops := [0]) hready htag rfl rfl rfl⟩
  · exact answers_of_carryOut (code := 0x02) (ops := [mask]) hready htag rfl rfl (if_neg (not_not.mpr hok))
  · exact answers_of_carryOut (code := 0x02) (ops := [mask]) hready htag rfl rfl (if_pos hbad)

/-- Settles O23, by the number and by the checks; a new value is followed by the rack's pause test alone. -/
theorem paramRequests : Obligations.ParamRequests := by
  intro s tag number value hready htag
  refine ⟨fun houtside => ⟨?_, ?_⟩, fun p hp => ⟨?_, fun hbad => ?_, fun hvalue hpair =>
    ⟨fun st hst => ?_, fun hnone => ?_⟩⟩⟩
  · exact answers_getParam hready htag (getParamRequest_outside (paramOfNumber_outside houtside) _)
  · exact answers_setParam hready htag (setParamRequest_outside (paramOfNumber_outside houtside) _ _)
  · exact answers_getParam hready htag (getParamRequest_inside hp _)
  · refine answers_setParam hready htag ((setParamRequest_inside hp value _).trans (checked_fails ?_))
    rcases Bool.eq_false_or_eq_true (p.valueOk value.toNat) with hv | hv
    · exact (firstFailure_pass hv).trans
        (firstFailure_fail (hbad.resolve_left fun h => absurd (hv.symm.trans h) (by decide)))
    · exact firstFailure_fail hv
  · exact answers_setParam hready htag ((setParamRequest_inside hp value _).trans
      (checked_fails ((firstFailure_pass hvalue).trans ((firstFailure_pass hpair).trans hst))))
  · have m := updateRackPause_records
      ((taken s).withSettings { s.settings with params := s.settings.params.change p value.toNat })
    exact ⟨_, answers_setParam hready htag ((setParamRequest_inside hp value _).trans
      (checked_passes ((firstFailure_pass hvalue).trans ((firstFailure_pass hpair).trans hnone)))),
      m.settings_eq id, m.nodes_eq id, m.fire_eq id, m.climate_eq id, m.hatch_eq id, m.roster_eq id,
      m.image_eq id⟩

/-- Settles O25, by the operands and the placement checks; the evaluation of the zone takes its record and
touches beside it what a change of records can touch. -/
theorem setZoneSetsEntry : Obligations.SetZoneSetsEntry := by
  intro s tag zone present b l sp db rl rh tl th hready htag c i
  refine ⟨fun hbad => answers_setZone hready htag (setZoneRequest_refused rfl hbad _), fun z w hz hw hok =>
    ⟨fun st hst => ?_, fun hnone => ?_⟩⟩
  · exact answers_setZone hready htag ((setZoneRequest_inside hz hw rfl hok _).trans (checked_fails hst))
  · let v := (taken s).withSettings { s.settings with zones := zonesWith s z w c }
    have m := takeZoneClimate_records z (climateAfter v z) false v
    have hclimate := takeZoneClimate_climate z (climateAfter v z) false v
    have hsettings := m.settings_eq id
    refine ⟨takeZoneClimate z (climateAfter v z) false v,
      answers_setZone hready htag ((setZoneRequest_inside hz hw rfl hok _).trans (checked_passes hnone)),
      ?entry, fun y hy => ?others, (congrArg Settings.params hsettings).trans rfl, ?record, fun y hy => ?records,
      (congrArg Climate.air hclimate).trans rfl,
      (congrArg Climate.probes hclimate).trans rfl, m.nodes_eq id, m.fire_eq id,
      m.hatch_eq id, m.roster_eq id, m.image_eq id⟩
    case entry =>
      rw [zone_congr hsettings]
      simp [State.zone, v, setZoneClimate, zonesWith]
    case others =>
      have hv : z.val ≠ y.val := fun e => hy (Fin.ext e.symm)
      rw [zone_congr hsettings]
      simp [State.zone, v, setZoneClimate, zonesWith, hv]
    case record => exact (zoneClimate_congr hclimate z).trans (setZoneClimate_same ..)
    case records => exact (zoneClimate_congr hclimate y).trans (setZoneClimate_other hy ..)

/-- Settles O26, by the outcome of the write. -/
theorem saveSettingsWritesImage : Obligations.SaveSettingsWritesImage := by
  intro s tag hready htag
  have hwrite := writeSettings_eq (taken s)
  refine ⟨fun hok => ?_, fun hfail => ?_⟩
  · have hok' : (taken s).store.nextFails = false := hok
    rw [hok'] at hwrite
    refine ⟨_, answers_saveSettings hready htag (saveSettingsRequest_verified hok'), ?_⟩
    rw [hwrite]
    refine ⟨?_, rfl, rfl, rfl, rfl⟩
    show (s.store.settings.written s.store.nextFails (some (settingsData s))).loaded = _
    rw [hok, Image.loaded_written]
  · have hfail' : (taken s).store.nextFails = true := hfail
    rw [hfail'] at hwrite
    obtain ⟨hdevice, hframe, hposted⟩ := faultStore_spec ((taken s).withStore (settingsWritten (taken s)))
    refine ⟨_, answers_saveSettings hready htag (saveSettingsRequest_failed hfail'), ?_⟩
    rw [hwrite]
    have hstore : (faultStore ((taken s).withStore (settingsWritten (taken s)))).store =
        settingsWritten (taken s) := by rw [hframe]; rfl
    refine ⟨hdevice, ?_, (congrArg Store.records hstore).trans rfl, (congrArg Store.roster hstore).trans rfl,
      hposted⟩
    exact hframe.trans (by rw [afterWrite, if_pos rfl, hstore]; rfl)

/-- Settles O27: the values are set first, and what follows them touches no settings. -/
theorem loadDefaultsSetsDefaults : Obligations.LoadDefaultsSetsDefaults := by
  intro s tag hready htag
  obtain ⟨t, e, m⟩ := loadDefaultsRequest_eq (taken s)
  have hsettings : t.settings = defaultedSettings s.settings := m.settings_eq id
  have hparam : ∀ p, t.param p = (defaultedParams s.settings.params).value p := fun p => by
    rw [State.param, hsettings]; rfl
  refine ⟨t, answers_of_carryOut (code := 0x15) (ops := [0]) hready htag rfl rfl e, fun p hr hh => ?_, ?_, ?_,
    fun z => ?_, m.nodes_eq id, m.roster_eq id, m.image_eq id⟩
  · rw [hparam, defaultedParams_value, if_neg hr, if_neg hh]
  · rw [hparam, defaultedParams_value, if_pos rfl]; rfl
  · rw [hparam, defaultedParams_value, if_neg (by decide), if_pos rfl]; rfl
  · rw [State.zone, hsettings]
    simp [defaultedSettings, State.zone]

/-- Settles O41: each read answers the layout of its block as it stands. -/
theorem getRackAndGetHatch : Obligations.GetRackAndGetHatch := by
  intro s tag hready htag
  exact ⟨answers_of_carryOut (code := 0x40) (ops := [0]) hready htag rfl rfl rfl,
    answers_of_carryOut (code := 0x41) (ops := [0]) (data := hatchData (taken s)) hready htag rfl rfl rfl⟩

/-- Settles O53, by the tag: 0, held by no order, or held. -/
theorem getOrderReadsOrder : Obligations.GetOrderReadsOrder := by
  intro s tag orderTag hready htag
  refine ⟨?_, fun hne hnone => ?_, fun k o hne hfound horder => ?_⟩
  · rintro rfl
    exact answers_getOrder hready htag (getOrderRequest_noTag _)
  · exact answers_getOrder hready htag (getOrderRequest_absent (s := taken s) hne hnone)
  · exact answers_getOrder hready htag (getOrderRequest_held (s := taken s) hne hfound horder)

/-- Settles O56, by the context operand and by its slot: FREE or used. -/
theorem getHandoverReadsSlot : Obligations.GetHandoverReadsSlot := by
  intro s tag context hready htag
  have inside : ∀ h : context.toNat < 2, Answers (.getHandover tag context) tag 0x80 .ok
      (handoverData (taken s) context) s (taken s) := fun h =>
    answers_getHandover hready htag (getHandoverRequest_inside h _)
  refine ⟨fun houtside => answers_getHandover hready htag (getHandoverRequest_outside houtside _),
    fun hc hfree => ?_, fun x hc hx => ?_⟩
  · rw [← handoverData_free (s := taken s) hfree]
    exact inside hc
  · have e := handoverData_held (s := taken s) hx
    have h := inside hc
    rw [e] at h
    exact h

end Sys2Proof
end

section
/-! Rows that find nothing to act on (R31; log 5), and RESTORE_LINK_RATE (R47). -/

namespace Sys2Proof.Machine

variable {s t u : State} {tag : Byte} {data : List Byte} {st : Status}

/-! ## The end of a frame on the field link, where none is on the wire -/

theorem reportArrives_unawaited (h : ∀ x left, s.link.activity ≠ .awaiting x left) (bytes : List Byte) :
    reportArrives bytes s = s := by
  unfold reportArrives
  split
  · next x left hx => exact absurd hx (h x left)
  all_goals rfl

theorem replyWindowEnds_unawaited (h : ∀ x left, s.link.activity ≠ .awaiting x left) :
    replyWindowEnds s = s := by
  unfold replyWindowEnds
  split
  · next x left hx => exact absurd hx (h x left)
  all_goals rfl

theorem pollEnds_unsent (h : ∀ x, s.link.activity ≠ .sending x) : pollEnds s = s := by
  unfold pollEnds
  split
  · next x hx => exact absurd hx (h x)
  all_goals rfl

theorem broadcastEnds_unsent (h : ∀ b, s.link.activity ≠ .broadcasting b) : broadcastEnds s = s := by
  unfold broadcastEnds
  split
  · next b hb => exact absurd hb (h b)
  all_goals rfl

/-! ## Timers that do not run -/

theorem outgoingSent_idle (h : s.host.transmitting = none) : outgoingSent s = s := by
  unfold outgoingSent; rw [h]

theorem frameTimerEnds_stopped (h : s.host.frameTimer = none) : frameTimerEnds s = s := by
  unfold frameTimerEnds; rw [h]

theorem deadlineEnds_stopped {k : Nat}
    (h : ∀ o, s.order? k = some o → o.state.isWaiting = false ∨ o.deadline = none) : deadlineEnds k s = s := by
  unfold deadlineEnds
  split
  · rfl
  · next o ho =>
    refine if_neg fun ⟨hw, hd⟩ => ?_
    rcases h o ho with e | e
    · rw [e] at hw; cases hw
    · rw [e] at hd; cases hd

theorem probeAgeExpired_stopped {i : Nat} (h : ∀ p, s.climate.probes.get? i = some p → p.age = none) :
    probeAgeExpired i s = s := by
  unfold probeAgeExpired
  split
  · next p _ hp _ => rw [h p hp]
  · rfl

theorem graceExpired_stopped {z : Fin 8} (h : (s.zoneClimate z).grace = none ∨
    (s.zoneClimate z).excursion ≠ .outGrace ∨ (s.airAt (airZone z)).reading = none) :
    graceExpired z s = s := by
  refine if_neg fun ⟨he, hg, hr⟩ => ?_
  rcases h with e | e | e
  · rw [e] at hg; cases hg
  · exact e he
  · rw [e] at hr; cases hr

theorem minuteExpired_stopped {z : Fin 8} (h : (s.zoneClimate z).minuteTimer = none ∨
    (s.airAt (airZone z)).reading = none) : minuteExpired z s = s := by
  refine if_neg fun ⟨hm, hr⟩ => ?_
  rcases h with e | e
  · rw [e] at hm; cases hm
  · rw [e] at hr; cases hr

theorem completeDwell_stopped {p : Fin 12} (h : (s.position p).dwell = none) : completeDwell p s = s := by
  unfold completeDwell
  dsimp only
  rw [h]
  split
  · next hd => cases hd
  · rfl

theorem dwellEnds_stopped {p : Fin 12} (h : (s.position p).dwell = none ∨ (s.position p).paused = true) :
    dwellEnds p s = s := by
  unfold dwellEnds
  split
  · rfl
  · next hp => exact completeDwell_stopped (h.resolve_right hp)

theorem carryExpired_stopped {i : Nat} (h : ∀ r, s.record? i = some r → r.carry = none) :
    carryExpired i s = s := by
  unfold carryExpired
  split
  · rfl
  · next r hr => rw [h r hr]

theorem alertExpired_stopped {z : Fin 8} (h : (s.zoneFire z).state ≠ .alert ∨
    (s.zoneFire z).alertTimer = none) : alertExpired z s = s := by
  refine if_neg fun ⟨hs, ht⟩ => ?_
  rcases h with e | e
  · exact e hs
  · rw [e] at ht; cases ht

theorem countdownExpired_stopped {z : Fin 8} (h : (s.zoneFire z).state ≠ .countdown ∨
    (s.zoneFire z).countdownTimer = none) : countdownExpired z s = s := by
  refine if_neg fun ⟨hs, ht⟩ => ?_
  rcases h with e | e
  · exact e hs
  · rw [e] at ht; cases ht

theorem ackExpired_stopped {z : Fin 8} (h : (s.zoneFire z).ackTimer = none) : ackExpired z s = s := by
  unfold ackExpired; dsimp only; rw [h]

theorem purgeMinExpired_stopped (h : ∀ run, s.hatch.purge = some run → run.minTimer = none) :
    purgeMinExpired s = s := by
  unfold purgeMinExpired
  split
  · rfl
  · next run hr => rw [h run hr]

theorem purgeMaxExpired_stopped (h : s.hatch.purge = none) : purgeMaxExpired s = s := by
  unfold purgeMaxExpired; rw [h]

theorem retryExpired_stopped (h : s.hatch.retry = none) : retryExpired s = s := by
  unfold retryExpired; rw [h]

theorem wetDwellExpired_stopped (h : s.hatch.wetDwell = none) : wetDwellExpired s = s := by
  unfold wetDwellExpired; rw [h]

/-- No limit of one of the phases runs for context c. -/
def LimitIdle (s : State) (c : Nat) (phases : List Phase) : Prop :=
  ∀ x, liveContext? s c = some x → x.phase ∈ phases → x.timer = none

theorem inLimit_of_idle {c : Nat} {phases : List Phase} {ph : Phase} (h : LimitIdle s c phases)
    (hp : ph ∈ phases) : inLimit s c ph = false := by
  unfold inLimit
  split
  · next x hx =>
    rw [Bool.and_eq_false_iff]
    by_cases e : x.phase = ph
    · right; rw [h x hx (e ▸ hp)]; rfl
    · left; exact beq_eq_false_iff_ne.mpr e
  · rfl

theorem waitLimitExpired_stopped {c : Nat} (h : LimitIdle s c [.waitHatch]) : waitLimitExpired c s = s := by
  unfold waitLimitExpired
  rw [inLimit_of_idle h (by decide)]
  rfl

theorem loadingLimitExpired_stopped {c : Nat} (h : LimitIdle s c [.loading, .loadingIn]) :
    loadingLimitExpired c s = s := by
  unfold loadingLimitExpired
  rw [inLimit_of_idle h (by decide), inLimit_of_idle h (by decide)]
  rfl

theorem collectingLimitExpired_stopped {c : Nat} (h : LimitIdle s c [.collecting]) :
    collectingLimitExpired c s = s := by
  unfold collectingLimitExpired
  rw [inLimit_of_idle h (by decide)]
  rfl

theorem releaseLimitExpired_stopped {c : Nat} (h : LimitIdle s c [.awaitRelease]) :
    releaseLimitExpired c s = s := by
  unfold releaseLimitExpired
  rw [inLimit_of_idle h (by decide)]
  rfl

theorem recallLimitExpired_stopped {c : Nat} (h : LimitIdle s c [.recall, .recallReturn]) :
    recallLimitExpired c s = s := by
  unfold recallLimitExpired
  rw [inLimit_of_idle h (by decide), inLimit_of_idle h (by decide)]
  split <;> rfl

/-! ## RESTORE_LINK_RATE -/

theorem answers_restoreLinkRate (h : HostReady s) (ht : tag ≠ 0)
    (e : restoreLinkRateRequest (taken s) = .reply st data t) :
    Answers (.restoreLinkRate tag 0) tag 0x24 st data s t :=
  answers_of_carryOut h ht rfl rfl e

theorem goingTo_eq (s : State) :
    goingTo s = (s.link.pendingBroadcast.map (·.target)).getD s.link.rate := by
  unfold goingTo
  split
  · next h => rw [h]; rfl
  · next h => rw [h]; rfl

theorem breakOff_eq {a b : Activity} (hb : (∃ x, a = .broadcasting x) → b = .idle)
    (ho : (∀ x, a ≠ .broadcasting x) → b = a) : breakOff a = b := by
  cases a with
  | broadcasting x => exact (hb ⟨x, rfl⟩).symm
  | idle => exact (ho fun _ e => by cases e).symm
  | sending x => exact (ho fun _ e => by cases e).symm
  | awaiting x left => exact (ho fun _ e => by cases e).symm

theorem restoreRate_step (h : s.link.rate ≠ 0) :
    restoreRate s = s.withLink { s.link with
      pendingBroadcast := some ⟨0, s.link.rate, .restored⟩, activity := breakOff s.link.activity } :=
  if_neg h

theorem restoreRate_withdraw (h : s.link.rate = 0) :
    restoreRate s = post (.linkRate 0 .restored) (s.withLink { s.link with
      pendingBroadcast := none, activity := breakOff s.link.activity }) :=
  if_pos h

end Sys2Proof.Machine

namespace Sys2Proof

open Machine

/-- Settles O35, by the function of each row where what it acts on is not there. -/
theorem idleRowsDoNothing : Obligations.IdleRowsDoNothing := by
  intro s hup idle limitIdle
  exact ⟨fun h => ⟨fun report => takes_event (f := reportArrives report) hup (reportArrives_unawaited (s := startEvent s) h _),
      takes_event (f := replyWindowEnds) hup (replyWindowEnds_unawaited (s := startEvent s) h)⟩,
    fun h => takes_event (f := pollEnds) hup (pollEnds_unsent (s := startEvent s) h),
    fun h => takes_event (f := broadcastEnds) hup (broadcastEnds_unsent (s := startEvent s) h),
    fun h => takes_event (f := outgoingSent) hup (outgoingSent_idle (s := startEvent s) h),
    fun h => takes_event (f := frameTimerEnds) hup (frameTimerEnds_stopped (s := startEvent s) h),
    fun k h => takes_event (f := deadlineEnds k.val) hup (deadlineEnds_stopped (s := startEvent s) h),
    fun i h => takes_event (f := probeAgeExpired i.val) hup (probeAgeExpired_stopped (s := startEvent s) h),
    fun z h => takes_event (f := graceExpired z) hup (graceExpired_stopped (s := startEvent s) h),
    fun z h => takes_event (f := minuteExpired z) hup (minuteExpired_stopped (s := startEvent s) h),
    fun p h => takes_event (f := dwellEnds p) hup (dwellEnds_stopped (s := startEvent s) h),
    fun i h => takes_event (f := carryExpired i.val) hup (carryExpired_stopped (s := startEvent s) h),
    fun z h => takes_event (f := alertExpired z) hup (alertExpired_stopped (s := startEvent s) h),
    fun z h => takes_event (f := countdownExpired z) hup (countdownExpired_stopped (s := startEvent s) h),
    fun z h => takes_event (f := ackExpired z) hup (ackExpired_stopped (s := startEvent s) h),
    fun h => takes_event (f := purgeMinExpired) hup (purgeMinExpired_stopped (s := startEvent s) h),
    fun h => takes_event (f := purgeMaxExpired) hup (purgeMaxExpired_stopped (s := startEvent s) h),
    fun h => takes_event (f := retryExpired) hup (retryExpired_stopped (s := startEvent s) h),
    fun h => takes_event (f := wetDwellExpired) hup (wetDwellExpired_stopped (s := startEvent s) h),
    fun c h => takes_event (f := waitLimitExpired c.val) hup (waitLimitExpired_stopped (s := startEvent s) h),
    fun c h => takes_event (f := loadingLimitExpired c.val) hup (loadingLimitExpired_stopped (s := startEvent s) h),
    fun c h => takes_event (f := collectingLimitExpired c.val) hup (collectingLimitExpired_stopped (s := startEvent s) h),
    fun c h => takes_event (f := releaseLimitExpired c.val) hup (releaseLimitExpired_stopped (s := startEvent s) h),
    fun c h => takes_event (f := recallLimitExpired c.val) hup (recallLimitExpired_stopped (s := startEvent s) h)⟩

/-- Settles O32, by the rate the link is going to and by the rate it has. -/
theorem restoreLinkRate : Obligations.RestoreLinkRate := by
  intro s tag hready htag going
  have hgoing : goingTo (taken s) = going := goingTo_eq _
  refine ⟨fun h => answers_restoreLinkRate hready htag (if_pos (hgoing.trans h)), fun h a hb ho => ?_⟩
  have ha : breakOff (taken s).link.activity = a := breakOff_eq hb ho
  have carried : restoreLinkRateRequest (taken s) = okPlain (restoreRate (taken s)) :=
    if_neg fun e => h (hgoing.symm.trans e)
  refine ⟨fun hr => answers_restoreLinkRate hready htag (carried.trans ?_),
    fun hr => answers_restoreLinkRate hready htag (carried.trans ?_)⟩
  · rw [restoreRate_step (s := taken s) hr, ha]; rfl
  · rw [restoreRate_withdraw (s := taken s) hr, ha]; rfl

end Sys2Proof
end

section
/-! The fire requests that bring no confirmation: ACK_FIRE, FIRE_RESET and SET_ARMED (R122 to R124). -/

namespace Sys2Proof.Machine

variable {s t u : State} {tag : Byte} {data : List Byte} {st : Status}

/-! ## What is kept of the layout -/

/-- Every block but the settings, the node table, the roster and the settings image. -/
def Allow.inLayout : Allow :=
  { Allow.all with settings := False, nodes := False, roster := False, image := False }

theorem KeepsLayout.refl : KeepsLayout s s := ⟨rfl, rfl, rfl, rfl, rfl⟩

theorem KeepsLayout.trans (h : KeepsLayout s t) (g : KeepsLayout t u) : KeepsLayout s u := by
  obtain ⟨h1, h2, h3, h4, h5⟩ := h
  obtain ⟨g1, g2, g3, g4, g5⟩ := g
  exact ⟨g1.trans h1, g2.trans h2, g3.trans h3, g4.trans h4, g5.trans h5⟩

/-- A move that leaves the settings, the nodes, the roster and the settings image alone keeps the layout. -/
theorem Moves.keepsLayout {A : Allow} (m : Moves A s t) (hs : ¬A.settings) (hn : ¬A.nodes) (hr : ¬A.roster)
    (hi : ¬A.image) : KeepsLayout s t :=
  ⟨m.settings_eq hs, m.nodes_eq hn, m.roster_eq hr, m.image_eq hi, m.outside⟩

theorem keepsLayout_of_moves (m : Moves .inLayout s t) : KeepsLayout s t := m.keepsLayout id id id id

/-- Taking a request keeps the layout. -/
theorem taken_keepsLayout (s : State) : KeepsLayout s (taken s) := ⟨rfl, rfl, rfl, rfl, rfl⟩

theorem startEvent_keepsLayout (s : State) : KeepsLayout s (startEvent s) := ⟨rfl, rfl, rfl, rfl, rfl⟩

/-! ## Taking a fire record -/

/-- Beside the fire records a new record changes the notices alone. -/
theorem putFire_frame (z : Fin 8) (new : ZoneFire) (s : State) :
    putFire z new s = { s with fire := (putFire z new s).fire, notices := (putFire z new s).notices } := by
  unfold putFire updateAlarm
  dsimp only
  split <;> split <;> rfl

/-- A notice of another key leaves what waits at a place. -/
theorem post_other {n : Notice} {k : Nat} (h : k ≠ n.rank) (s : State) :
    (post n s).notices.pending.get? k = s.notices.pending.get? k :=
  Table.get?_put_other _ _ h

@[simp] theorem post_same (n : Notice) (s : State) : (post n s).notices.pending.get? n.rank = some n :=
  Table.get?_put_same ..

/-- R130: of the record's fields ZONE_FIRE says nothing that depends on the rest of the state. -/
theorem zoneFireNotice_congr {z : Fin 8} (h : t.zoneFire z = s.zoneFire z) :
    zoneFireNotice t z = zoneFireNotice s z := by
  simp only [zoneFireNotice, h]

theorem updateAlarm_notice {k : Nat} (h : k ≠ 8) (s : State) :
    (updateAlarm s).notices.pending.get? k = s.notices.pending.get? k := by
  unfold updateAlarm
  dsimp only
  split
  · rfl
  · exact post_other h _

theorem putFire_noticed {z : Fin 8} {new : ZoneFire} (h : fireNoticeDue (s.zoneFire z) new = true) :
    (putFire z new s).notices.pending.get? z.val = some (zoneFireNotice (putFire z new s) z) := by
  have hz : z.val ≠ 8 := by omega
  have same : (putFire z new s).zoneFire z = (setZoneFire z new s).zoneFire z := by
    rw [putFire_zoneFire_same]
    simp [State.zoneFire, setZoneFire]
  rw [zoneFireNotice_congr same]
  unfold putFire
  dsimp only
  rw [if_pos h, updateAlarm_notice hz]
  exact post_same ..

/-! ## A change of a zone's state -/

theorem changeFire_other {y z : Fin 8} (h : y ≠ z) (new : ZoneFire) (s : State) :
    (changeFire z new s).zoneFire y = s.zoneFire y := by
  unfold changeFire
  dsimp only
  split
  · exact putFire_zoneFire_other h ..
  · rw [zoneFire_congr ((tellFire_butFire z _ _).fire_eq id), putFire_zoneFire_other h]

theorem changeFire_keepsLayout (z : Fin 8) (new : ZoneFire) (s : State) :
    KeepsLayout s (changeFire z new s) :=
  keepsLayout_of_moves (by apply changeFire_moves z new .refl <;> trivial)

/-- R116: the record that the countdown test leaves. -/
theorem countdownTest_state (z : Fin 8) (s : State) :
    (countdownTest z s).zoneFire z =
      if (s.zoneFire z).state = .confirmed ∧ (s.zone z).armed ∧ (s.zoneFire z).hold = .released then
        { s.zoneFire z with state := .countdown, countdownTimer := some (s.param .countdownTime * 1000) }
      else s.zoneFire z := by
  unfold countdownTest
  dsimp only
  split
  · exact changeFire_state ..
  · rfl

theorem countdownTest_other {y z : Fin 8} (h : y ≠ z) (s : State) :
    (countdownTest z s).zoneFire y = s.zoneFire y := by
  unfold countdownTest
  dsimp only
  split
  · exact changeFire_other h ..
  · rfl

/-- R124: the record that a changed armed flag leaves. -/
theorem armedChanged_state (z : Fin 8) (s : State) :
    (armedChanged z s).zoneFire z =
      if (s.zone z).armed = true ∧ (s.zoneFire z).state = .confirmed ∧ (s.zoneFire z).hold = .released then
        { s.zoneFire z with state := .countdown, countdownTimer := some (s.param .countdownTime * 1000) }
      else if (s.zone z).armed = false ∧
          ((s.zoneFire z).state = .countdown ∨ (s.zoneFire z).state = .paused) then
        { s.zoneFire z with state := .confirmed, countdownTimer := none }
      else s.zoneFire z := by
  unfold armedChanged
  dsimp only
  cases ha : (s.zone z).armed with
  | true =>
    rw [if_pos rfl, countdownTest_state, ha]
    by_cases hc : (s.zoneFire z).state = .confirmed ∧ (s.zoneFire z).hold = .released
    · obtain ⟨hs, hh⟩ := hc
      rw [if_pos ⟨hs, rfl, hh⟩, if_pos ⟨rfl, hs, hh⟩]
    · rw [if_neg fun ⟨hs, _, hh⟩ => hc ⟨hs, hh⟩, if_neg fun ⟨_, hs, hh⟩ => hc ⟨hs, hh⟩,
        if_neg fun ⟨hf, _⟩ => absurd hf (by decide)]
  | false =>
    rw [if_neg Bool.false_ne_true, if_neg fun ⟨hf, _⟩ => absurd hf (by decide)]
    split
    · next hs => rw [changeFire_state, if_pos ⟨rfl, .inl hs⟩]
    · next hs => rw [changeFire_state, if_pos ⟨rfl, .inr hs⟩]
    all_goals next hs => rw [hs, if_neg (by simp)]

theorem armedChanged_other {y z : Fin 8} (h : y ≠ z) (s : State) :
    (armedChanged z s).zoneFire y = s.zoneFire y := by
  unfold armedChanged
  dsimp only
  split
  · exact countdownTest_other h s
  · split
    all_goals first | exact changeFire_other h .. | rfl

theorem armedChanged_keepsLayout (z : Fin 8) (s : State) : KeepsLayout s (armedChanged z s) :=
  keepsLayout_of_moves (by apply armedChanged_moves z .refl <;> trivial)

/-! ## The requests -/

theorem answers_ackFire {zone : Byte} (h : HostReady s) (ht : tag ≠ 0)
    (e : ackFireRequest zone (taken s) = .reply st data t) :
    Answers (.ackFire tag zone) tag 0x30 st data s t :=
  answers_of_carryOut h ht rfl rfl e

theorem answers_fireReset {zone : Byte} (h : HostReady s) (ht : tag ≠ 0)
    (e : fireResetRequest zone (taken s) = .reply st data t) :
    Answers (.fireReset tag zone) tag 0x31 st data s t :=
  answers_of_carryOut h ht rfl rfl e

theorem answers_setArmed {zone armed : Byte} (h : HostReady s) (ht : tag ≠ 0)
    (e : setArmedRequest zone armed (taken s) = .reply st data t) :
    Answers (.setArmed tag zone armed) tag 0x32 st data s t :=
  answers_of_carryOut h ht rfl rfl e

theorem answers_setDrill {zone start : Byte} (h : HostReady s) (ht : tag ≠ 0)
    (e : setDrillRequest zone start (taken s) = .reply st data t) :
    Answers (.setDrill tag zone start) tag 0x33 st data s t :=
  answers_of_carryOut h ht rfl rfl e

theorem flagOperand_eq_none {b : Byte} (h : 2 ≤ b.toNat) : flagOperand b = none := by
  have h0 : b ≠ 0 := by rintro rfl; exact absurd h (by decide)
  have h1 : b ≠ 1 := by rintro rfl; exact absurd h (by decide)
  rw [flagOperand, if_neg h0, if_neg h1]

theorem setArmedRequest_refused {zone b : Byte} (h : 8 ≤ zone.toNat ∨ 2 ≤ b.toNat) (s : State) :
    setArmedRequest zone b s = refuse .badOperand s := by
  unfold setArmedRequest
  split
  · next hz hb =>
    rcases h with h | h
    · rw [zoneOperand_eq_none h] at hz; cases hz
    · rw [flagOperand_eq_none h] at hb; cases hb
  · rfl

theorem setDrillRequest_refused {zone b : Byte} (h : 8 ≤ zone.toNat ∨ 2 ≤ b.toNat) (s : State) :
    setDrillRequest zone b s = refuse .badOperand s := by
  unfold setDrillRequest
  split
  · next hz hb =>
    rcases h with h | h
    · rw [zoneOperand_eq_none h] at hz; cases hz
    · rw [flagOperand_eq_none h] at hb; cases hb
  · next hz hb =>
    rcases h with h | h
    · rw [zoneOperand_eq_none h] at hz; cases hz
    · rw [flagOperand_eq_none h] at hb; cases hb
  · rfl

theorem ackFireRequest_outside {zone : Byte} (h : 8 ≤ zone.toNat) (s : State) :
    ackFireRequest zone s = refuse .badOperand s := by
  unfold ackFireRequest
  rw [zoneOperand_eq_none h]

theorem fireResetRequest_outside {zone : Byte} (h : 8 ≤ zone.toNat) (s : State) :
    fireResetRequest zone s = refuse .badOperand s := by
  unfold fireResetRequest
  rw [zoneOperand_eq_none h]

theorem ackFireRequest_inside {zone : Byte} {z : Fin 8} (hz : zone.toNat = z.val) (s : State) :
    ackFireRequest zone s =
      if (s.zoneFire z).state.inFire then
        if (s.zoneFire z).acknowledged then fireReply z s else fireReply z (acknowledge z s)
      else refuse .wrongState s := by
  unfold ackFireRequest
  rw [zoneOperand_eq_some hz]

theorem fireResetRequest_inside {zone : Byte} {z : Fin 8} (hz : zone.toNat = z.val) (s : State) :
    fireResetRequest zone s =
      if resetAllowed (s.zoneFire z) then fireReply z (returnToNormal z s) else refuse .wrongState s := by
  unfold fireResetRequest
  rw [zoneOperand_eq_some hz]

theorem setArmedRequest_inside {zone b : Byte} {z : Fin 8} {a : Bool} (hz : zone.toNat = z.val)
    (ha : flagOperand b = some a) (s : State) :
    setArmedRequest zone b s = fireReply z (setArmedFlag z a s) := by
  unfold setArmedRequest
  rw [zoneOperand_eq_some hz, ha]

theorem isAlarm_iff (h : Head) : h.isAlarm = true ↔ h = .alarm := by cases h <;> decide

/-- R123: the conditions of FIRE_RESET. -/
theorem resetAllowed_iff (f : ZoneFire) :
    resetAllowed f = true ↔
      (f.state = .confirmed ∨ f.state = .paused ∨ f.state = .discharged) ∧ f.headA ≠ .alarm ∧
        f.headB ≠ .alarm ∧ f.acknowledged = true := by
  simp only [resetAllowed, Bool.and_eq_true, Bool.or_eq_true, beq_iff_eq, Bool.not_eq_true',
    ← Bool.not_eq_true, isAlarm_iff, or_assoc, and_assoc, ne_eq]

/-- R124: the settings with an armed flag set. -/
def armedSettings (z : Fin 8) (a : Bool) (x : Settings) : Settings :=
  { x with zones := x.zones.set z { x.zones[z] with armed := a } }

theorem setArmedFlag_same {z : Fin 8} {a : Bool} (h : (s.zone z).armed = a) : setArmedFlag z a s = s :=
  if_pos h

theorem setArmedFlag_changed {z : Fin 8} {a : Bool} (h : (s.zone z).armed ≠ a) :
    setArmedFlag z a s = armedChanged z (s.withSettings (armedSettings z a s.settings)) :=
  if_neg h

theorem zone_armedSettings_same (z : Fin 8) (a : Bool) (s : State) :
    (s.withSettings (armedSettings z a s.settings)).zone z = { s.zone z with armed := a } := by
  simp [State.zone, armedSettings]

theorem zone_armedSettings_other {y z : Fin 8} (h : y ≠ z) (a : Bool) (s : State) :
    (s.withSettings (armedSettings z a s.settings)).zone y = s.zone y := by
  have hv : z.val ≠ y.val := fun e => h (Fin.ext e.symm)
  simp [State.zone, armedSettings, hv]

end Sys2Proof.Machine

namespace Sys2Proof

open Machine

/-- Settles O36, by the operands and by the zone's record. -/
theorem ackFireAcknowledges : Obligations.AckFireAcknowledges := by
  intro s tag zone b hready htag
  refine ⟨fun hz => ⟨?_, ?_⟩, fun hzb => ⟨answers_setArmed hready htag (setArmedRequest_refused hzb _),
    answers_setDrill hready htag (setDrillRequest_refused hzb _)⟩, fun z hz => ?_⟩
  · exact answers_ackFire hready htag (ackFireRequest_outside hz _)
  · exact answers_fireReset hready htag (fireResetRequest_outside hz _)
  have e := ackFireRequest_inside hz (taken s)
  refine ⟨fun hout => ?_, fun hin hack => ?_, fun hin hack => ?_⟩
  · exact answers_ackFire hready htag (e.trans (if_neg fun h => absurd (hout.symm.trans h) (by decide)))
  · exact answers_ackFire hready htag (e.trans ((if_pos hin).trans (if_pos hack)))
  · have due : fireNoticeDue ((taken s).zoneFire z)
        { (taken s).zoneFire z with acknowledged := true, ackTimer := none } = true := by
      have h : (taken s).zoneFire z = s.zoneFire z := rfl
      simp [fireNoticeDue, h, hack]
    refine ⟨acknowledge z (taken s), answers_ackFire hready htag (e.trans ((if_pos hin).trans (if_neg ?_))),
      putFire_zoneFire_same .., fun y hy => putFire_zoneFire_other hy .., fun _ => putFire_alarmRight ..,
      putFire_noticed due, putFire_frame ..⟩
    rw [show ((taken s).zoneFire z).acknowledged = false from hack]
    exact Bool.false_ne_true

/-- Settles O37, by the conditions of R123. -/
theorem fireResetReturnsToNormal : Obligations.FireResetReturnsToNormal := by
  intro s tag zone z hready htag hz f allowed
  have e := fireResetRequest_inside hz (taken s)
  refine ⟨fun hnot => answers_fireReset hready htag (e.trans (if_neg fun h => hnot ((resetAllowed_iff f).mp h))),
    fun hallowed => ⟨returnToNormal z (taken s),
      answers_fireReset hready htag (e.trans (if_pos ((resetAllowed_iff f).mpr hallowed))),
      changeFire_state .., fun y hy => changeFire_other hy ..,
      (taken_keepsLayout s).trans (changeFire_keepsLayout ..)⟩⟩

/-- Settles O38: the flag is set first, and what it does to the zone's state touches no settings. -/
theorem setArmedSetsFlag : Obligations.SetArmedSetsFlag := by
  intro s tag zone b z a hready htag hz ha f
  have e := setArmedRequest_inside hz ha (taken s)
  refine ⟨fun hsame => ?_, fun hnew => ?_⟩
  · rw [setArmedFlag_same (s := taken s) hsame] at e
    exact answers_setArmed hready htag e
  · let v := (taken s).withSettings (armedSettings z a (taken s).settings)
    rw [setArmedFlag_changed (s := taken s) hnew] at e
    have hv : v.zone z = { s.zone z with armed := a } := zone_armedSettings_same z a (taken s)
    obtain ⟨hsettings, hnodes, hroster, himage, _⟩ := armedChanged_keepsLayout z v
    refine ⟨armedChanged z v, answers_setArmed hready htag e, (zone_congr hsettings z).trans hv,
      fun y hy => (zone_congr hsettings y).trans (zone_armedSettings_other hy a (taken s)),
      (congrArg Settings.params hsettings).trans rfl, ?_, fun y hy => armedChanged_other hy v, hnodes, hroster, himage⟩
    rw [armedChanged_state, hv]
    rfl

end Sys2Proof
end

section
/-! Records, roster entries and their images (R50 to R55, R147, R171, R172): what one image write does; and
ENROL_CARTRIDGE, RETIRE_CARTRIDGE and ENROL_COURIER (R64, R65, R148). -/

namespace Sys2Proof.Machine

variable {s t u : State} {tag : Byte} {data : List Byte} {st : Status} {i : Nat}

/-! ## What follows a write -/

/-- R172: beside the store-fault flag and its notice nothing follows a write. -/
theorem afterWrite_frame (fails : Bool) (s : State) :
    afterWrite fails s =
      { s with device := (afterWrite fails s).device, notices := (afterWrite fails s).notices } := by
  cases fails with
  | false => rfl
  | true => exact (faultStore_spec s).2.1

theorem afterWrite_device (fails : Bool) (s : State) :
    (afterWrite fails s).device = { s.device with storeFault := s.device.storeFault || fails } := by
  cases fails with
  | false => rw [Bool.or_false]; rfl
  | true => rw [Bool.or_true]; exact (faultStore_spec s).1

/-- The only notice that follows a write is STORE_FAULT. -/
theorem afterWrite_notice {k : Nat} (h : k ≠ 30) (fails : Bool) (s : State) :
    (afterWrite fails s).notices.pending.get? k = s.notices.pending.get? k := by
  unfold afterWrite faultStore
  split
  · split
    · rfl
    · exact post_other h _
  · rfl

theorem afterWrite_posted {fails : Bool} (hf : fails = true) (h : s.device.storeFault = false) :
    (afterWrite fails s).notices.pending.get? 30 = some .storeFault := by
  subst hf
  exact (faultStore_spec s).2.2 h

/-- A STORE_FAULT that waits goes on waiting. -/
theorem afterWrite_waits (fails : Bool) (h : s.notices.pending.get? 30 = some .storeFault) :
    (afterWrite fails s).notices.pending.get? 30 = some .storeFault := by
  unfold afterWrite faultStore
  split
  · split
    · exact h
    · exact post_same ..
  · exact h

/-! ## One record place -/

/-- The store once the image of a record place has been written. -/
def recordWritten (i : Nat) (s : State) : Store :=
  { s.store with
    records := s.store.records.put i
      (((s.store.records.get? i).getD .factory).written s.store.nextFails ((s.record? i).map Record.retained)),
    undo := .record i (s.store.records.get? i) :: s.store.undo,
    script := s.store.script.tail, writes := s.store.writes + 1 }

theorem writeRecord_eq (i : Nat) (s : State) :
    writeRecord i s = afterWrite s.store.nextFails (s.withStore (recordWritten i s)) := rfl

@[simp] theorem writeRecord_custody (i : Nat) (s : State) : (writeRecord i s).custody = s.custody :=
  (congrArg State.custody (afterWrite_frame s.store.nextFails (s.withStore (recordWritten i s)))).trans rfl

@[simp] theorem writeRecord_store (i : Nat) (s : State) : (writeRecord i s).store = recordWritten i s :=
  (congrArg State.store (afterWrite_frame s.store.nextFails (s.withStore (recordWritten i s)))).trans rfl

theorem record?_congr (h : t.custody = s.custody) (i : Nat) : t.record? i = s.record? i := by
  simp only [State.record?, h]

@[simp] theorem putRecord_same (i : Nat) (r : Record) (s : State) : (putRecord i r s).record? i = some r :=
  Table.get?_put_same ..

theorem putRecord_other {j : Nat} (h : j ≠ i) (r : Record) (s : State) :
    (putRecord i r s).record? j = s.record? j :=
  Table.get?_put_other _ _ h

/-- R171: the image of a record place holds the place where every write was verified. -/
def ImageHolds (i : Nat) (s : State) : Prop :=
  s.device.storeFault = false →
    (s.store.records.get? i).bind Image.loaded = some ((s.record? i).map Record.retained)

theorem ImageHolds.congr (h : ImageHolds i s) (hc : t.custody = s.custody) (hs : t.store = s.store)
    (hd : t.device = s.device) : ImageHolds i t := by
  intro hf
  rw [hd] at hf
  rw [hs, record?_congr hc]
  exact h hf

theorem writeRecord_imageHolds (i : Nat) (s : State) : ImageHolds i (writeRecord i s) := by
  intro hf
  have hd := congrArg Device.storeFault
    (afterWrite_device s.store.nextFails (s.withStore (recordWritten i s)))
  have hok : s.store.nextFails = false := (Bool.or_eq_false_iff.mp (hd.symm.trans hf)).2
  rw [writeRecord_store, record?_congr (writeRecord_custody i s), recordWritten, Table.get?_put_same, hok]
  exact Image.loaded_written ..

/-- The image writes of an event at one record place: what they leave of the rest, and what they say of a
write that failed. -/
structure PlaceWritten (i : Nat) (s t : State) : Prop where
  frame : t = { s with custody := t.custody, store := t.store, device := t.device, notices := t.notices }
  others : ∀ j, j ≠ i → t.record? j = s.record? j
  images : ∀ j, j ≠ i → t.store.records.get? j = s.store.records.get? j
  entries : t.store.roster = s.store.roster
  settings : t.store.settings = s.store.settings
  holds : ImageHolds i t
  faulted : s.device.storeFault = true → t.device.storeFault = true
  fails : s.store.nextFails = true → t.device.storeFault = true ∧
    (s.device.storeFault = false → t.notices.pending.get? 30 = some .storeFault)
  waits : s.notices.pending.get? 30 = some .storeFault → t.notices.pending.get? 30 = some .storeFault
  notice : ∀ k, k ≠ 30 → t.notices.pending.get? k = s.notices.pending.get? k

/-- A change of a place's working copy and the write of its image. -/
theorem placeWritten_of_write {c : Custody} (h : ∀ j, j ≠ i → (s.withCustody c).record? j = s.record? j) :
    PlaceWritten i s (writeRecord i (s.withCustody c)) := by
  let v := (s.withCustody c).withStore (recordWritten i (s.withCustody c))
  have hd : (writeRecord i (s.withCustody c)).device = _ := afterWrite_device s.store.nextFails v
  have hframe : writeRecord i (s.withCustody c) = _ := afterWrite_frame s.store.nextFails v
  refine ⟨?frame, fun j hj => (record?_congr (writeRecord_custody ..) j).trans (h j hj), fun j hj => ?images,
    ?entries, ?settings, writeRecord_imageHolds i _, fun hf => ?faulted, fun hf => ⟨?fault, fun h0 => ?posted⟩,
    fun hw => afterWrite_waits (s := v) _ hw, fun k hk => afterWrite_notice hk s.store.nextFails v⟩
  case frame =>
    rw [writeRecord_custody, writeRecord_store]
    exact hframe
  case images =>
    rw [writeRecord_store]
    exact Table.get?_put_other _ _ hj
  case entries => rw [writeRecord_store]; rfl
  case settings => rw [writeRecord_store]; rfl
  case faulted => rw [hd]; exact Bool.or_eq_true_iff.mpr (.inl hf)
  case fault => rw [hd]; exact Bool.or_eq_true_iff.mpr (.inr hf)
  case posted => exact afterWrite_posted (s := v) hf h0

theorem placeWritten_putRecord (i : Nat) (r : Record) (s : State) :
    PlaceWritten i s (writeRecord i (putRecord i r s)) :=
  placeWritten_of_write fun _ hj => putRecord_other hj r s

theorem PlaceWritten.trans (h : PlaceWritten i s t) (g : PlaceWritten i t u) : PlaceWritten i s u where
  frame := by rw [g.frame, h.frame]
  others j hj := (g.others j hj).trans (h.others j hj)
  images j hj := (g.images j hj).trans (h.images j hj)
  entries := g.entries.trans h.entries
  settings := g.settings.trans h.settings
  holds := g.holds
  faulted hf := g.faulted (h.faulted hf)
  fails hf := ⟨g.faulted (h.fails hf).1, fun h0 => g.waits ((h.fails hf).2 h0)⟩
  waits hw := g.waits (h.waits hw)
  notice k hk := (g.notice k hk).trans (h.notice k hk)

/-! ## Exposure of one record (R93) -/

theorem expose_record {r : Record} (h : s.record? i = some r) :
    expose i s = if r.exposed then s else writeRecord i (putRecord i { r with exposed := true } s) := by
  unfold expose
  rw [h]

/-- R93: a record that becomes located in an EXPOSING zone is marked. -/
theorem climateTold_record {old : Option Location} {r : Record} (h : s.record? i = some r)
    (hn : old ≠ some r.location) :
    climateTold i old s =
      match zoneOfLocation s r.location with
      | some z => if (s.zoneClimate z).excursion = .exposing then expose i s else s
      | none => s := by
  unfold climateTold
  rw [h]
  exact if_neg hn

theorem climateTold_same {r : Record} (h : s.record? i = some r) :
    climateTold i (some r.location) s = s := by
  unfold climateTold
  rw [h]
  exact if_pos rfl

/-! ## The wet dwell -/

theorem updateWetDwell_frame (s : State) :
    updateWetDwell s = { s with hatch := (updateWetDwell s).hatch } := by
  unfold updateWetDwell
  split
  · split <;> rfl
  · rfl

theorem updateWetDwell_contents (s : State) : (updateWetDwell s).hatch.contents = s.hatch.contents := by
  unfold updateWetDwell
  split
  · split <;> rfl
  · rfl

@[simp] theorem updateWetDwell_custody (s : State) : (updateWetDwell s).custody = s.custody :=
  (congrArg State.custody (updateWetDwell_frame s)).trans rfl
@[simp] theorem updateWetDwell_store (s : State) : (updateWetDwell s).store = s.store :=
  (congrArg State.store (updateWetDwell_frame s)).trans rfl
@[simp] theorem updateWetDwell_device (s : State) : (updateWetDwell s).device = s.device :=
  (congrArg State.device (updateWetDwell_frame s)).trans rfl
@[simp] theorem updateWetDwell_notices (s : State) : (updateWetDwell s).notices = s.notices :=
  (congrArg State.notices (updateWetDwell_frame s)).trans rfl
@[simp] theorem updateWetDwell_record? (s : State) (j : Nat) : (updateWetDwell s).record? j = s.record? j :=
  record?_congr (updateWetDwell_custody s) j

/-! ## ENROL_CARTRIDGE -/

/-- The block that owns ENROL_CARTRIDGE reads its operands as the fields that were sent. -/
theorem carryOut_enrolCartridge (tag : Byte) (label : Label) (home : Half) (s : State) :
    carryOut tag 0x50 (fieldLabel label ++ fieldHalf home) s = enrolCartridgeRequest label home s :=
  congrArg₂ (enrolCartridgeRequest · · s) (readLabel_fieldLabel label) (read_home home)

theorem answers_enrolCartridge {label : Label} {home : Half} (h : HostReady s) (ht : tag ≠ 0)
    (e : enrolCartridgeRequest label home (taken s) = .reply st data t) :
    Answers (.enrolCartridge tag label home) tag 0x50 st data s t :=
  answers_of_carryOut h ht rfl rfl ((carryOut_enrolCartridge ..).trans e)

/-- R64: the record of an enrolment in a zone. -/
def Record.enrolledIn (label : Label) (home : Nat) (exposing : Bool) : Record :=
  { Record.enrolled label home with exposed := exposing }

/-- R64, R93: the working copy and the image of an enrolled record, marked where its zone is EXPOSING. -/
theorem enrolled_written {label : Label} {home : Nat} {z : Fin 8} (hz : zoneOfSlot s home = some z) (i : Nat) :
    ∃ t, climateTold i none (writeRecord i (putRecord i (.enrolled label home) s)) = t ∧ PlaceWritten i s t ∧
      t.record? i = some (.enrolledIn label home (decide ((s.zoneClimate z).excursion = .exposing))) := by
  let v := writeRecord i (putRecord i (.enrolled label home) s)
  have hv : PlaceWritten i s v := placeWritten_putRecord ..
  have hrecord : v.record? i = some (.enrolled label home) :=
    (record?_congr (writeRecord_custody ..) i).trans (putRecord_same ..)
  have hzone : zoneOfLocation v (Record.enrolled label home).location = some z := by
    rw [hv.frame]; exact hz
  have hclimate : v.zoneClimate z = s.zoneClimate z := zoneClimate_congr (by rw [hv.frame]) z
  refine ⟨_, climateTold_record hrecord (by simp), ?_⟩
  rw [hzone]
  dsimp only
  rw [hclimate]
  split
  · next h =>
    have told : expose i v = writeRecord i (putRecord i (.enrolledIn label home true) v) :=
      (expose_record hrecord).trans (if_neg Bool.false_ne_true)
    rw [told, decide_eq_true h]
    exact ⟨hv.trans (placeWritten_putRecord ..),
      (record?_congr (writeRecord_custody ..) i).trans (putRecord_same ..)⟩
  · next h =>
    rw [decide_eq_false h]
    exact ⟨hv, hrecord⟩

/-! ## RETIRE_CARTRIDGE -/

theorem carryOut_retireCartridge (tag : Byte) (label : Label) (s : State) :
    carryOut tag 0x51 (fieldLabel label) s = retireCartridgeRequest label s :=
  congrArg (retireCartridgeRequest · s) (readLabel_fieldLabel label)

theorem answers_retireCartridge {label : Label} (h : HostReady s) (ht : tag ≠ 0)
    (e : retireCartridgeRequest label (taken s) = .reply st data t) :
    Answers (.retireCartridge tag label) tag 0x51 st data s t :=
  answers_of_carryOut h ht rfl rfl ((carryOut_retireCartridge ..).trans e)

theorem retireCartridgeRequest_malformed {label : Label} (h : labelOk label = false) (s : State) :
    retireCartridgeRequest label s = refuse .badOperand s :=
  if_neg (by rw [h]; exact Bool.false_ne_true)

theorem retireCartridgeRequest_unheld {label : Label} (h : labelOk label = true)
    (hf : findLabel s label = none) : retireCartridgeRequest label s = refuse .notFound s := by
  simp only [retireCartridgeRequest, h, if_true, hf]

theorem retireCartridgeRequest_held {label : Label} {r : Record} (h : labelOk label = true)
    (hf : findLabel s label = some i) (hr : s.record? i = some r) :
    retireCartridgeRequest label s = checked (retireChecks s i r) s (okPlain (retireEffect i r s)) := by
  simp only [retireCartridgeRequest, h, if_true, hf, hr]

theorem retirable_iff (c : CState) : c.retirable = true ↔ c = .shelved ∨ c.isBlocked = true := by
  cases c <;> simp [CState.retirable, CState.isBlocked]

/-- R53: a free place that was BLOCKED leaves the count and the reference; the records stand. -/
theorem blockedNote_left (i : Nat) (before : CState) (s : State) :
    (blockedNote false i before .shelved s).custody.records = s.custody.records ∧
      blockedNote false i before .shelved s =
        { s with custody := (blockedNote false i before .shelved s).custody,
                 notices := (blockedNote false i before .shelved s).notices } ∧
      (before.isBlocked = true → (blockedNote false i before .shelved s).notices.pending.get? 28 =
        some (blockedNotice (blockedNote false i before .shelved s))) := by
  unfold blockedNote
  cases hb : before.isBlocked with
  | false => exact ⟨rfl, rfl, fun h => absurd h (by decide)⟩
  | true =>
    dsimp only [CState.isBlocked]
    split
    · exact ⟨rfl, rfl, fun _ => post_same ..⟩
    · exact ⟨rfl, rfl, fun _ => post_same ..⟩

/-- R53: BLOCKED_CHANGED speaks of the records alone. -/
theorem blockedNotice_congr (h : t.custody = s.custody) : blockedNotice t = blockedNotice s := by
  simp only [blockedNotice, countState, State.record?, h]

/-- R65: the record place is freed and its image is marked free. -/
def retired (i : Nat) (s : State) : State :=
  writeRecord i (s.withCustody { s.custody with records := s.custody.records.erase i })

theorem retired_placeWritten (i : Nat) (s : State) : PlaceWritten i s (retired i s) :=
  placeWritten_of_write fun _ hj => Table.get?_erase_other _ hj

theorem retireEffect_eq (i : Nat) (r : Record) (s : State) :
    retireEffect i r s = updateWetDwell (blockedNote false i r.state .shelved (retired i s)) := rfl

/-! ## Roster entries -/

/-- The store once the image of a roster entry has been written. -/
def courierWritten (i : Nat) (s : State) : Store :=
  { s.store with
    roster := s.store.roster.put i
      (((s.store.roster.get? i).getD .factory).written s.store.nextFails (s.courierAt? i)),
    undo := .courier i (s.store.roster.get? i) :: s.store.undo,
    script := s.store.script.tail, writes := s.store.writes + 1 }

theorem writeCourier_eq (i : Nat) (s : State) :
    writeCourier i s = afterWrite s.store.nextFails (s.withStore (courierWritten i s)) := rfl

/-- A roster entry set, with its image, and what is left of the rest (R147). -/
structure EntryWritten (i : Nat) (x : Courier) (s t : State) : Prop where
  frame : t = { s with handover := t.handover, store := t.store, device := t.device, notices := t.notices }
  entry : t.courierAt? i = some x
  others : ∀ j, j ≠ i → t.courierAt? j = s.courierAt? j
  contexts : t.handover.contexts = s.handover.contexts
  holds : s.store.nextFails = false → (t.store.roster.get? i).bind Image.loaded = some (t.courierAt? i)
  images : ∀ j, j ≠ i → t.store.roster.get? j = s.store.roster.get? j
  records : t.store.records = s.store.records
  settings : t.store.settings = s.store.settings

theorem putCourier_written (i : Nat) (x : Courier) (s : State) : EntryWritten i x s (putCourier i x s) := by
  let u := s.withHandover { s.handover with roster := s.handover.roster.put i x }
  have hframe : putCourier i x s = _ := afterWrite_frame s.store.nextFails (u.withStore (courierWritten i u))
  have hhand : (putCourier i x s).handover = u.handover := (congrArg State.handover hframe).trans rfl
  have hstore : (putCourier i x s).store = courierWritten i u := (congrArg State.store hframe).trans rfl
  have entry : ∀ j, (putCourier i x s).courierAt? j = u.courierAt? j := fun j => by
    simp only [State.courierAt?, hhand]
  have held : u.courierAt? i = some x := Table.get?_put_same ..
  refine ⟨?frame, (entry i).trans held, fun j hj => (entry j).trans (Table.get?_put_other _ _ hj),
    (congrArg Handover.contexts hhand).trans rfl, fun hok => ?holds, fun j hj => ?images,
    (congrArg Store.records hstore).trans rfl, (congrArg Store.settings hstore).trans rfl⟩
  case frame => rw [hhand, hstore]; exact hframe
  case holds =>
    have hok' : u.store.nextFails = false := hok
    rw [entry, held, hstore, courierWritten, Table.get?_put_same, hok', held]
    exact Image.loaded_written ..
  case images => rw [hstore]; exact Table.get?_put_other _ _ hj

theorem courierIdOk_iff (courier : Half) :
    courierIdOk courier = true ↔ 1 ≤ courier.toNat ∧ courier.toNat ≤ 65000 := by
  simp only [courierIdOk, Bool.and_eq_true, decide_eq_true_eq]

/-- The block that owns ENROL_COURIER reads its operands as the fields that were sent. -/
theorem carryOut_enrolCourier (tag : Byte) (courier : Half) (code : BitVec 24) (s : State) :
    carryOut tag 0x70 (fieldHalf courier ++ field24 code.toNat) s = enrolCourierRequest courier code s :=
  congrArg₂ (enrolCourierRequest · · s) (half_bytes courier) (code_bytes code)

theorem answers_enrolCourier {courier : Half} {code : BitVec 24} (h : HostReady s) (ht : tag ≠ 0)
    (e : enrolCourierRequest courier code (taken s) = .reply st data t) :
    Answers (.enrolCourier tag courier code) tag 0x70 st data s t :=
  answers_of_carryOut h ht rfl rfl ((carryOut_enrolCourier ..).trans e)

end Sys2Proof.Machine

namespace Sys2Proof

open Machine

/-- Settles O46, by the checks; the writes of the event touch the one place (`PlaceWritten`). -/
theorem enrolCartridgeMakesRecord : Obligations.EnrolCartridgeMakesRecord := by
  intro s tag label home hready htag i
  refine ⟨fun st hst => answers_enrolCartridge hready htag (checked_fails hst), fun z hnone hz => ?_⟩
  obtain ⟨v, hv, w, hrecord⟩ := enrolled_written (s := taken s) (label := label) hz i
  have carried : enrolCartridgeRequest label home (taken s) = .reply .ok (field16 i) (updateWetDwell v) := by
    rw [← hv]
    exact checked_passes hnone
  have free : s.device.storeFault = false := by
    cases hf : s.device.storeFault with
    | false => rfl
    | true =>
      refine absurd hnone ?_
      unfold enrolChecks
      rw [hf]
      cases labelOk label <;> cases decide (home.toNat ≤ 4095) <;> simp [firstFailure]
  have contents : v.hatch.contents = s.hatch.contents := by rw [w.frame]; rfl
  refine ⟨_, answers_enrolCartridge hready htag carried, ?_, fun j hj => ?_, ?_, ?_, ?_, ?_, fun hf => ?_, ?_, ?_⟩
  · rw [updateWetDwell_record?]; exact hrecord
  · rw [updateWetDwell_record?]; exact w.others j hj
  · exact w.holds.congr (updateWetDwell_custody v) (updateWetDwell_store v) (updateWetDwell_device v)
  · rw [updateWetDwell_store]; exact w.images
  · rw [updateWetDwell_store]; exact w.entries
  · rw [updateWetDwell_store]; exact w.settings
  · rw [updateWetDwell_device, updateWetDwell_notices]
    exact ⟨(w.fails hf).1, (w.fails hf).2 free⟩
  · exact (updateWetDwell_contents v).trans contents
  · rw [updateWetDwell_custody, updateWetDwell_store, updateWetDwell_device, updateWetDwell_notices]
    exact (updateWetDwell_frame v).trans (by rw [w.frame])

/-- Settles O47, by the label, the record's state and what still uses it. -/
theorem retireCartridgeFreesPlace : Obligations.RetireCartridgeFreesPlace := by
  intro s tag label hready htag
  refine ⟨fun hbad => answers_retireCartridge hready htag (retireCartridgeRequest_malformed hbad _),
    fun hok hf => answers_retireCartridge hready htag (retireCartridgeRequest_unheld (s := taken s) hok hf),
    fun i r hok hf hr => ?_⟩
  have e := retireCartridgeRequest_held (s := taken s) hok hf hr
  have refused : ∀ {st}, firstFailure (retireChecks (taken s) i r) = some st →
      Refuses (.retireCartridge tag label) tag 0x51 st s := fun h =>
    answers_retireCartridge hready htag (e.trans (checked_fails h))
  have stateOk : r.state.retirable = true ↔ r.state = .shelved ∨ r.state.isBlocked = true := retirable_iff _
  refine ⟨fun hs hb => refused (firstFailure_fail ?_), fun hstate => ?_⟩
  · rw [← Bool.not_eq_true, stateOk]
    rintro (h | h)
    · exact hs h
    · rw [hb] at h; cases h
  have pass := stateOk.mpr hstate
  refine ⟨fun hused => refused ((firstFailure_pass pass).trans ?_), fun hplace horders => ?_⟩
  · by_cases hrack : ∃ p, r.location = .rack p
    · obtain ⟨p, hp⟩ := hrack
      exact firstFailure_fail (by rw [hp])
    · obtain ⟨k, o, hko, en, hen, heq⟩ := hused.resolve_left hrack
      refine (firstFailure_pass ?_).trans (firstFailure_fail ?_)
      · cases hl : r.location with
        | rack p => exact absurd ⟨p, hl⟩ hrack
        | _ => rfl
      · rw [← Bool.not_eq_true, List.all_eq_true]
        intro h
        have := List.all_eq_true.mp (h (k, o) hko) en hen
        simp [heq] at this
  · have passed : firstFailure (retireChecks (taken s) i r) = none := by
      refine (firstFailure_pass pass).trans ((firstFailure_pass ?_).trans ((firstFailure_pass ?_).trans rfl))
      · cases hl : r.location with
        | rack p => exact absurd hl (hplace p)
        | _ => rfl
      · rw [List.all_eq_true]
        intro p hp
        rw [List.all_eq_true]
        intro en hen
        simpa using horders p.1 p.2 hp en hen
    have w := retired_placeWritten i (taken s)
    obtain ⟨hrecords, hframe, hposted⟩ := blockedNote_left i r.state (retired i (taken s))
    generalize hv : blockedNote false i r.state .shelved (retired i (taken s)) = v at hrecords hframe hposted
    have hstore : v.store = (retired i (taken s)).store := by rw [hframe]
    have hrec : ∀ j, v.record? j = (retired i (taken s)).record? j := fun j => by
      simp only [State.record?, hrecords]
    have erased : v.record? i = none := by
      rw [hrec, retired, record?_congr (writeRecord_custody ..)]
      exact Table.get?_erase_same ..
    refine ⟨updateWetDwell v, answers_retireCartridge hready htag ((e.trans (checked_passes passed)).trans ?_),
      ?_, fun j hj => ?_, fun hfails => ?_, ?_, ?_, ?_, fun hb => ?_, ?_⟩
    · rw [retireEffect_eq, hv]; rfl
    · rw [updateWetDwell_record?]; exact erased
    · rw [updateWetDwell_record?, hrec]; exact w.others j hj
    · rw [updateWetDwell_store, hstore, retired, writeRecord_store, recordWritten, Table.get?_put_same]
      have free : ((taken s).withCustody
          { (taken s).custody with records := (taken s).custody.records.erase i }).record? i = none :=
        Table.get?_erase_same ..
      have ok : ((taken s).withCustody
          { (taken s).custody with records := (taken s).custody.records.erase i }).store.nextFails = false := hfails
      rw [free, ok]
      exact Image.loaded_written ..
    · rw [updateWetDwell_store, hstore]; exact w.images
    · rw [updateWetDwell_store, hstore]; exact w.entries
    · rw [updateWetDwell_store, hstore]; exact w.settings
    · rw [updateWetDwell_notices, blockedNotice_congr (updateWetDwell_custody v)]
      exact hposted hb
    · rw [updateWetDwell_custody, updateWetDwell_store, updateWetDwell_device, updateWetDwell_notices]
      exact (updateWetDwell_frame v).trans (by rw [hframe, w.frame])

/-- Settles O54, by the checks; the entry is set with its image (`EntryWritten`). -/
theorem enrolCourierTakesEntry : Obligations.EnrolCourierTakesEntry := by
  intro s tag courier code hready htag i c idOk
  have idIff : courierIdOk courier = true ↔ idOk := courierIdOk_iff courier
  have refused : ∀ {st}, firstFailure
      [(courierIdOk courier, .badOperand), (decide (code.toNat ≤ 999999), .badOperand),
       (!s.device.storeFault, .storeFault), (decide (i < Config.rosterEntries), .tableFull)] = some st →
      Refuses c tag 0x70 st s := fun h => answers_enrolCourier hready htag (checked_fails h)
  refine ⟨fun hbad => refused ?_, fun hid hcode hfault => refused ?_, fun hid hcode hfault hfull => refused ?_,
    fun hid hcode hfault hfree => ?_⟩
  · by_cases hid : idOk
    · refine (firstFailure_pass (idIff.mpr hid)).trans (firstFailure_fail (decide_eq_false ?_))
      exact Nat.not_le.mpr (hbad.resolve_left fun h => h hid)
    · exact firstFailure_fail (by rw [← Bool.not_eq_true, idIff]; exact hid)
  · refine (firstFailure_pass (idIff.mpr hid)).trans ((firstFailure_pass (decide_eq_true hcode)).trans
      (firstFailure_fail ?_))
    rw [hfault]; rfl
  · refine (firstFailure_pass (idIff.mpr hid)).trans ((firstFailure_pass (decide_eq_true hcode)).trans
      ((firstFailure_pass ?_).trans (firstFailure_fail (decide_eq_false (Nat.not_lt.mpr hfull)))))
    rw [hfault]; rfl
  · have carried : enrolCourierRequest courier code (taken s) =
        okPlain (putCourier i ⟨courier.toNat, code.toNat, .active, 0⟩ (taken s)) := by
      refine checked_passes ((firstFailure_pass (idIff.mpr hid)).trans ((firstFailure_pass
        (decide_eq_true hcode)).trans ((firstFailure_pass ?_).trans
          (firstFailure_pass (decide_eq_true (by exact hfree))))))
      rw [show (taken s).device.storeFault = false from hfault]; rfl
    have w := putCourier_written i ⟨courier.toNat, code.toNat, .active, 0⟩ (taken s)
    exact ⟨_, answers_enrolCourier hready htag carried, w.entry, w.others, w.holds, w.images, w.records,
      w.settings, w.contexts, w.frame⟩

end Sys2Proof
end

section
/-! A change of one record as an event (R52 to R54): what it leaves of the other records, the orders and the
images; and UNBLOCK_CARTRIDGE (R68). -/

namespace Sys2Proof.Machine

variable {s t u : State} {tag : Byte} {data : List Byte} {st : Status} {i : Nat}

/-! ## An event at one record -/

/-- What an event that concerns record i alone leaves as it was: the other records and their images, the
orders, the roster's images; and a faulted store stays so. -/
structure AtRecord (i : Nat) (s t : State) : Prop where
  others : ∀ j, j ≠ i → t.record? j = s.record? j
  images : ∀ j, j ≠ i → t.store.records.get? j = s.store.records.get? j
  orders : t.orders = s.orders
  entries : t.store.roster = s.store.roster
  faulted : s.device.storeFault = true → t.device.storeFault = true

theorem AtRecord.refl : AtRecord i s s := ⟨fun _ _ => rfl, fun _ _ => rfl, rfl, rfl, id⟩

theorem AtRecord.trans (h : AtRecord i s t) (g : AtRecord i t u) : AtRecord i s u where
  others j hj := (g.others j hj).trans (h.others j hj)
  images j hj := (g.images j hj).trans (h.images j hj)
  orders := g.orders.trans h.orders
  entries := g.entries.trans h.entries
  faulted := g.faulted ∘ h.faulted

/-- What is told to the blocks beside a change of a record (R52). -/
def Allow.tellings : Allow :=
  ⟨False, False, True, True, False, False, False, True, False, False, False, False, True, False, False, False, False⟩

theorem atRecord_of_tellings (m : Moves .tellings s t) : AtRecord i s t where
  others j _ := record?_congr (m.custody_eq id) j
  images j _ := by rw [m.store_eq id]
  orders := m.orders_eq id
  entries := by rw [m.store_eq id]
  faulted h := by rw [m.device_eq id]; exact h

theorem PlaceWritten.atRecord (w : PlaceWritten i s t) : AtRecord i s t where
  others := w.others
  images := w.images
  orders := by rw [w.frame]
  entries := w.entries
  faulted := w.faulted

/-- An image that holds its record goes on holding it at an event of another one. -/
theorem AtRecord.imageHolds {j : Nat} (h : AtRecord i s t) (hj : j ≠ i) (hi : ImageHolds j s) :
    ImageHolds j t := by
  intro hf
  have hf' : s.device.storeFault = false := by
    rw [← Bool.not_eq_true] at hf ⊢
    exact fun e => hf (h.faulted e)
  rw [h.images j hj, h.others j hj]
  exact hi hf'

/-- What is told beside a change leaves every image that holds its record. -/
theorem ImageHolds.told (h : ImageHolds i s) (m : Moves .tellings s t) : ImageHolds i t :=
  h.congr (m.custody_eq id) (m.store_eq id) (m.device_eq id)

/-! ## The change itself -/

/-- R53: of the Custody Table the bookkeeping of BLOCKED changes the reference alone. -/
theorem blockedNote_records (quiet : Bool) (i : Nat) (before after : CState) (s : State) :
    (blockedNote quiet i before after s).custody.records = s.custody.records := by
  unfold blockedNote
  split
  · split <;> rfl
  · dsimp only
    split <;> rfl
  all_goals rfl

theorem blockedNote_frame (quiet : Bool) (i : Nat) (before after : CState) (s : State) :
    blockedNote quiet i before after s =
      { s with custody := (blockedNote quiet i before after s).custody,
               notices := (blockedNote quiet i before after s).notices } := by
  unfold blockedNote
  split
  · split <;> rfl
  · dsimp only
    split <;> rfl
  all_goals rfl

theorem blockedNote_record? (quiet : Bool) (i : Nat) (before after : CState) (s : State) (j : Nat) :
    (blockedNote quiet i before after s).record? j = s.record? j := by
  simp only [State.record?, blockedNote_records]

theorem blockedNote_atRecord (quiet : Bool) (i : Nat) (before after : CState) (s : State) :
    AtRecord i s (blockedNote quiet i before after s) where
  others j _ := blockedNote_record? ..
  images j _ := by rw [blockedNote_frame]
  orders := by rw [blockedNote_frame]
  entries := by rw [blockedNote_frame]
  faulted h := by rw [blockedNote_frame]; exact h

theorem basicChange_eq {old : Record} (h : s.record? i = some old) (quiet : Bool) (new : Record) :
    basicChange quiet i new s =
      blockedNote quiet i old.state new.state (writeRecord i (putRecord i (normalise new) s)) := by
  unfold basicChange
  rw [h]

theorem basicChange_atRecord (quiet : Bool) (i : Nat) (new : Record) (s : State) :
    AtRecord i s (basicChange quiet i new s) := by
  cases h : s.record? i with
  | none => unfold basicChange; rw [h]; exact .refl
  | some old =>
    rw [basicChange_eq h]
    exact (placeWritten_putRecord ..).atRecord.trans (blockedNote_atRecord ..)

/-- R52: the working copy holds the new record, with the fields dropped that it does not allow. -/
theorem basicChange_record {old : Record} (h : s.record? i = some old) (quiet : Bool) (new : Record) :
    (basicChange quiet i new s).record? i = some (normalise new) := by
  rw [basicChange_eq h, blockedNote_record?, record?_congr (writeRecord_custody ..), putRecord_same]

theorem basicChange_imageHolds {old : Record} (h : s.record? i = some old) (quiet : Bool) (new : Record) :
    ImageHolds i (basicChange quiet i new s) := by
  rw [basicChange_eq h]
  have w : ImageHolds i (writeRecord i (putRecord i (normalise new) s)) := writeRecord_imageHolds i _
  intro hf
  rw [blockedNote_frame] at hf
  rw [blockedNote_record?, blockedNote_frame]
  exact w hf

/-- R53: what leaving BLOCKED does to the reference and the notice. -/
theorem blockedNote_unblocks {before after : CState} (hb : before.isBlocked = true)
    (ha : after.isBlocked = false) (s : State) :
    (blockedNote false i before after s).custody.newestBlocked =
        (if s.custody.newestBlocked = some i then none else s.custody.newestBlocked) ∧
      (blockedNote false i before after s).notices.pending.get? 28 =
        some (blockedNotice (blockedNote false i before after s)) := by
  unfold blockedNote
  rw [hb, ha]
  dsimp only
  split
  · exact ⟨rfl, post_same ..⟩
  · exact ⟨rfl, post_same ..⟩

/-! ## What a change tells -/

theorem zoneOfLocation_congr (h : t.settings = s.settings) (l : Location) :
    zoneOfLocation t l = zoneOfLocation s l := by
  cases l <;> simp only [zoneOfLocation, zoneOfSlot, State.rackZone, State.param, h]

/-- R93: a place in no zone marks no record. -/
theorem climateTold_nowhere {old : Option Location} {r : Record} (h : s.record? i = some r)
    (hz : zoneOfLocation s r.location = none) : climateTold i old s = s := by
  by_cases e : old = some r.location
  · rw [e]; exact climateTold_same h
  · rw [climateTold_record h e, hz]

/-- R109: the rack posts under its own keys. -/
theorem postRack_notice {k : Nat} (h : k < 39) (p : Fin 12) (e : RackEvent) (o : Option Occupant) (s : State) :
    (postRack p e o s).notices.pending.get? k = s.notices.pending.get? k :=
  post_other (show k ≠ 39 + p.val by omega) s

theorem emptyPosition_notice {k : Nat} (h : k < 39) (p : Fin 12) (s : State) :
    (emptyPosition p s).notices.pending.get? k = s.notices.pending.get? k := by
  unfold emptyPosition
  dsimp only
  split
  · rfl
  · exact postRack_notice h ..

theorem rackTold_notice {k : Nat} (h : k < 39) (i : Nat) (old : Record) (s : State) :
    (rackTold i old s).notices.pending.get? k = s.notices.pending.get? k := by
  unfold rackTold
  split
  · dsimp only
    split
    · split
      · exact emptyPosition_notice h ..
      · split
        · exact postRack_notice h ..
        · rfl
    · rfl
  · rfl

/-- The blocks that a manifest is kept in and shown by. -/
def Allow.manifest : Allow :=
  ⟨False, False, False, True, False, False, False, False, False, False, False, False, True, False, False, False, False⟩

/-- What is told beside a change of a record, and what it posts. -/
structure Told (s t : State) : Prop where
  moves : Moves .tellings s t
  notice : ∀ k, k < 39 → t.notices.pending.get? k = s.notices.pending.get? k

/-- The handovers and the rack are told without a further change of a record. -/
theorem tellOthers_told (who : Claimant) (i : Nat) (old : Record) (s : State) :
    ∃ t, tellOthers who i old s = climateTold i (some old.location) t ∧ Told s t := by
  have handover : Told s (match who with
      | .handover _ => s
      | .custody | .orders | .rack | .climate | .hatch | .fire => handoverTold i old s) := by
    have m : Moves .manifest s (handoverTold i old s) := handoverTold_moves i old .refl trivial trivial
    have told : Told s (handoverTold i old s) :=
      ⟨handoverTold_moves i old .refl trivial trivial, fun k _ => by rw [m.notices_eq id]⟩
    cases who with
    | handover _ => exact ⟨.refl, fun _ _ => rfl⟩
    | _ => exact told
  refine ⟨_, rfl, ?_⟩
  split
  · exact handover
  · exact ⟨rackTold_moves i old handover.moves trivial trivial,
      fun k hk => (rackTold_notice hk ..).trans (handover.notice k hk)⟩

/-- A change that leaves a record in its place, or takes it to a place in no zone, is told to the other blocks
without a further change of a record. -/
theorem tellOthers_still {old r : Record} (who : Claimant) (h : s.record? i = some r)
    (hl : r.location = old.location ∨ zoneOfLocation s r.location = none) :
    Told s (tellOthers who i old s) := by
  obtain ⟨t, e, told⟩ := tellOthers_told who i old s
  have hr : t.record? i = some r := (record?_congr (told.moves.custody_eq id) i).trans h
  have still : climateTold i (some old.location) t = t := by
    rcases hl with hl | hl
    · rw [← hl]
      exact climateTold_same hr
    · exact climateTold_nowhere hr ((zoneOfLocation_congr (told.moves.settings_eq id) _).trans hl)
  rw [e, still]
  exact told

/-! ## A whole change -/

theorem changeRecord_eq {old : Record} (h : s.record? i = some old) (who : Claimant) (quiet : Bool)
    (new : Record) :
    changeRecord who quiet i new s = tellOthers who i old
      (if new.state ≠ old.state then orderTold who i (basicChange quiet i new s)
       else basicChange quiet i new s) := by
  unfold changeRecord
  rw [h]

/-- What every change of records leaves as it was. -/
theorem changeRecord_records (who : Claimant) (quiet : Bool) (i : Nat) (new : Record) (s : State) :
    Moves .records s (changeRecord who quiet i new s) := by
  apply changeRecord_moves who quiet i new .refl <;> trivial

/-- A change of records keeps the layout. -/
theorem Moves.records_keepsLayout (m : Moves .records s t) : KeepsLayout s t := m.keepsLayout id id id id

/-- R72 to R74: of a change to SHELVED or LOOSE the Order Queue makes nothing. -/
theorem orderTold_still {r : Record} (who : Claimant) (h : s.record? i = some r)
    (hs : r.state = .shelved ∨ r.state = .loose) : orderTold who i s = s := by
  unfold orderTold
  rw [h]
  dsimp only
  split
  · rfl
  · split
    · rfl
    · split
      · rfl
      · rcases hs with hs | hs <;> rw [hs]

/-! ## UNBLOCK_CARTRIDGE -/

theorem carryOut_unblockCartridge (tag : Byte) (label : Label) (s : State) :
    carryOut tag 0x54 (fieldLabel label) s = unblockCartridgeRequest label s :=
  congrArg (unblockCartridgeRequest · s) (readLabel_fieldLabel label)

theorem answers_unblockCartridge {label : Label} (h : HostReady s) (ht : tag ≠ 0)
    (e : unblockCartridgeRequest label (taken s) = .reply st data t) :
    Answers (.unblockCartridge tag label) tag 0x54 st data s t :=
  answers_of_carryOut h ht rfl rfl ((carryOut_unblockCartridge ..).trans e)

/-- R68: the checks of UNBLOCK_CARTRIDGE before the record's own. -/
def unblockChecks (s : State) (label : Label) : List (Bool × Status) :=
  [(!lockout s, .fireUnacknowledged), (labelOk label, .badOperand),
   (!s.device.storeFault, .storeFault), ((findLabel s label).isSome, .notFound)]

theorem unblockCartridgeRequest_refused {label : Label} (h : firstFailure (unblockChecks s label) = some st) :
    unblockCartridgeRequest label s = refuse st s := checked_fails h

theorem unblockCartridgeRequest_held {label : Label} {r : Record}
    (h : firstFailure (unblockChecks s label) = none) (hf : findLabel s label = some i)
    (hr : s.record? i = some r) :
    unblockCartridgeRequest label s =
      if r.state.isBlocked then okPlain (changeRecord .custody false i r.unblocked s)
      else refuse .wrongState s := by
  have e := checked_passes (s := s) (a := match (findLabel s label).bind fun i =>
      (s.record? i).map fun r => (i, r) with
    | none => refuse .notFound s
    | some (i, r) =>
      if r.state.isBlocked then okPlain (changeRecord .custody false i r.unblocked s)
      else refuse .wrongState s) h
  simp only [hf, Option.bind_some, hr, Option.map_some] at e
  simp only [unblockCartridgeRequest, hf, Option.bind_some, hr, Option.map_some]
  simp only [unblockChecks, hf] at e
  exact e

/-- R68: the record that leaves BLOCKED, by its location. -/
theorem unblocked_normalised (r : Record) :
    normalise r.unblocked = { r with
      state := (if r.location = .slot r.home then .shelved else .loose),
      location := (match r.location with
        | .courier _ => .inHand
        | l => l),
      custodian := none, carry := none } := by
  unfold Record.unblocked
  cases hl : r.location with
  | slot n =>
    by_cases hn : n = r.home
    · simp [hn, normalise, custodianOf, carryOf]
    · simp [hn, normalise, custodianOf, carryOf]
  | _ => simp [normalise, custodianOf, carryOf]

theorem unblocked_state (r : Record) : r.unblocked.state = .shelved ∨ r.unblocked.state = .loose := by
  unfold Record.unblocked
  split
  · split
    · exact .inl rfl
    · exact .inr rfl
  all_goals exact .inr rfl

/-- R93: an unblocked record keeps its place, or leaves a courier for a place in no zone. -/
theorem unblocked_place (r : Record) (s : State) :
    (normalise r.unblocked).location = r.location ∨ zoneOfLocation s (normalise r.unblocked).location = none := by
  rw [unblocked_normalised]
  cases hl : r.location with
  | courier id => exact .inr rfl
  | _ => exact .inl (by simp)

/-- R52, R68: the change of an unblocked record, and what it tells. -/
theorem changeRecord_unblocked {r : Record} (h : s.record? i = some r) (hb : r.state.isBlocked = true) :
    Told (basicChange false i r.unblocked s) (changeRecord .custody false i r.unblocked s) := by
  have hr := basicChange_record h false r.unblocked
  have hne : r.unblocked.state ≠ r.state := by
    intro e
    rw [← e] at hb
    rcases unblocked_state r with h | h <;> rw [h] at hb <;> cases hb
  rw [changeRecord_eq h, if_pos hne, orderTold_still .custody hr (unblocked_state r)]
  refine tellOthers_still .custody hr ?_
  exact unblocked_place r _

end Sys2Proof.Machine

namespace Sys2Proof

open Machine

/-- Settles O50, by the checks; the change itself leaves BLOCKED, and what it tells changes no record. -/
theorem unblockCartridgeReleases : Obligations.UnblockCartridgeReleases := by
  intro s tag label hready htag c
  have refused : ∀ {st}, firstFailure (unblockChecks (taken s) label) = some st → Refuses c tag 0x54 st s :=
    fun h => answers_unblockCartridge hready htag (unblockCartridgeRequest_refused h)
  have open' : lockout s = false → (!lockout (taken s)) = true := fun h =>
    (congrArg (! ·) (show lockout (taken s) = false from h)).trans rfl
  have sound : s.device.storeFault = false → (!(taken s).device.storeFault) = true := fun h =>
    (congrArg (! ·) (show (taken s).device.storeFault = false from h)).trans rfl
  refine ⟨fun hl => refused (firstFailure_fail ?_), fun hl hbad => refused ((firstFailure_pass (open' hl)).trans
      (firstFailure_fail hbad)), fun hl hok hf => refused ((firstFailure_pass (open' hl)).trans
      ((firstFailure_pass hok).trans (firstFailure_fail ?_))), fun hl hok hf hnone => refused
      ((firstFailure_pass (open' hl)).trans ((firstFailure_pass hok).trans ((firstFailure_pass (sound hf)).trans
        (firstFailure_fail ?_)))), fun i r hl hok hf hfound hr => ?_⟩
  · rw [show lockout (taken s) = true from hl]; rfl
  · rw [show (taken s).device.storeFault = true from hf]; rfl
  · rw [findLabel_taken, hnone]; rfl
  have passed : firstFailure (unblockChecks (taken s) label) = none :=
    (firstFailure_pass (open' hl)).trans ((firstFailure_pass hok).trans ((firstFailure_pass (sound hf)).trans
      ((firstFailure_pass (by rw [findLabel_taken, hfound]; rfl)).trans rfl)))
  have e := unblockCartridgeRequest_held (s := taken s) passed hfound hr
  refine ⟨fun hb => answers_unblockCartridge hready htag (e.trans (if_neg (by rw [hb]; exact Bool.false_ne_true))),
    fun hb => ?_⟩
  let v := basicChange false i r.unblocked (taken s)
  have at' : AtRecord i (taken s) v := basicChange_atRecord ..
  have told : Told v (changeRecord .custody false i r.unblocked (taken s)) :=
    changeRecord_unblocked (s := taken s) hr hb
  have m := changeRecord_records .custody false i r.unblocked (taken s)
  have custody := told.moves.custody_eq id
  have record : ∀ j, (changeRecord .custody false i r.unblocked (taken s)).record? j = v.record? j :=
    record?_congr custody
  have after : r.unblocked.state.isBlocked = false := by
    rcases unblocked_state r with h | h <;> rw [h] <;> rfl
  obtain ⟨newest, notice⟩ := blockedNote_unblocks (i := i) hb after
    (writeRecord i (putRecord i (normalise r.unblocked) (taken s)))
  rw [writeRecord_custody] at newest
  rw [← basicChange_eq (s := taken s) hr false r.unblocked] at newest notice
  refine ⟨_, answers_unblockCartridge hready htag (e.trans (if_pos hb)), ?_, fun j hj => ?_, ?_, fun j hj => ?_,
    ?_, ?_, ?_, (taken_keepsLayout s).trans m.records_keepsLayout, m.fire_eq id, m.climate_eq id, m.hatch_eq id⟩
  · exact (record i).trans ((basicChange_record (s := taken s) hr ..).trans
      (congrArg some (unblocked_normalised r)))
  · exact (record j).trans (at'.others j hj)
  · exact (basicChange_imageHolds (s := taken s) hr false r.unblocked).told told.moves
  · rw [told.moves.store_eq id]; exact at'.images j hj
  · rw [told.moves.store_eq id]; exact at'.entries
  · rw [custody]; exact newest
  · rw [told.notice 28 (by decide), blockedNotice_congr custody]
    exact notice

end Sys2Proof
end

section
/-! Orders: a CHECKOUT reserves its records (R70 to R72), and an order that is finished releases them (R76,
R77, R80). -/

namespace Sys2Proof.Machine

variable {s t u : State} {tag : Byte} {data : List Byte} {st : Status} {i k : Nat}

/-! ## Reserving -/

/-- R71: a record that lies SHELVED at its home slot is reserved; any other one stands. -/
def Record.reservedFor (k : Nat) (r : Record) : Record :=
  if r.state = .shelved ∧ r.location = .slot r.home then
    { r with state := .reserved, orderSlot := some k, custodian := none, carry := none }
  else r

theorem reservedFor_again (k : Nat) (r : Record) : (r.reservedFor k).reservedFor k = r.reservedFor k := by
  by_cases h : r.state = .shelved ∧ r.location = .slot r.home
  · unfold Record.reservedFor
    rw [if_pos h]
    exact if_neg fun ⟨hs, _⟩ => by cases hs
  · have e : r.reservedFor k = r := if_neg h
    rw [e, e]

/-- R72: an order with an unhanded entry that is not READY/OUTBOUND is OPEN. -/
theorem workedOut_opened {o : Order} {r : Record} (hi : i ∈ o.unhanded) (hr : s.record? i = some r)
    (hs : r.state ≠ .ready .outbound) : workedOut s o = .opened := by
  refine if_neg fun h => ?_
  have := List.all_eq_true.mp h i hi
  simp only [isReadyOutbound, hr, beq_iff_eq] at this
  exact hs this

theorem evaluateOrder_still {o : Order} (ho : s.order? k = some o) (hw : workedOut s o = o.state) :
    evaluateOrder k s = s := by
  unfold evaluateOrder
  rw [ho]
  refine if_neg ?_
  rw [hw]
  simp

/-- R72: of a change to RESERVED the Order Queue evaluates the record's order. -/
theorem orderTold_reserved {r : Record} {o : Order} (who : Claimant) (h : s.record? i = some r)
    (hs : r.state = .reserved) (hk : r.orderSlot = some k) (ho : s.order? k = some o)
    (hf : o.state.isFinished = false) : orderTold who i s = evaluateOrder k s := by
  unfold orderTold
  rw [h]
  dsimp only
  rw [hk]
  dsimp only
  rw [ho]
  dsimp only
  rw [hf, hs]
  rfl

/-- An order of a CHECKOUT under way: OPEN, with the record among its unhanded entries. -/
structure Reserves (k i : Nat) (s : State) : Prop where
  order : ∃ o, s.order? k = some o ∧ o.state = .opened ∧ i ∈ o.unhanded

theorem reserve_shelved {r : Record} (h : s.record? i = some r)
    (hr : r.state = .shelved ∧ r.location = .slot r.home) (ho : Reserves k i s) :
    AtRecord i s (reserve k i s) ∧ (reserve k i s).record? i = some (r.reservedFor k) ∧
      ImageHolds i (reserve k i s) := by
  obtain ⟨hs, hl⟩ := hr
  obtain ⟨o, hk, hopen, hi⟩ := ho
  let new : Record := { r with state := .reserved, orderSlot := some k }
  let v := basicChange false i new s
  have hv : v.record? i = some (normalise new) := basicChange_record h ..
  have at' : AtRecord i s v := basicChange_atRecord ..
  have hvk : v.order? k = some o := (congrArg (·.get? k) at'.orders).trans hk
  have told := tellOthers_still (old := r) .orders hv (.inl rfl)
  have open' : workedOut v o = o.state := (workedOut_opened hi hv (fun h => by cases h)).trans hopen.symm
  have e : reserve k i s = tellOthers .orders i r v := by
    unfold reserve claim
    rw [h]
    dsimp only
    rw [if_pos (by rw [hs, hl]; simp), changeRecord_eq h,
      if_pos (show CState.reserved ≠ r.state by rw [hs]; decide),
      orderTold_reserved .orders hv rfl rfl hvk (by rw [hopen]; rfl), evaluateOrder_still hvk open']
  rw [e, record?_congr (told.moves.custody_eq id), hv]
  refine ⟨at'.trans (atRecord_of_tellings told.moves), ?_, (basicChange_imageHolds h false new).told told.moves⟩
  rw [Record.reservedFor, if_pos ⟨hs, hl⟩]
  rfl

theorem reserve_refused {r : Record} (h : s.record? i = some r)
    (hr : ¬(r.state = .shelved ∧ r.location = .slot r.home)) : reserve k i s = s := by
  unfold reserve claim
  rw [h]
  refine if_neg fun he => hr ?_
  simpa using he

theorem reserve_free (h : s.record? i = none) : reserve k i s = s := by
  unfold reserve claim
  rw [h]

/-- R71: what reserving one record does to the records. -/
theorem reserve_spec (ho : Reserves k i s) :
    AtRecord i s (reserve k i s) ∧
      (reserve k i s).record? i = (s.record? i).map (Record.reservedFor k) ∧
      (ImageHolds i s ∨ (∃ r, s.record? i = some r ∧ r.state = .shelved ∧ r.location = .slot r.home) →
        ImageHolds i (reserve k i s)) := by
  cases h : s.record? i with
  | none =>
    rw [reserve_free h]
    refine ⟨.refl, h, fun hi => hi.resolve_right ?_⟩
    rintro ⟨r, hr, _⟩
    cases hr
  | some r =>
    by_cases hr : r.state = .shelved ∧ r.location = .slot r.home
    · obtain ⟨ha, hrec, hi⟩ := reserve_shelved h hr ho
      exact ⟨ha, hrec, fun _ => hi⟩
    · rw [reserve_refused h hr]
      refine ⟨.refl, h.trans ?_, fun hi => hi.resolve_right ?_⟩
      · rw [Option.map_some, Record.reservedFor, if_neg hr]
      · rintro ⟨q, hq, hs⟩
        cases hq
        exact hr hs

/-- R71: what reserving the records of a list does. -/
structure ReservedAll (k : Nat) (is : List Nat) (s t : State) : Prop where
  orders : t.orders = s.orders
  listed : ∀ i ∈ is, t.record? i = (s.record? i).map (Record.reservedFor k)
  others : ∀ i, i ∉ is → t.record? i = s.record? i
  holds : ∀ i, (ImageHolds i s ∨
      (i ∈ is ∧ ∃ r, s.record? i = some r ∧ r.state = .shelved ∧ r.location = .slot r.home)) → ImageHolds i t

theorem reserveAll_spec {o : Order} (is : List Nat) :
    ∀ s : State, s.order? k = some o → o.state = .opened → (∀ i ∈ is, i ∈ o.unhanded) →
      ReservedAll k is s (is.foldl (fun s i => reserve k i s) s) := by
  induction is with
  | nil =>
    intro s _ _ _
    exact ⟨rfl, fun _ h => absurd h List.not_mem_nil, fun _ _ => rfl,
      fun i h => h.resolve_right fun ⟨hi, _⟩ => absurd hi List.not_mem_nil⟩
  | cons a is ih =>
    intro s hk hopen hall
    obtain ⟨at', hrec, himage⟩ := reserve_spec (k := k) (i := a) (s := s)
      ⟨o, hk, hopen, hall a List.mem_cons_self⟩
    have w := ih (reserve k a s) ((congrArg (·.get? k) at'.orders).trans hk) hopen
      fun i hi => hall i (List.mem_cons_of_mem _ hi)
    rw [List.foldl_cons]
    refine ⟨w.orders.trans at'.orders, fun i hi => ?_, fun i hi => ?_, fun i hi => w.holds i ?_⟩
    · by_cases ha : i = a
      · subst ha
        by_cases hm : i ∈ is
        · rw [w.listed i hm, hrec, Option.map_map]
          exact congrArg (Option.map · _) (funext (reservedFor_again k))
        · rw [w.others i hm, hrec]
      · rw [w.listed i ((List.mem_cons.mp hi).resolve_left ha), at'.others i ha]
    · rw [List.mem_cons, not_or] at hi
      rw [w.others i hi.2, at'.others i hi.1]
    · by_cases ha : i = a
      · subst ha
        refine .inl (himage (hi.imp_right ?_))
        exact fun ⟨_, h⟩ => h
      · rw [at'.others i ha]
        exact hi.imp (at'.imageHolds ha) fun ⟨hm, h⟩ => ⟨(List.mem_cons.mp hm).resolve_left ha, h⟩

/-! ## CHECKOUT -/

/-- The block that owns CHECKOUT reads its operands as the fields that were sent. -/
theorem carryOut_checkout (tag orderTag : Byte) (courier deadline : Half) {labels : List Label}
    (hl : labels.length ≤ 30) (s : State) :
    carryOut tag 0x60 ([orderTag] ++ fieldHalf courier ++ fieldHalf deadline ++ [byteOf labels.length] ++
      labels.flatMap fieldLabel) s =
      checkoutRequest orderTag courier deadline (byteOf labels.length) labels s := by
  have hn : (byteOf labels.length).toNat = labels.length := by rw [byteOf_toNat]; omega
  show checkoutRequest orderTag (byteOf (courier.toNat / 256) ++ byteOf courier.toNat)
    (byteOf (deadline.toNat / 256) ++ byteOf deadline.toNat) (byteOf labels.length)
    (readLabels (byteOf labels.length).toNat (labels.flatMap fieldLabel)) s = _
  rw [half_bytes, half_bytes, hn, readLabels_flatMap]

theorem answers_checkout {orderTag : Byte} {courier deadline : Half} {labels : List Label} (h : HostReady s)
    (ht : tag ≠ 0) (hl : labels.length ≤ 30)
    (e : checkoutRequest orderTag courier deadline (byteOf labels.length) labels (taken s) =
      .reply st data t) :
    Answers (.checkout tag orderTag courier deadline (byteOf labels.length) labels) tag 0x60 st data s t := by
  have hlabels := labels_length labels
  have hn : (byteOf labels.length).toNat = labels.length := by rw [byteOf_toNat]; omega
  refine answers_of_carryOut h ht ?_ ?_ ((carryOut_checkout tag orderTag courier deadline hl _).trans e)
  · have hlen : ([orderTag] ++ fieldHalf courier ++ fieldHalf deadline ++ [byteOf labels.length] ++
        labels.flatMap fieldLabel).length = 6 + 8 * labels.length := by
      rw [List.length_append, hlabels]; rfl
    rw [hlen]
    simp only [bodyLengthOk, Bool.and_eq_true, decide_eq_true_eq]
    omega
  · have hcount : (labels.flatMap fieldLabel).length = 8 * (byteOf labels.length).toNat := by rw [hlabels, hn]
    exact congrArg some (beq_iff_eq.mpr hcount)

/-- R70, checks 9 to 12: every label of a list that passes names a SHELVED record. -/
theorem listFailure_none {labels : List Label} (h : listFailure s labels = none) {l : Label} (hl : l ∈ labels) :
    ∃ i r, findLabel s l = some i ∧ s.record? i = some r ∧ r.state = .shelved := by
  simp only [listFailure, Option.orElse_eq_orElse, Option.orElse_eq_or, Option.or_eq_none_iff,
    Option.map_eq_none_iff, firstBad, List.findIdx?_eq_none_iff] at h
  have hs := h.2.2.2.1 l hl
  cases hr : recordOf s l with
  | none => rw [hr] at hs; simp at hs
  | some r =>
    rw [hr] at hs
    obtain ⟨i, hi, hri⟩ := Option.bind_eq_some_iff.mp hr
    exact ⟨i, r, hi, hri, by simpa using hs⟩

/-- The order of a CHECKOUT (R71). -/
def checkedOut (s : State) (orderTag courier deadline : Nat) (labels : List Label) : Order :=
  { tag := orderTag, courier := courier,
    deadline := if deadline = 0 then none else some (deadline * minuteMs),
    entries := (labels.filterMap fun l => findLabel s l).map fun i => ⟨i, false⟩, state := .opened }

theorem checkedOut_unhanded (s : State) (orderTag courier deadline : Nat) (labels : List Label) :
    (checkedOut s orderTag courier deadline labels).unhanded = labels.filterMap fun l => findLabel s l := by
  simp [checkedOut, Order.unhanded, List.filter_map, Function.comp_def]

theorem postOrder_frame (k : Nat) (s : State) : postOrder k s = { s with notices := (postOrder k s).notices } := by
  unfold postOrder
  split <;> rfl

/-- R71, R72: what a CHECKOUT of SHELVED records leaves: the order OPEN, and its records reserved. -/
theorem checkoutEffect_spec {labels : List Label} (k orderTag courier deadline : Nat) (hne : labels ≠ [])
    (hall : ∀ l ∈ labels, ∃ i r, findLabel s l = some i ∧ s.record? i = some r ∧ r.state = .shelved) :
    let o := checkedOut s orderTag courier deadline labels
    ∃ v, ReservedAll k o.unhanded (putOrder k o s) v ∧
      checkoutEffect k orderTag courier deadline labels s = postOrder k v := by
  intro o
  have hu := checkedOut_unhanded s orderTag courier deadline labels
  have hk : (putOrder k o s).order? k = some o := Table.get?_put_same ..
  have w := reserveAll_spec o.unhanded (putOrder k o s) hk rfl fun _ h => h
  refine ⟨_, w, ?_⟩
  obtain ⟨l, hl⟩ := List.exists_mem_of_ne_nil _ hne
  obtain ⟨i, r, hi, hr, hs⟩ := hall l hl
  have hm : i ∈ o.unhanded := by rw [hu]; exact List.mem_filterMap.mpr ⟨l, hl, hi⟩
  have hr' := (w.listed i hm).trans (congrArg (Option.map (Record.reservedFor k)) hr)
  have hne' : (r.reservedFor k).state ≠ .ready .outbound := by
    unfold Record.reservedFor
    split
    · intro h; cases h
    · rw [hs]; intro h; cases h
  have still := evaluateOrder_still (o := o) ((congrArg (·.get? k) w.orders).trans hk)
    (workedOut_opened hm hr' hne')
  have e : checkoutEffect k orderTag courier deadline labels s =
      postOrder k (evaluateOrder k (o.unhanded.foldl (fun s i => reserve k i s) (putOrder k o s))) := by
    rw [hu]; rfl
  rw [e, still]

theorem checkoutRequest_failed {orderTag count : Byte} {courier deadline : Half} {labels : List Label}
    (h : firstFailure (checkoutChecks s orderTag.toNat courier.toNat deadline.toNat count.toNat) = some st) :
    checkoutRequest orderTag courier deadline count labels s = refuseAt st 0xFF s := by
  unfold checkoutRequest
  rw [h]

theorem checkoutRequest_listFailed {orderTag count : Byte} {courier deadline : Half} {labels : List Label}
    {n : Nat}
    (h : firstFailure (checkoutChecks s orderTag.toNat courier.toNat deadline.toNat count.toNat) = none)
    (hl : listFailure s labels = some (st, n)) :
    checkoutRequest orderTag courier deadline count labels s = refuseAt st n s := by
  unfold checkoutRequest
  rw [h, hl]

theorem checkoutRequest_passed {orderTag count : Byte} {courier deadline : Half} {labels : List Label}
    (h : firstFailure (checkoutChecks s orderTag.toNat courier.toNat deadline.toNat count.toNat) = none)
    (hl : listFailure s labels = none) :
    checkoutRequest orderTag courier deadline count labels s =
      okWith [byteOf s.orders.lowestFree]
        (checkoutEffect s.orders.lowestFree orderTag.toNat courier.toNat deadline.toNat labels s) := by
  unfold checkoutRequest
  rw [h, hl]

/-- A table of checks without a failure has passed every check. -/
theorem passed_of_firstFailure {cs : List (Bool × Status)} (h : firstFailure cs = none) {c : Bool × Status}
    (hc : c ∈ cs) : c.1 = true := by
  induction cs with
  | nil => cases hc
  | cons d cs ih =>
    obtain ⟨b, x⟩ := d
    cases b with
    | false => cases h
    | true =>
      rcases List.mem_cons.mp hc with rfl | hc
      · rfl
      · exact ih h hc

theorem checkoutEffect_records (k orderTag courier deadline : Nat) (labels : List Label) (s : State) :
    Moves .records s (checkoutEffect k orderTag courier deadline labels s) := by
  apply checkoutEffect_moves _ _ _ _ _ .refl <;> trivial

/-! ## Releasing -/

/-- R80: the state of a released record, by its state and place. -/
def releasedState (state : CState) (place : Location) (home : Nat) : CState :=
  match state, place with
  | .reserved, .slot n => if n = home then .shelved else .reserved
  | .picked, .inHand | .picked, .hatch => .loose
  | .conditioning .outbound, .rack _ | .ready .outbound, .rack _ | .ready .outbound, .inHand => .loose
  | .staged, .hatch => .loose
  | .staged, .courier _ => .blocked .handoverUnresolved
  | st, _ => st

/-- A released record is released already. -/
theorem releasedState_again (state : CState) (place : Location) (home : Nat) :
    releasedState (releasedState state place home) place home = releasedState state place home := by
  fun_cases releasedState state place home <;> simp_all [releasedState]

/-- R80: a record as released. -/
structure Released (r y : Record) : Prop where
  slot : y.orderSlot = none
  place : y.location = r.location
  home : y.home = r.home
  state : y.state = releasedState r.state r.location r.home

theorem Released.again {r y z : Record} (h : Released r y) (g : Released y z) : Released r z where
  slot := g.slot
  place := g.place.trans h.place
  home := g.home.trans h.home
  state := by rw [g.state, h.state, h.place, h.home, releasedState_again]

/-- R80: a release by claim keeps the place. -/
theorem released_of_claim {r new : Record} (h : releaseOf r = some new) : Released r (normalise new) := by
  unfold releaseOf at h
  split at h
  · next hs hl =>
    split at h
    · next hn => cases h; exact ⟨rfl, rfl, rfl, by simp [releasedState, hs, hl, hn, normalise]⟩
    · cases h
  all_goals first
    | (next hs hl => cases h; exact ⟨rfl, rfl, rfl, by simp [releasedState, hs, hl, normalise]⟩)
    | cases h

/-- R80: where no claim applies the state stands. -/
theorem released_of_none {r : Record} (h : releaseOf r = none) : Released r { r with orderSlot := none } := by
  refine ⟨rfl, rfl, rfl, ?_⟩
  unfold releaseOf at h
  split at h
  · next hs hl =>
    split at h
    · cases h
    · next hn => simp [releasedState, hs, hl, hn]
  all_goals cases h
  show r.state = releasedState r.state r.location r.home
  unfold releasedState
  split <;> simp_all

theorem dropOrderSlot_record {r : Record} (h : s.record? i = some r) :
    dropOrderSlot i s = writeRecord i (putRecord i { r with orderSlot := none } s) := by
  unfold dropOrderSlot
  rw [h]

/-- R80: what the release of one entry does. -/
theorem releaseEntry_spec (i : Nat) (s : State) :
    AtRecord i s (releaseEntry i s) ∧
      ∀ r, s.record? i = some r → ∃ y, (releaseEntry i s).record? i = some y ∧ Released r y := by
  cases h : s.record? i with
  | none =>
    unfold releaseEntry
    rw [h]
    exact ⟨.refl, fun r hr => by cases hr⟩
  | some r =>
    cases hc : releaseOf r with
    | some new =>
      have hv := basicChange_record h false new
      have hrel := released_of_claim hc
      have told := tellOthers_still (old := r) .orders hv (.inl hrel.place)
      have e : releaseEntry i s = tellOthers .orders i r (basicChange false i new s) := by
        unfold releaseEntry
        rw [h]
        dsimp only
        rw [hc]
      rw [e]
      refine ⟨(basicChange_atRecord ..).trans (atRecord_of_tellings told.moves), fun q hq => ?_⟩
      cases hq
      exact ⟨_, (record?_congr (told.moves.custody_eq id) i).trans hv, hrel⟩
    | none =>
      have e : releaseEntry i s = writeRecord i (putRecord i { r with orderSlot := none } s) := by
        unfold releaseEntry
        rw [h]
        dsimp only
        rw [hc]
        exact dropOrderSlot_record h
      rw [e]
      refine ⟨(placeWritten_putRecord ..).atRecord, fun q hq => ?_⟩
      cases hq
      exact ⟨_, (record?_congr (writeRecord_custody ..) i).trans (putRecord_same ..), released_of_none hc⟩

/-- R80: what the release of a list of entries does; an entry named twice is released once. -/
theorem releaseAll_spec (is : List Nat) :
    ∀ s : State, let t := is.foldl (fun s i => releaseEntry i s) s
      t.orders = s.orders ∧ (∀ i, i ∉ is → t.record? i = s.record? i) ∧
        ∀ i ∈ is, ∀ r, s.record? i = some r → ∃ y, t.record? i = some y ∧ Released r y := by
  induction is with
  | nil => exact fun s => ⟨rfl, fun _ _ => rfl, fun i h => absurd h List.not_mem_nil⟩
  | cons a is ih =>
    intro s
    obtain ⟨at', hrel⟩ := releaseEntry_spec a s
    obtain ⟨horders, hothers, hlisted⟩ := ih (releaseEntry a s)
    refine ⟨horders.trans at'.orders, fun i hi => ?_, fun i hi r hr => ?_⟩
    · rw [List.mem_cons, not_or] at hi
      exact (hothers i hi.2).trans (at'.others i hi.1)
    · by_cases ha : i = a
      · subst ha
        obtain ⟨y, hy, hry⟩ := hrel r hr
        by_cases hm : i ∈ is
        · obtain ⟨z, hz, hyz⟩ := hlisted i hm y hy
          exact ⟨z, hz, hry.again hyz⟩
        · exact ⟨y, (hothers i hm).trans hy, hry⟩
      · exact hlisted i ((List.mem_cons.mp hi).resolve_left ha) r ((at'.others i ha).trans hr)

/-- R76, R80: what finishing an order leaves of the orders and the records. -/
theorem finishOrder_spec {o : Order} (outcome : OOutcome) (ho : s.order? k = some o)
    (hf : o.state.isFinished = false) :
    let t := finishOrder k outcome s
    t.order? k = some { o with state := .finished outcome, deadline := none } ∧
      (∀ j, j ≠ k → t.order? j = s.order? j) ∧
      (∀ i ∈ o.unhanded, ∀ r, s.record? i = some r → ∃ y, t.record? i = some y ∧ Released r y) ∧
      (∀ i, i ∉ o.unhanded → t.record? i = s.record? i) := by
  intro t
  let o' : Order := { o with state := .finished outcome, deadline := none }
  have e : t = postOrder k (o.unhanded.foldl (fun s i => releaseEntry i s) (putOrder k o' s)) := by
    show finishOrder k outcome s = _
    unfold finishOrder
    rw [ho]
    dsimp only
    rw [hf]
    rfl
  obtain ⟨horders, hothers, hlisted⟩ := releaseAll_spec o.unhanded (putOrder k o' s)
  have order : ∀ j, t.order? j = (putOrder k o' s).order? j := fun j => by
    rw [e, postOrder_frame]
    exact congrArg (·.get? j) horders
  have record : ∀ j, t.record? j = (o.unhanded.foldl (fun s i => releaseEntry i s) (putOrder k o' s)).record? j :=
    fun j => by rw [e, postOrder_frame]; rfl
  exact ⟨(order k).trans (Table.get?_put_same ..), fun j hj => (order j).trans (Table.get?_put_other _ _ hj),
    fun i hi r hr => by rw [record]; exact hlisted i hi r hr, fun i hi => (record i).trans (hothers i hi)⟩

theorem finishOrder_records (k : Nat) (outcome : OOutcome) (s : State) :
    Moves .records s (finishOrder k outcome s) := by
  apply finishOrder_moves k outcome .refl <;> trivial

/-! ## CANCEL_ORDER -/

theorem answers_cancelOrder {orderTag : Byte} (h : HostReady s) (ht : tag ≠ 0)
    (e : cancelOrderRequest orderTag (taken s) = .reply st data t) :
    Answers (.cancelOrder tag orderTag) tag 0x61 st data s t :=
  answers_of_carryOut h ht rfl rfl e

theorem cancelOrderRequest_absent {orderTag : Byte} (h : orderTag ≠ 0)
    (hf : findOrder s orderTag.toNat = none) : cancelOrderRequest orderTag s = refuse .notFound s := by
  simp only [cancelOrderRequest, if_neg h, hf, Option.bind_none]

theorem cancelOrderRequest_held {orderTag : Byte} {o : Order} (h : orderTag ≠ 0)
    (hf : findOrder s orderTag.toNat = some k) (ho : s.order? k = some o) :
    cancelOrderRequest orderTag s =
      if o.state.isWaiting then okPlain (finishOrder k .cancelled s) else refuse .wrongState s := by
  simp only [cancelOrderRequest, if_neg h, hf, Option.bind_some, ho, Option.map_some]

theorem unfinished_of_waiting {x : OrderState} (h : x.isWaiting = true) : x.isFinished = false := by
  cases x <;> first | rfl | cases h

theorem deadlineEnds_running {o : Order} (ho : s.order? k = some o) (hw : o.state.isWaiting = true)
    (hd : o.deadline.isSome = true) : deadlineEnds k s = finishOrder k .expired s := by
  unfold deadlineEnds
  rw [ho]
  exact if_pos ⟨hw, hd⟩

end Sys2Proof.Machine

namespace Sys2Proof

open Machine

/-- Settles O51, by the checks; the order is put into its slot first, and then its records are reserved. -/
theorem checkoutReserves : Obligations.CheckoutReserves := by
  intro s tag orderTag courier deadline labels hready htag hl c first k
  have hn : (byteOf labels.length).toNat = labels.length := by rw [byteOf_toNat]; omega
  have checks : firstFailure (checkoutChecks (taken s) orderTag.toNat courier.toNat deadline.toNat
      (byteOf labels.length).toNat) = first := by rw [hn]; rfl
  refine ⟨fun st hst => answers_checkout hready htag hl (checkoutRequest_failed (checks.trans hst)),
    fun st n hnone hlist => answers_checkout hready htag hl
      (checkoutRequest_listFailed (checks.trans hnone) hlist), fun hnone hlist => ?_⟩
  have all : ∀ l ∈ labels, ∃ i r, findLabel (taken s) l = some i ∧ (taken s).record? i = some r ∧
      r.state = .shelved := fun l => listFailure_none (s := taken s) hlist
  have hne : labels ≠ [] := by
    rintro rfl
    have := passed_of_firstFailure (checks.trans hnone) (c := (_, .badOperand))
      (List.mem_of_getElem? (i := 8) rfl)
    cases this
  obtain ⟨v, w, e⟩ := checkoutEffect_spec (s := taken s) k orderTag.toNat courier.toNat deadline.toNat hne all
  have m := checkoutEffect_records k orderTag.toNat courier.toNat deadline.toNat labels (taken s)
  have carried := checkoutRequest_passed (checks.trans hnone) hlist
  have hu := checkedOut_unhanded (taken s) orderTag.toNat courier.toNat deadline.toNat labels
  have frame := postOrder_frame k v
  have listed : ∀ l ∈ labels, ∀ i, findLabel s l = some i →
      i ∈ (checkedOut (taken s) orderTag.toNat courier.toNat deadline.toNat labels).unhanded := fun l hm i hi => by
    rw [hu]; exact List.mem_filterMap.mpr ⟨l, hm, hi⟩
  have order : ∀ j, (postOrder k v).order? j = ((taken s).orders.put k
      (checkedOut (taken s) orderTag.toNat courier.toNat deadline.toNat labels)).get? j := fun j => by
    rw [frame]; exact congrArg (·.get? j) w.orders
  have record : ∀ j, (postOrder k v).record? j = v.record? j := fun j => by rw [frame]; rfl
  refine ⟨_, answers_checkout hready htag hl carried, ?_⟩
  rw [show (taken s).orders.lowestFree = k from rfl] at *
  rw [e] at m ⊢
  refine ⟨(order k).trans (Table.get?_put_same ..), fun j hj => (order j).trans (Table.get?_put_other _ _ hj),
    fun l hm i r hi hr => ⟨?_, fun hhome hf => ?_⟩, fun i hi => ?_,
    (taken_keepsLayout s).trans m.records_keepsLayout, m.fire_eq id, m.climate_eq id, m.hatch_eq id⟩
  · obtain ⟨j, q, hj, hq, hs⟩ := all l hm
    cases hj.symm.trans hi
    cases hq.symm.trans hr
    rw [record, w.listed i (listed l hm i hi)]
    refine (congrArg (Option.map _) hr).trans ?_
    simp only [Option.map_some, Record.reservedFor, hs, true_and]
  · obtain ⟨j, q, hj, hq, hs⟩ := all l hm
    cases hj.symm.trans hi
    cases hq.symm.trans hr
    have image : ImageHolds i v := w.holds i (.inr ⟨listed l hm i hi, r, hr, hs, hhome⟩)
    rw [frame] at hf ⊢
    exact image hf
  · rw [record, w.others i]
    · rfl
    · rw [hu]
      intro h
      obtain ⟨l, hm, hl⟩ := List.mem_filterMap.mp h
      exact hi l hm hl

/-- Settles O52: by either way the order is finished, and its unhanded entries are released. -/
theorem cancelAndDeadlineFinishOrder : Obligations.CancelAndDeadlineFinishOrder := by
  intro s finishes
  have done : ∀ (u : State) k o outcome, KeepsLayout s u → u.order? = s.order? → u.record? = s.record? →
      u.fire = s.fire → u.climate = s.climate → u.hatch = s.hatch →
      s.order? k = some o → o.state.isWaiting = true → finishes k o outcome (finishOrder k outcome u) := by
    intro u k o outcome hu horders hrecords hfire hclimate hhatch ho hw
    obtain ⟨h1, h2, h3, h4⟩ := finishOrder_spec (s := u) outcome ((congrFun horders k).trans ho)
      (unfinished_of_waiting hw)
    have m := finishOrder_records k outcome u
    refine ⟨h1, fun j hj => (h2 j hj).trans (congrFun horders j), fun i r hi hr => ?_,
      fun i hi => (h4 i hi).trans (congrFun hrecords i), hu.trans m.records_keepsLayout,
      (m.fire_eq id).trans hfire, (m.climate_eq id).trans hclimate, (m.hatch_eq id).trans hhatch⟩
    obtain ⟨y, hy, hrel⟩ := h3 i hi r ((congrFun hrecords i).trans hr)
    exact ⟨y, hy, hrel.slot, hrel.place, hrel.state⟩
  refine ⟨fun tag orderTag hready htag => ⟨?_, fun hne hnone => ?_, fun k o hne hfound ho => ⟨fun hw => ?_,
    fun hw => ?_⟩⟩, fun k o hup ho hw hd => ?_⟩
  · rintro rfl
    exact answers_cancelOrder hready htag (if_pos rfl)
  · exact answers_cancelOrder hready htag (cancelOrderRequest_absent (s := taken s) hne hnone)
  · exact answers_cancelOrder hready htag ((cancelOrderRequest_held (s := taken s) hne hfound ho).trans
      (if_neg (by rw [hw]; exact Bool.false_ne_true)))
  · exact ⟨_, answers_cancelOrder hready htag ((cancelOrderRequest_held (s := taken s) hne hfound ho).trans
      (if_pos hw)), done (taken s) k o .cancelled (taken_keepsLayout s) rfl rfl rfl rfl rfl ho hw⟩
  · exact ⟨_, takes_event (f := deadlineEnds k.val) hup (deadlineEnds_running (s := startEvent s) ho hw hd),
      done (startEvent s) k.val o .expired (startEvent_keepsLayout s) rfl rfl rfl rfl rfl ho hw⟩

end Sys2Proof
end

section
/-! The values of a restart (R176): what its first step leaves stands but for what the loading, the settings,
the resolution and the last steps do; and the lines that lead to one (R175). -/

namespace Sys2Proof.Machine

variable {s t u : State} {cause : Cause}

/-! ## A fault of the store, at any write of a restart -/

/-- What the image writes and faults of a restart leave of the device and the notices: the flag alone changes,
the mask stands, and a raised flag is posted (R172). -/
structure Faulting (s t : State) : Prop where
  device : t.device = { s.device with storeFault := t.device.storeFault }
  mask : t.notices.mask = s.notices.mask
  raised : s.device.storeFault = true → t.device.storeFault = true
  posted : (s.device.storeFault = true → s.notices.pending.get? 30 = some .storeFault) →
    t.device.storeFault = true → t.notices.pending.get? 30 = some .storeFault

theorem Faulting.of_eq (hd : t.device = s.device) (hn : t.notices = s.notices) : Faulting s t := by
  refine ⟨?_, by rw [hn], fun h => by rw [hd]; exact h, fun h hf => ?_⟩
  · rw [hd]
  · rw [hn]; exact h (by rw [← hd]; exact hf)

theorem Faulting.refl : Faulting s s := .of_eq rfl rfl

theorem Faulting.trans (h : Faulting s t) (g : Faulting t u) : Faulting s u where
  device := g.device.trans (congrArg (fun d : Device => { d with storeFault := u.device.storeFault }) h.device)
  mask := g.mask.trans h.mask
  raised := g.raised ∘ h.raised
  posted := g.posted ∘ h.posted

/-- Blocks other than the device and the notices do not matter. -/
theorem Faulting.after (hd : u.device = s.device) (hn : u.notices = s.notices) (g : Faulting u t) :
    Faulting s t := (Faulting.of_eq hd hn).trans g

theorem Faulting.foldl {α : Type} {f : State → α → State} (l : List α) (hf : ∀ a t, Faulting t (f t a)) :
    Faulting s (l.foldl f s) := by
  induction l generalizing s with
  | nil => exact .refl
  | cons a l ih => exact (hf a s).trans ih

theorem afterWrite_faulting (fails : Bool) (s : State) : Faulting s (afterWrite fails s) := by
  have hd := afterWrite_device fails s
  refine ⟨by rw [hd], ?_, fun h => by rw [hd]; simp [h], fun h hf => ?_⟩
  · unfold afterWrite faultStore
    split
    · split <;> rfl
    · rfl
  · cases hs : s.device.storeFault with
    | true => exact afterWrite_waits fails (h hs)
    | false =>
      rw [hd, hs, Bool.false_or] at hf
      exact afterWrite_posted hf hs

theorem faultStore_faulting (s : State) : Faulting s (faultStore s) := afterWrite_faulting true s

theorem faultStore_faulted (s : State) : (faultStore s).device.storeFault = true := by
  rw [(faultStore_spec s).1]

theorem writeRecord_faulting (i : Nat) (s : State) : Faulting s (writeRecord i s) :=
  .after (u := s.withStore (recordWritten i s)) rfl rfl (afterWrite_faulting ..)

theorem writeCourier_faulting (i : Nat) (s : State) : Faulting s (writeCourier i s) :=
  .after (u := s.withStore (courierWritten i s)) rfl rfl (afterWrite_faulting ..)

/-- R177: a place that a repair takes is written and faulted. -/
theorem recordTaken_faulting (i : Nat) (c : Custody) (s : State) :
    Faulting s (faultStore (writeRecord i (s.withCustody c))) :=
  .after (u := s.withCustody c) rfl rfl ((writeRecord_faulting ..).trans (faultStore_faulting _))

theorem entryTaken_faulting (i : Nat) (h : Handover) (s : State) :
    Faulting s (faultStore (writeCourier i (s.withHandover h))) :=
  .after (u := s.withHandover h) rfl rfl ((writeCourier_faulting ..).trans (faultStore_faulting _))

theorem loadRecord_faulting (i : Nat) (img : Image (Option RecordData)) (s : State) :
    Faulting s (loadRecord i img s) := by
  unfold loadRecord
  split
  · exact .of_eq rfl rfl
  · exact .refl
  · exact faultStore_faulting s

theorem loadCourier_faulting (i : Nat) (img : Image (Option Courier)) (s : State) :
    Faulting s (loadCourier i img s) := by
  unfold loadCourier
  split
  · exact .of_eq rfl rfl
  · exact .refl
  · exact faultStore_faulting s

theorem repairRecord_faulting (i : Nat) (s : State) : Faulting s (repairRecord i s) := by
  unfold repairRecord
  split
  · exact .refl
  · split
    · exact recordTaken_faulting ..
    · exact .refl

theorem repairCourier_faulting (i : Nat) (s : State) : Faulting s (repairCourier i s) := by
  unfold repairCourier
  split
  · exact .refl
  · split
    · exact entryTaken_faulting ..
    · exact .refl

theorem repairCustodian_faulting (i : Nat) (s : State) : Faulting s (repairCustodian i s) := by
  unfold repairCustodian
  split
  · exact .refl
  · split
    · exact .refl
    · dsimp only
      split
      · exact entryTaken_faulting ..
      · exact .refl

theorem restartRecord_faulting (i : Nat) (old new : Record) (s : State) :
    Faulting s (restartRecord i old new s) := by
  have written : Faulting s (writeRecord i (putRecord i new s)) :=
    .after (u := putRecord i new s) rfl rfl (writeRecord_faulting ..)
  unfold restartRecord
  dsimp only
  split
  · exact written.trans (.of_eq rfl rfl)
  · exact written

theorem resolveRecord_faulting (i : Nat) (s : State) : Faulting s (resolveRecord i s) := by
  unfold resolveRecord
  split
  · exact .refl
  · split
    · exact .refl
    · exact restartRecord_faulting ..

theorem rebuildRecord_faulting (i : Nat) (s : State) : Faulting s (rebuildRecord i s) := by
  unfold rebuildRecord
  split
  · exact .refl
  · split
    · split
      · exact .of_eq rfl rfl
      · exact restartRecord_faulting ..
    all_goals exact .refl

/-! ## The steps of a restart -/

/-- R176, steps 1 and 2: the retained state loaded and repaired. -/
def loadedState (cause : Cause) (s : State) : State := repairImages (loadImages (cleared cause s))

/-- R178: the settings that are taken, and whether they were defaulted. -/
def settingsTaken (s : State) : SettingsData × Bool :=
  if (heldSlots s).all fun n => (zoneOfSlotIn (loadedSettings s).1.zones n).isSome then loadedSettings s
  else (recovered (heldSlots s) (loadedSettings s).1, true)

theorem loadSettings_eq (s : State) :
    loadSettings s = takeSettings (settingsTaken s).1 (settingsTaken s).2 s := by
  unfold loadSettings settingsTaken
  dsimp only
  split <;> rfl

/-- R179 for every record. -/
def resolveAll (s : State) : State := (recordPlaces s).foldl (fun s i => resolveRecord i s) s

/-- R180 for every record. -/
def rebuildAll (s : State) : State := (recordPlaces s).foldl (fun s i => rebuildRecord i s) s

/-- The state before the last three steps, which post the outputs and form the start-up set. -/
def rebuilt (cause : Cause) (s : State) : State :=
  rebuildAll (resolveAll (takeSettings (settingsTaken (loadedState cause s)).1
    (settingsTaken (loadedState cause s)).2 (loadedState cause s)))

theorem restart_eq (cause : Cause) (s : State) :
    restart cause s = formStartupSet (postRestarted (postOutputs (rebuilt cause s))) := by
  rw [rebuilt, ← loadSettings_eq]
  rfl

/-- A restart depends on what its first step leaves alone. -/
theorem restart_congr (h : cleared cause s = cleared cause t) : restart cause s = restart cause t := by
  unfold restart
  rw [h]

/-- What the loading and the repairs touch. -/
def Allow.loading : Allow :=
  ⟨True, False, True, False, False, False, False, False, False, True, False, False, False, True, True, False, False⟩

/-- What the resolution and the rebuilding of the rack touch. -/
def Allow.rebuilding : Allow :=
  ⟨True, False, True, False, False, False, False, True, False, True, False, False, False, False, True, False, False⟩

theorem loadedState_moves (cause : Cause) (s : State) :
    Moves .loading (cleared cause s) (loadedState cause s) := by
  apply repairImages_moves
  · apply loadImages_moves .refl <;> trivial
  all_goals trivial

theorem resolveAll_moves (s : State) : Moves .rebuilding s (resolveAll s) :=
  .foldl _ (fun i t k => by apply resolveRecord_moves i k <;> trivial) .refl

theorem rebuildAll_moves (s : State) : Moves .rebuilding s (rebuildAll s) :=
  .foldl _ (fun i t k => by apply rebuildRecord_moves i k <;> trivial) .refl

theorem loadedState_faulting (cause : Cause) (s : State) : Faulting (cleared cause s) (loadedState cause s) := by
  have loaded : ∀ v, Faulting v (loadImages v) := fun v =>
    (Faulting.foldl _ fun p w => loadRecord_faulting ..).trans (.foldl _ fun p w => loadCourier_faulting ..)
  have repaired : ∀ v, Faulting v (repairImages v) := fun v =>
    ((Faulting.foldl _ fun i w => repairRecord_faulting ..).trans
      (.foldl _ fun i w => repairCourier_faulting ..)).trans (.foldl _ fun i w => repairCustodian_faulting ..)
  exact (loaded _).trans (repaired _)

theorem rebuilt_moves (cause : Cause) (s : State) :
    Moves .rebuilding (takeSettings (settingsTaken (loadedState cause s)).1
      (settingsTaken (loadedState cause s)).2 (loadedState cause s)) (rebuilt cause s) :=
  (resolveAll_moves _).trans (rebuildAll_moves _)

theorem rebuilt_faulting (cause : Cause) (s : State) :
    Faulting (takeSettings (settingsTaken (loadedState cause s)).1
      (settingsTaken (loadedState cause s)).2 (loadedState cause s)) (rebuilt cause s) :=
  (Faulting.foldl _ fun i w => resolveRecord_faulting i w).trans
    (.foldl _ fun i w => rebuildRecord_faulting i w)

/-! ## The outputs -/

/-- A list of posted node commands changes of the link the queue alone. -/
structure Posts (s t : State) : Prop where
  frame : t = s.withLink t.link
  link : t.link = { s.link with queue := t.link.queue }

theorem Posts.refl : Posts s s := ⟨rfl, rfl⟩

theorem Posts.trans (h : Posts s t) (g : Posts t u) : Posts s u where
  frame := g.frame.trans (by rw [h.frame]; rfl)
  link := g.link.trans (congrArg (fun l : FieldLink => { l with queue := u.link.queue }) h.link)

theorem postCommand_posts (g : Target) (cmd : CmdKind) (data : List Byte) (s : State) :
    Posts s (postCommand g cmd data s) := by
  unfold postCommand
  split
  · exact ⟨rfl, rfl⟩
  · exact .refl

theorem postHatchCommands_posts (s : State) : Posts s (postHatchCommands s) :=
  (((postCommand_posts ..).trans (postCommand_posts ..)).trans (postCommand_posts ..)).trans
    (postCommand_posts ..)

theorem postOutputs_posts (s : State) : Posts s (postOutputs s) := by
  have modes : ∀ (zs : List (Fin 8)) (v : State), Posts v (zs.foldl (fun s z => postMode z s) v) := by
    intro zs
    induction zs with
    | nil => exact fun v => .refl
    | cons z zs ih => exact fun v => Posts.trans (postCommand_posts ..) (ih _)
  exact (modes _ s).trans (postHatchCommands_posts _)

/-- R176, step 7: what is posted at the end of a restart. -/
theorem postRestarted_spec (s : State) :
    postRestarted s = s.withNotices (postRestarted s).notices ∧
      (postRestarted s).notices.mask = s.notices.mask ∧
      (postRestarted s).notices.pending.get? 9 =
        some (.restarted s.device.cause s.device.settingsDefaulted) ∧
      (postRestarted s).notices.pending.get? 30 = s.notices.pending.get? 30 := by
  have first : (post (.restarted s.device.cause s.device.settingsDefaulted) s).notices.pending.get? 9 =
      some (.restarted s.device.cause s.device.settingsDefaulted) := post_same ..
  have other : (post (.restarted s.device.cause s.device.settingsDefaulted) s).notices.pending.get? 30 =
      s.notices.pending.get? 30 := post_other (show 30 ≠ 9 by decide) s
  unfold postRestarted
  dsimp only
  split
  · exact ⟨rfl, rfl, (post_other (show 9 ≠ 28 by decide) _).trans first,
      (post_other (show 30 ≠ 28 by decide) _).trans other⟩
  · exact ⟨rfl, rfl, first, other⟩

/-- R181: the start-up set is the bound nodes, and a part without any is RUNNING. -/
theorem formStartupSet_spec (s : State) (h : s.device.condition = .starting) :
    formStartupSet s = s.withDevice { s.device with
      startupSet := s.nodes.places, condition := if s.nodes = [] then .running else .starting } := by
  have hplaces : s.nodes.places = [] ↔ s.nodes = [] := List.map_eq_nil_iff
  let v := s.withDevice { s.device with startupSet := s.nodes.places }
  by_cases he : s.nodes = []
  · have running : formStartupSet s = v.withDevice { v.device with condition := .running } :=
      if_pos ⟨h, hplaces.mpr he⟩
    rw [if_pos he]
    exact running
  · have starting : formStartupSet s = v := if_neg fun ⟨_, e⟩ => he (hplaces.mp e)
    rw [if_neg he, ← h]
    exact starting

/-! ## The values -/

theorem takeSettings_device (d : SettingsData) (b : Bool) (s : State) :
    (takeSettings d b s).device = { s.device with settingsDefaulted := b } := rfl

/-- The device before the last steps: of the cleared device the store-fault flag and settings-defaulted may
have been set. -/
theorem rebuilt_device (cause : Cause) (s : State) :
    (rebuilt cause s).device = { (cleared cause s).device with
      settingsDefaulted := (settingsTaken (loadedState cause s)).2,
      storeFault := (rebuilt cause s).device.storeFault } := by
  have loaded := (loadedState_faulting cause s).device
  have h := (rebuilt_faulting cause s).device
  generalize rebuilt cause s = r at h ⊢
  generalize loadedState cause s = a at h loaded ⊢
  rw [takeSettings_device, loaded] at h
  exact h

/-- What the last three steps of a restart do. -/
theorem lastSteps_spec (v : State) (h : v.device.condition = .starting) :
    let t := formStartupSet (postRestarted (postOutputs v))
    t = { v with device := t.device, notices := t.notices, link := t.link } ∧
      t.link = { v.link with queue := t.link.queue } ∧
      t.device = { v.device with
        startupSet := v.nodes.places, condition := if v.nodes = [] then .running else .starting } ∧
      t.notices.mask = v.notices.mask ∧
      t.notices.pending.get? 9 = some (.restarted v.device.cause v.device.settingsDefaulted) ∧
      t.notices.pending.get? 30 = v.notices.pending.get? 30 := by
  intro t
  have ht : t = formStartupSet (postRestarted (postOutputs v)) := rfl
  clear_value t
  have posts := postOutputs_posts v
  obtain ⟨hframe, hmask, h9, h30⟩ := postRestarted_spec (postOutputs v)
  generalize postOutputs v = x at *
  generalize postRestarted x = y at *
  have hx : x.device = v.device ∧ x.notices = v.notices ∧ x.nodes = v.nodes := by
    rw [posts.frame]; exact ⟨rfl, rfl, rfl⟩
  have hdevice : y.device = v.device := by rw [hframe]; exact hx.1
  have hnodes : y.nodes = v.nodes := by rw [hframe]; exact hx.2.2
  have hlink : y.link = x.link := by rw [hframe]; rfl
  rw [formStartupSet_spec y (by rw [hdevice]; exact h), hdevice, hnodes] at ht
  have htlink : t.link = x.link := by rw [ht]; exact hlink
  have htnotices : t.notices = y.notices := by rw [ht]; rfl
  refine ⟨?_, ?_, by rw [ht]; rfl, ?_, ?_, ?_⟩
  · rw [htlink, htnotices, ht, hframe, posts.frame]; rfl
  · rw [htlink]; exact posts.link
  · rw [htnotices, hmask, hx.2.1]
  · rw [htnotices, h9, hx.1]
  · rw [htnotices, h30, hx.2.1]

/-- What a restart ends with, in terms of the state before its last steps. -/
theorem restart_ends (cause : Cause) (s : State) :
    let v := rebuilt cause s
    let t := restart cause s
    t = { v with device := t.device, notices := t.notices, link := t.link } ∧
      t.link = { v.link with queue := t.link.queue } ∧
      t.device = { v.device with
        startupSet := v.nodes.places, condition := if v.nodes = [] then .running else .starting } ∧
      t.notices.mask = v.notices.mask ∧
      t.notices.pending.get? 9 = some (.restarted v.device.cause v.device.settingsDefaulted) ∧
      t.notices.pending.get? 30 = v.notices.pending.get? 30 := by
  rw [restart_eq]
  exact lastSteps_spec (rebuilt cause s) (by rw [rebuilt_device]; rfl)

theorem takeSettings_host (d : SettingsData) (b : Bool) (s : State) : (takeSettings d b s).host = s.host := rfl

theorem restart_host (cause : Cause) (s : State) : (restart cause s).host = .restarted s.device.hrateStrap := by
  obtain ⟨hframe, _⟩ := restart_ends cause s
  have hrebuilt := (rebuilt_moves cause s).host_eq id
  rw [takeSettings_host, (loadedState_moves cause s).host_eq id] at hrebuilt
  have e := congrArg State.host hframe
  dsimp only at e
  rw [e, hrebuilt]
  rfl

theorem restart_cause (cause : Cause) (s : State) : (restart cause s).device.cause = cause := by
  obtain ⟨_, _, hdevice, _⟩ := restart_ends cause s
  rw [hdevice, rebuilt_device]
  rfl

theorem restart_mask (cause : Cause) (s : State) : (restart cause s).notices.mask = 0 := by
  obtain ⟨_, _, _, hmask, _⟩ := restart_ends cause s
  exact hmask.trans ((rebuilt_faulting cause s).mask.trans ((loadedState_faulting cause s).mask.trans rfl))

theorem restart_up (cause : Cause) (hp : s.device.powered = true) (hr : s.device.rst = false) :
    (restart cause s).up = true := by
  rw [up_of_outside (s := cleared cause s) (restart_moves cause s).outside]
  simp [State.up, cleared, hp, hr]

/-! ## The rows that restart the part -/

theorem lineEvent_up {f : State → State} (e : f s = t) (h : t.up = true) :
    lineEvent f s = .next (settle t) := by
  unfold lineEvent
  dsimp only
  rw [e, if_pos h]

theorem lineEvent_down {f : State → State} (e : f s = t) (h : t.up = false) : lineEvent f s = .next t := by
  unfold lineEvent
  dsimp only
  rw [e, if_neg (by rw [h]; exact Bool.false_ne_true)]

theorem powerOn_restarts (hrate : Bool) (hp : s.device.powered = false) (hr : s.device.rst = false) :
    Takes (.powerOn hrate) s
      (restart .powerOn (s.withDevice { s.device with powered := true, hrateStrap := hrate })) := by
  refine lineEvent_up (f := powerApplied hrate) ?_ (restart_up _ rfl hr)
  unfold powerApplied
  rw [if_neg (by rw [hp]; exact Bool.false_ne_true)]
  exact if_neg (show ¬s.device.rst = true by rw [hr]; exact Bool.false_ne_true)

theorem release_restarts (hp : s.device.powered = true) (hr : s.device.rst = true) :
    Takes .resetLineRelease s
      (restart (if s.device.powerOnPending then .powerOn else .resetLine)
        (s.withDevice { s.device with rst := false })) := by
  refine lineEvent_up (f := rstReleased) ?_ (restart_up _ hp rfl)
  unfold rstReleased
  rw [if_pos hr]
  exact if_pos hp

theorem frameSent_restarts {r : Reply} (h : s.up = true) (ht : s.host.transmitting = some (.reply r))
    (hr : r.isRestart = true) : Takes .frameSent s (restart .restartRequest s) :=
  takes_event (f := outgoingSent) h
    ((outgoingSent_restart (s := startEvent s) ht hr).trans (restart_congr rfl))

end Sys2Proof.Machine

namespace Sys2Proof

open Machine

/-- Settles O16, by what is on the line, and by what waits when the line is idle. -/
theorem frameTimerAndFrameSent : Obligations.FrameTimerAndFrameSent := by
  intro s hup sent
  have reply : ∀ {r t}, s.host.transmitting = some (.reply r) → r.isRestart = false →
      tryBegin ((startEvent s).withHost sent) = t → Takes .frameSent s t := fun ht hr e =>
    takes_event (f := outgoingSent) hup ((outgoingSent_reply (s := startEvent s) ht hr).trans e)
  refine ⟨fun htimer => takes_event (f := frameTimerEnds) hup ?_, fun r ht hr hb => reply ht hr (tryBegin_empty hb),
    fun r f ht hr hb => ⟨fun hheld => reply ht hr (tryBegin_waits hheld), fun he hk => reply ht hr ?_,
      fun hh hn hl => waiting_as_received hup ht hr hb hh hn hl⟩,
    fun n ht => takes_event (f := outgoingSent) hup (outgoingSent_notice (s := startEvent s) ht),
    fun r ht hr => ⟨_, frameSent_restarts hup ht hr, restart_cause .., restart_host .., restart_mask ..⟩,
    fun c u v hc hv hidle => ?_⟩
  · obtain ⟨left, hleft⟩ := Option.isSome_iff_exists.mp htimer
    unfold frameTimerEnds
    rw [show (startEvent s).host.frameTimer = some left from hleft]
    rfl
  · exact tryBegin_begins (u := (startEvent s).withHost sent) hb he hk
  · have hsettled : settle u = v := by
      have := (show exec c s = .next (settle u) from hc).symm.trans hv
      injection this
    obtain ⟨hhost, hnotices⟩ := settle_host_notices u
    rw [hsettled] at hhost hnotices
    rw [hhost, hnotices]
    intro waits
    refine ⟨fun r rest hr => ?_, fun n hr hok hw hlow => ?_, fun hr hok hnone => ?_⟩
    · rw [settleHost_reply hidle hr]
      exact ⟨rfl, rfl⟩
    · rw [settleHost_notice hidle hr (nextNotice_lowest hok hw hlow)]
      exact ⟨rfl, rfl⟩
    · rw [settleHost_silent hidle hr (nextNotice_none hok hnone)]
      exact ⟨rfl, rfl⟩

/-- Settles O60, by the lines: a part that comes up restarts, and one that goes down is quiet. -/
theorem linesRestartAndHold : Obligations.LinesRestartAndHold := by
  intro s
  refine ⟨fun hrate hp hr => ⟨_, powerOn_restarts hrate hp hr, restart_up _ rfl hr, restart_cause .., restart_host ..⟩,
    fun hp hr => ⟨_, release_restarts hp hr, restart_up _ hp rfl, restart_host .., restart_cause ..⟩, fun hp => ?_,
    fun n hp => ?_, fun hrate hp hr => ?_, fun hp hr => ?_, fun hp => ?_⟩
  · refine ⟨_, lineEvent_down (f := fun s => rstAsserted (startEvent s)) (if_pos hp) (up_of_rst rfl), rfl,
      up_of_rst rfl, rfl, rfl, rfl, rfl, rfl, rfl, rfl, rfl, rfl, rfl, rfl, rfl, rfl⟩
  · refine ⟨_, lineEvent_down (f := powerLost n) (if_pos hp) (up_of_unpowered rfl), rfl, up_of_unpowered rfl,
      rfl, rfl, rfl, rfl, rfl, rfl, rfl, rfl, rfl, rfl, rfl, rfl, rfl⟩
  · refine lineEvent_down (f := powerApplied hrate) ?_ (up_of_rst hr)
    unfold powerApplied
    rw [if_neg (by rw [hp]; exact Bool.false_ne_true)]
    exact if_pos hr
  · refine lineEvent_down (f := rstReleased) ?_ (up_of_unpowered hp)
    unfold rstReleased
    rw [if_pos hr]
    exact if_neg (show ¬s.device.powered = true by rw [hp]; exact Bool.false_ne_true)
  · exact lineEvent_down (f := fun s => rstAsserted (startEvent s))
      (if_neg (show ¬s.device.powered = true by rw [hp]; exact Bool.false_ne_true)) (up_of_rst rfl)

end Sys2Proof
end

section
/-! What a restart loads, repairs, resolves and rebuilds (R177 to R180), and the values of every restart. -/

namespace Sys2Proof.Machine

variable {s t u v : State} {cause : Cause} {i : Nat}

/-! ## Loading -/

/-- R171: a record place of the retained store holds a record. -/
def Held (s : State) (i : Nat) (d : RecordData) : Prop :=
  (s.store.records.get? i).bind Image.loaded = some (some d)

/-- The record that an image holds, as loaded. -/
def Image.record (img : Image (Option RecordData)) : Option Record := img.loaded.join.map RecordData.toRecord

/-- R171: nothing is loaded where both copies fail their checks. -/
theorem Image.loaded_unsound {α : Type} {img : Image α} (h1 : img.first.sound = false)
    (h2 : img.second.sound = false) : img.loaded = none := by
  unfold Image.loaded
  split <;> simp [h1, h2]

theorem loadRecord_same (i : Nat) (img : Image (Option RecordData)) (s : State) :
    (loadRecord i img s).record? i = img.record.or (s.record? i) := by
  unfold loadRecord Image.record
  split
  · next d h => rw [h, putRecord_same]; rfl
  · next h => rw [h]; rfl
  · next h => rw [h, (faultStore_spec s).2.1]; rfl

theorem loadRecord_other {j : Nat} (h : j ≠ i) (img : Image (Option RecordData)) (s : State) :
    (loadRecord i img s).record? j = s.record? j := by
  unfold loadRecord
  split
  · exact putRecord_other h ..
  · rfl
  · rw [(faultStore_spec s).2.1]; rfl

/-- No entry of a table in canonical form stands below its lowest place. -/
theorem Table.get?_below {α : Type} {x : Table α} {lo k : Nat} (h : x.risingFrom lo) (hk : k < lo) :
    x.get? k = none := by
  cases e : x.get? k with
  | none => rfl
  | some a =>
    have := Table.le_of_mem_places h (List.mem_map_of_mem (f := Prod.fst) (Table.mem_of_get? e))
    exact absurd this (Nat.not_le.mpr hk)

/-- R177: what the record images leave in a place. -/
theorem loadRecords_record (x : Table (Image (Option RecordData))) {lo : Nat} (h : x.risingFrom lo) :
    ∀ s : State, (x.foldl (fun s p => loadRecord p.1 p.2 s) s).record? i =
      ((x.get? i).bind Image.record).or (s.record? i) := by
  induction x generalizing lo with
  | nil => exact fun _ => rfl
  | cons p x ih =>
    intro s
    obtain ⟨k, img⟩ := p
    obtain ⟨_, hx⟩ := h
    rw [List.foldl_cons, ih hx]
    by_cases hk : k = i
    · subst hk
      have below : Table.get? x k = none := Table.get?_below hx (Nat.lt_succ_self k)
      have here : Table.get? ((k, img) :: x) k = some img := if_pos rfl
      rw [below, here, loadRecord_same]
      rfl
    · have here : Table.get? ((k, img) :: x) i = Table.get? x i := if_neg hk
      rw [here, loadRecord_other (Ne.symm hk)]

/-- R177: an image of which both copies fail their checks faults the store. -/
theorem loadRecords_faulted (x : Table (Image (Option RecordData))) {p : Nat × Image (Option RecordData)}
    (hp : p ∈ x) (hnone : p.2.loaded = none) :
    ∀ s : State, (x.foldl (fun s p => loadRecord p.1 p.2 s) s).device.storeFault = true := by
  induction x with
  | nil => cases hp
  | cons q x ih =>
    intro s
    rw [List.foldl_cons]
    rcases List.mem_cons.mp hp with rfl | hp
    · refine (Faulting.foldl x fun q v => loadRecord_faulting ..).raised ?_
      unfold loadRecord
      rw [hnone]
      exact faultStore_faulted s
    · exact ih hp _

theorem loadCouriers_faulted (x : Table (Image (Option Courier))) {p : Nat × Image (Option Courier)}
    (hp : p ∈ x) (hnone : p.2.loaded = none) :
    ∀ s : State, (x.foldl (fun s p => loadCourier p.1 p.2 s) s).device.storeFault = true := by
  induction x with
  | nil => cases hp
  | cons q x ih =>
    intro s
    rw [List.foldl_cons]
    rcases List.mem_cons.mp hp with rfl | hp
    · refine (Faulting.foldl x fun q v => loadCourier_faulting ..).raised ?_
      unfold loadCourier
      rw [hnone]
      exact faultStore_faulted s
    · exact ih hp _

/-- What the loading of the roster leaves of the records and the store. -/
theorem loadCouriers_custody (x : Table (Image (Option Courier))) (s : State) :
    (x.foldl (fun s p => loadCourier p.1 p.2 s) s).custody = s.custody := by
  have m : Moves { Allow.loading with custody := False } s (x.foldl (fun s p => loadCourier p.1 p.2 s) s) :=
    .foldl _ (fun p t k => by apply loadCourier_moves p.1 p.2 k <;> trivial) .refl
  exact m.custody_eq id

theorem loadRecords_store (x : Table (Image (Option RecordData))) (s : State) :
    (x.foldl (fun s p => loadRecord p.1 p.2 s) s).store = s.store := by
  have m : Moves { Allow.loading with store := False } s (x.foldl (fun s p => loadRecord p.1 p.2 s) s) :=
    .foldl _ (fun p t k => by apply loadRecord_moves p.1 p.2 k <;> trivial) .refl
  exact m.store_eq id

/-- R177: the records as loaded from the images of a store in canonical form. -/
theorem loadImages_record (h : s.store.records.rising) (i : Nat) (hnone : s.record? i = none) :
    (loadImages s).record? i = (s.store.records.get? i).bind Image.record := by
  unfold loadImages
  dsimp only
  rw [record?_congr (loadCouriers_custody ..), loadRecords_record _ h, hnone, Option.or_none]

/-- R177: a place or entry that cannot be loaded faults the store. -/
theorem loadImages_faulted
    (h : (∃ i img, s.store.records.get? i = some img ∧ img.loaded = none) ∨
      ∃ i img, s.store.roster.get? i = some img ∧ img.loaded = none) :
    (loadImages s).device.storeFault = true := by
  unfold loadImages
  dsimp only
  rcases h with ⟨i, img, hi, hn⟩ | ⟨i, img, hi, hn⟩
  · refine (Faulting.foldl _ fun q v => loadCourier_faulting ..).raised ?_
    exact loadRecords_faulted _ (Table.mem_of_get? hi) hn _
  · refine loadCouriers_faulted _ (p := (i, img)) ?_ hn _
    rw [loadRecords_store]
    exact Table.mem_of_get? hi

/-! ## Repairs -/

/-- A repair of a record place leaves each record or frees its place. -/
theorem repairRecord_record (k : Nat) (s : State) (i : Nat) :
    (repairRecord k s).record? i = s.record? i ∨ (repairRecord k s).record? i = none := by
  unfold repairRecord
  split
  · exact .inl rfl
  · split
    · rw [(faultStore_spec _).2.1]
      by_cases hk : i = k
      · subst hk
        exact .inr ((record?_congr (writeRecord_custody ..) i).trans (Table.get?_erase_same ..))
      · exact .inl ((record?_congr (writeRecord_custody ..) i).trans (Table.get?_erase_other _ hk))
    · exact .inl rfl

/-- R177: a place that repeats no label and no home slot of a lower place is left as it is. -/
theorem repairRecord_apart (hrising : s.custody.records.rising)
    (h : ∀ j r q, s.record? i = some r → s.record? j = some q → j < i → q.label ≠ r.label ∧ q.home ≠ r.home) :
    repairRecord i s = s := by
  unfold repairRecord
  split
  · rfl
  · next r hr =>
    refine if_neg fun hany => ?_
    obtain ⟨p, hp, hq⟩ := List.any_eq_true.mp hany
    simp only [Bool.and_eq_true, decide_eq_true_eq, Bool.or_eq_true, beq_iff_eq] at hq
    obtain ⟨hlabel, hhome⟩ := h p.1 r p.2 hr (Table.get?_of_mem hrising hp) hq.1
    exact hq.2.elim hlabel hhome

theorem foldl_fixed {α β : Type} {f : β → α → β} {b : β} (l : List α) (h : ∀ a, f b a = b) :
    l.foldl f b = b := by
  induction l with
  | nil => rfl
  | cons a l ih => rw [List.foldl_cons, h a, ih]

/-- The repairs of the roster leave the records. -/
theorem repairRoster_custody (ks : List Nat) (f : Nat → State → State)
    (hf : ∀ k v, (f k v).custody = v.custody) (s : State) :
    (ks.foldl (fun s k => f k s) s).custody = s.custody := by
  induction ks generalizing s with
  | nil => rfl
  | cons k ks ih => exact (ih _).trans (hf k s)

theorem repairCourier_custody (k : Nat) (s : State) : (repairCourier k s).custody = s.custody := by
  have m : Moves { Allow.loading with custody := False } s (repairCourier k s) := by
    apply repairCourier_moves k .refl <;> trivial
  exact m.custody_eq id

theorem repairCustodian_custody (k : Nat) (s : State) : (repairCustodian k s).custody = s.custody := by
  have m : Moves { Allow.loading with custody := False } s (repairCustodian k s) := by
    apply repairCustodian_moves k .refl <;> trivial
  exact m.custody_eq id

theorem repairImages_custody (s : State) :
    (repairImages s).custody = ((recordPlaces s).foldl (fun s i => repairRecord i s) s).custody := by
  unfold repairImages
  dsimp only
  rw [repairRoster_custody _ repairCustodian repairCustodian_custody,
    repairRoster_custody _ repairCourier repairCourier_custody]

theorem repairImages_record (s : State) (i : Nat) :
    (repairImages s).record? i = s.record? i ∨ (repairImages s).record? i = none := by
  rw [record?_congr (repairImages_custody s)]
  have folded : ∀ (ks : List Nat) (v : State),
      (ks.foldl (fun s i => repairRecord i s) v).record? i = v.record? i ∨
        (ks.foldl (fun s i => repairRecord i s) v).record? i = none := by
    intro ks
    induction ks with
    | nil => exact fun v => .inl rfl
    | cons k ks ih =>
      intro v
      rcases ih (repairRecord k v) with h | h
      · rcases repairRecord_record k v i with g | g
        · exact .inl (h.trans g)
        · exact .inr (h.trans g)
      · exact .inr h
  exact folded _ s

theorem repairImages_apart (hrising : s.custody.records.rising)
    (h : ∀ i j r q, s.record? i = some r → s.record? j = some q → j < i → q.label ≠ r.label ∧ q.home ≠ r.home) :
    (repairImages s).custody = s.custody := by
  rw [repairImages_custody, foldl_fixed _ fun i => repairRecord_apart hrising fun j => h i j]

/-! ## The records before the resolution -/

theorem TablesOk.records (h : TablesOk s) : s.custody.records.rising := by
  obtain ⟨_, hrecords, _⟩ := h
  exact hrecords

theorem TablesOk.places (h : TablesOk s) : (recordPlaces s).Pairwise (· < ·) :=
  Table.places_pairwise_lt (lo := 0) h.records

theorem TablesOk.listed (h : TablesOk s) (hi : i ∈ recordPlaces s) : s.record? i ≠ none := by
  obtain ⟨⟨k, r⟩, hp, rfl⟩ := List.mem_map.mp hi
  have listed : s.record? k = some r := Table.get?_of_mem h.records hp
  rw [listed]
  exact nofun

theorem cleared_tables (cause : Cause) (h : TablesOk s) : TablesOk (cleared cause s) :=
  (cleared_invariants cause s).2.2.2.2.1 h

/-- The record that a restart loads into a place. -/
def loadedRecord (s : State) (i : Nat) : Option Record := (s.store.records.get? i).bind Image.record

theorem loadedRecord_eq_some {r : Record} : loadedRecord s i = some r ↔ ∃ d, Held s i d ∧ r = d.toRecord := by
  unfold loadedRecord Held Image.record
  cases s.store.records.get? i with
  | none => simp
  | some img =>
    dsimp only [Option.bind_some]
    generalize img.loaded = l
    rcases l with _ | _ | d
    · simp
    · simp
    · simp [eq_comm]

theorem Held.loadedRecord {d : RecordData} (h : Held s i d) : loadedRecord s i = some d.toRecord :=
  loadedRecord_eq_some.mpr ⟨d, h, rfl⟩

theorem loadImages_cleared (cause : Cause) (h : TablesOk s) (i : Nat) :
    (loadImages (cleared cause s)).record? i = loadedRecord s i := by
  obtain ⟨_, _, _, _, _, _, hrecords, _⟩ := h
  exact loadImages_record (s := cleared cause s) hrecords i rfl

theorem loadImages_rising (cause : Cause) (h : TablesOk s) :
    (loadImages (cleared cause s)).custody.records.rising := by
  have m : Moves .loading (cleared cause s) (loadImages (cleared cause s)) := by
    apply loadImages_moves .refl <;> trivial
  exact (m.tablesOk (cleared_tables cause h)).records

/-- R177: after the repairs each place holds what was loaded, or is free. -/
theorem loadedState_record (cause : Cause) (h : TablesOk s) (i : Nat) :
    (loadedState cause s).record? i = loadedRecord s i ∨ (loadedState cause s).record? i = none := by
  rw [← loadImages_cleared cause h]
  exact repairImages_record ..

/-- No label and no home slot repeats among the records held. -/
def HeldApart (s : State) : Prop :=
  ∀ i j d e, Held s i d → Held s j e → i ≠ j → d.label ≠ e.label ∧ d.home ≠ e.home

/-- R177: where no label and no home slot repeats, every record is loaded. -/
theorem loadedState_apart (cause : Cause) (h : TablesOk s) (ha : HeldApart s) (i : Nat) :
    (loadedState cause s).record? i = loadedRecord s i := by
  rw [← loadImages_cleared cause h]
  refine record?_congr (repairImages_apart (loadImages_rising cause h) fun i j r q hi hj hlt => ?_) i
  rw [loadImages_cleared cause h] at hi hj
  obtain ⟨d, hd, rfl⟩ := loadedRecord_eq_some.mp hi
  obtain ⟨e, he, rfl⟩ := loadedRecord_eq_some.mp hj
  exact ha j i e d he hd (Nat.ne_of_lt hlt)

theorem loadedState_rising (cause : Cause) (h : TablesOk s) : (loadedState cause s).custody.records.rising :=
  ((loadedState_moves cause s).tablesOk (cleared_tables cause h)).records

/-! ## Settings -/

/-- A slot that a record holds: its home slot, or the slot it lies in. -/
def SlotOf (d : RecordData) (n : Nat) : Prop := n = d.home ∨ d.location = .slot n

/-- R178: the held slots are the home slots and the slots of the records. -/
theorem mem_heldSlots (hrising : s.custody.records.rising) {n : Nat} :
    n ∈ heldSlots s ↔ ∃ i r, s.record? i = some r ∧ (n = r.home ∨ r.location = .slot n) := by
  have entry : ∀ r : Record, n ∈ (match r.location with
      | .slot n => [r.home, n]
      | .rack _ | .hatch | .inHand | .courier _ | .unknown => [r.home]) ↔
      n = r.home ∨ r.location = .slot n := by
    intro r
    cases r.location <;> simp [eq_comm]
  unfold heldSlots
  rw [List.mem_flatMap]
  constructor
  · rintro ⟨p, hp, hn⟩
    exact ⟨p.1, p.2, Table.get?_of_mem hrising hp, (entry p.2).mp hn⟩
  · rintro ⟨i, r, hr, hn⟩
    exact ⟨(i, r), Table.mem_of_get? hr, (entry r).mpr hn⟩

theorem loadedSettings_usable {d : SettingsData} (h : s.store.settings.loaded = some (some d))
    (hu : d.usable = true) : loadedSettings s = (d, false) := by
  unfold loadedSettings
  rw [h]
  exact if_pos hu

theorem loadedSettings_defaulted
    (h : ∀ d, s.store.settings.loaded = some (some d) → d.usable = false) :
    loadedSettings s = (.defaults, true) := by
  unfold loadedSettings
  split
  · next d hd =>
    refine if_neg ?_
    rw [h d hd]
    exact Bool.false_ne_true
  · rfl
  · rfl

theorem settingsTaken_covered (h : ∀ n ∈ heldSlots s, (zoneOfSlotIn (loadedSettings s).1.zones n).isSome = true) :
    settingsTaken s = loadedSettings s :=
  if_pos (List.all_eq_true.mpr h)

theorem settingsTaken_uncovered {n : Nat} (hn : n ∈ heldSlots s)
    (h : zoneOfSlotIn (loadedSettings s).1.zones n = none) :
    settingsTaken s = (recovered (heldSlots s) (loadedSettings s).1, true) := by
  refine if_neg fun hall => ?_
  have := List.all_eq_true.mp hall n hn
  rw [h] at this
  cases this

theorem settingsTaken_params (s : State) : (settingsTaken s).1.params = (loadedSettings s).1.params := by
  unfold settingsTaken
  split <;> rfl

theorem foldl_min_le (l : List Nat) : ∀ b, l.foldl min b ≤ b ∧ ∀ n ∈ l, l.foldl min b ≤ n := by
  induction l with
  | nil => exact fun b => ⟨Nat.le_refl b, nofun⟩
  | cons a l ih =>
    intro b
    obtain ⟨hb, hl⟩ := ih (min b a)
    refine ⟨Nat.le_trans hb (Nat.min_le_left ..), fun n hn => ?_⟩
    rcases List.mem_cons.mp hn with rfl | hn
    · exact Nat.le_trans hb (Nat.min_le_right ..)
    · exact hl n hn

theorem le_foldl_max (l : List Nat) : ∀ b, b ≤ l.foldl max b ∧ ∀ n ∈ l, n ≤ l.foldl max b := by
  induction l with
  | nil => exact fun b => ⟨Nat.le_refl b, nofun⟩
  | cons a l ih =>
    intro b
    obtain ⟨hb, hl⟩ := ih (max b a)
    refine ⟨Nat.le_trans (Nat.le_max_left ..) hb, fun n hn => ?_⟩
    rcases List.mem_cons.mp hn with rfl | hn
    · exact Nat.le_trans (Nat.le_max_right ..) hb
    · exact hl n hn

/-- R178: in a recovered zone table zone 0 alone has a window, and it covers the held slots. -/
theorem recovered_windows (held : List Nat) (d : SettingsData) :
    (∃ w, ((recovered held d).zones[(0 : Fin 8)]).window = some w ∧
      ∀ n ∈ held, w.base ≤ n ∧ n ≤ w.limit) ∧
    ∀ z : Fin 8, z ≠ 0 → ((recovered held d).zones[z]).window = none := by
  refine ⟨⟨⟨held.foldl min 4095, held.foldl max 0⟩, ?_, fun n hn =>
    ⟨(foldl_min_le held 4095).2 n hn, (le_foldl_max held 0).2 n hn⟩⟩, fun z hz => ?_⟩
  · simp [recovered]
  · have hv : (0 : Nat) ≠ z.val := fun e => hz (Fin.ext e.symm)
    simp [recovered, hv]

/-! ## Resolution -/

theorem resolved_again (r : Record) : r.resolved.resolved = r.resolved := by
  unfold Record.resolved
  cases hs : r.state with
  | conditioning d => cases d <;> simp
  | _ => simp [hs]

theorem restartRecord_same (i : Nat) (old new : Record) (s : State) :
    (restartRecord i old new s).record? i = some new := by
  have written : (writeRecord i (putRecord i new s)).record? i = some new :=
    (record?_congr (writeRecord_custody ..) i).trans (putRecord_same ..)
  unfold restartRecord
  dsimp only
  split
  · exact written
  · exact written

theorem restartRecord_other {j : Nat} (h : j ≠ i) (old new : Record) (s : State) :
    (restartRecord i old new s).record? j = s.record? j := by
  have written : (writeRecord i (putRecord i new s)).record? j = s.record? j :=
    (record?_congr (writeRecord_custody ..) j).trans (putRecord_other h ..)
  unfold restartRecord
  dsimp only
  split
  · exact written
  · exact written

theorem resolveRecord_same (i : Nat) (s : State) :
    (resolveRecord i s).record? i = (s.record? i).map Record.resolved := by
  unfold resolveRecord
  split
  · next h => rw [h]; rfl
  · next r h =>
    rw [h]
    split
    · next he => rw [h, Option.map_some, he]
    · exact restartRecord_same ..

theorem resolveRecord_other {j : Nat} (h : j ≠ i) (s : State) :
    (resolveRecord i s).record? j = s.record? j := by
  unfold resolveRecord
  split
  · rfl
  · split
    · rfl
    · exact restartRecord_other h ..

/-- R179 for the records of a list. -/
theorem resolveList_record (is : List Nat) (i : Nat) :
    ∀ s : State, (is.foldl (fun s i => resolveRecord i s) s).record? i =
      if i ∈ is then (s.record? i).map Record.resolved else s.record? i := by
  induction is with
  | nil => exact fun _ => (if_neg List.not_mem_nil).symm
  | cons a is ih =>
    intro s
    rw [List.foldl_cons, ih]
    by_cases ha : i = a
    · subst ha
      rw [resolveRecord_same, if_pos List.mem_cons_self, Option.map_map]
      have again : Record.resolved ∘ Record.resolved = Record.resolved := funext resolved_again
      rw [again, ite_self]
    · rw [resolveRecord_other ha]
      simp only [List.mem_cons, ha, false_or]

/-- R179: every record is resolved. -/
theorem resolveAll_record (s : State) (i : Nat) :
    (resolveAll s).record? i = (s.record? i).map Record.resolved := by
  rw [resolveAll, resolveList_record]
  split
  · rfl
  · next h =>
    cases hr : s.record? i with
    | none => rfl
    | some r => exact absurd (List.mem_map_of_mem (f := Prod.fst) (Table.mem_of_get? hr)) h

theorem resolveAll_position (s : State) (p : Fin 12) : (resolveAll s).position p = s.position p := by
  have m : Moves { Allow.rebuilding with rack := False } s (resolveAll s) :=
    .foldl _ (fun i t k => by apply resolveRecord_moves i k <;> trivial) .refl
  simp only [State.position, m.rack_eq id]

theorem resolved_place (r : Record) : r.resolved.location = r.location := by
  unfold Record.resolved
  split <;> rfl

/-! ## The rack rebuilt -/

/-- A position that a restart rebuilds for a record. -/
def Position.rebuilt (i : Nat) : Position := { occupant := some (.record i), dwell := none, paused := false }

theorem position_congr (h : t.rack = s.rack) (p : Fin 12) : t.position p = s.position p := by
  simp only [State.position, h]

@[simp] theorem setPosition_same (p : Fin 12) (x : Position) (s : State) : (setPosition p x s).position p = x := by
  simp [State.position, setPosition]

theorem setPosition_other {p q : Fin 12} (h : q ≠ p) (x : Position) (s : State) :
    (setPosition p x s).position q = s.position q := by
  have hv : p.val ≠ q.val := fun e => h (Fin.ext e.symm)
  simp [State.position, setPosition, hv]

theorem restartRecord_position (i : Nat) (old new : Record) (s : State) (p : Fin 12) :
    (restartRecord i old new s).position p = s.position p := by
  have m : Moves { Allow.rebuilding with rack := False } s (restartRecord i old new s) := by
    apply restartRecord_moves i old new .refl <;> trivial
  exact position_congr (m.rack_eq id) p

/-- R180: a record outside the rack is left as it is. -/
theorem rebuildRecord_outside (h : ∀ r p, s.record? i = some r → r.location ≠ .rack p) : rebuildRecord i s = s := by
  unfold rebuildRecord
  split
  · rfl
  · next r hr =>
    split
    · next p hp => exact absurd hp (h r p hr)
    all_goals rfl

theorem rebuildRecord_takes {r : Record} {p : Fin 12} (h : s.record? i = some r) (hp : r.location = .rack p)
    (hfree : (s.position p).occupant = none) : rebuildRecord i s = setPosition p (.rebuilt i) s := by
  unfold rebuildRecord
  rw [h]
  dsimp only
  rw [hp]
  dsimp only
  rw [hfree]
  rfl

/-- R180: a record whose position holds another one is BLOCKED MISSING at UNKNOWN, its reason kept. -/
def Record.displaced (r : Record) : Record := normalise (r.blockedAt .missing .unknown)

theorem displaced_state (r : Record) :
    r.displaced.state = if r.state.isBlocked then r.state else .blocked .missing := rfl

theorem rebuildRecord_displaces {r : Record} {p : Fin 12} (h : s.record? i = some r) (hp : r.location = .rack p)
    (htaken : (s.position p).occupant ≠ none) : rebuildRecord i s = restartRecord i r r.displaced s := by
  unfold rebuildRecord
  rw [h]
  dsimp only
  rw [hp]
  dsimp only
  obtain ⟨o, ho⟩ := Option.ne_none_iff_exists'.mp htaken
  rw [ho]
  rfl

/-- One step of the rebuilding, by where the record lies and whether its position is free. -/
theorem rebuildRecord_cases (i : Nat) (s : State) :
    rebuildRecord i s = s ∨
      ∃ r p, s.record? i = some r ∧ r.location = .rack p ∧
        ((s.position p).occupant = none ∧ rebuildRecord i s = setPosition p (.rebuilt i) s ∨
          (s.position p).occupant ≠ none ∧ rebuildRecord i s = restartRecord i r r.displaced s) := by
  by_cases h : ∃ r p, s.record? i = some r ∧ r.location = .rack p
  · obtain ⟨r, p, hr, hp⟩ := h
    by_cases hfree : (s.position p).occupant = none
    · exact .inr ⟨r, p, hr, hp, .inl ⟨hfree, rebuildRecord_takes hr hp hfree⟩⟩
    · exact .inr ⟨r, p, hr, hp, .inr ⟨hfree, rebuildRecord_displaces hr hp hfree⟩⟩
  · exact .inl (rebuildRecord_outside fun r p hr hp => h ⟨r, p, hr, hp⟩)

theorem rebuildRecord_other {j : Nat} (h : j ≠ i) (s : State) : (rebuildRecord i s).record? j = s.record? j := by
  rcases rebuildRecord_cases i s with e | ⟨r, p, _, _, ⟨_, e⟩ | ⟨_, e⟩⟩
  · rw [e]
  · rw [e]; rfl
  · rw [e]; exact restartRecord_other h ..

/-- R110, R180: no dwell is started by the rebuilding. -/
theorem rebuildRecord_dwell (i : Nat) {p : Fin 12} (h : (s.position p).dwell = none) :
    ((rebuildRecord i s).position p).dwell = none := by
  rcases rebuildRecord_cases i s with e | ⟨r, q, _, _, ⟨_, e⟩ | ⟨_, e⟩⟩
  · rw [e]; exact h
  · rw [e]
    by_cases hq : p = q
    · rw [hq, setPosition_same]; rfl
    · rw [setPosition_other hq]; exact h
  · rw [e, restartRecord_position]; exact h

/-- A taken position stays taken. -/
theorem rebuildRecord_taken (i : Nat) {p : Fin 12} (h : (s.position p).occupant ≠ none) :
    ((rebuildRecord i s).position p).occupant ≠ none := by
  rcases rebuildRecord_cases i s with e | ⟨r, q, _, _, ⟨hfree, e⟩ | ⟨_, e⟩⟩
  · rw [e]; exact h
  · rw [e]
    by_cases hq : p = q
    · exact absurd (hq ▸ hfree) h
    · rw [setPosition_other hq]; exact h
  · rw [e, restartRecord_position]; exact h

/-- The position of a record is taken once the record has been rebuilt. -/
theorem rebuildRecord_takesPlace {r : Record} {p : Fin 12} (h : s.record? i = some r) (hp : r.location = .rack p) :
    ((rebuildRecord i s).position p).occupant ≠ none := by
  by_cases hfree : (s.position p).occupant = none
  · rw [rebuildRecord_takes h hp hfree, setPosition_same]
    exact nofun
  · exact rebuildRecord_taken i hfree

/-- A record that lies elsewhere leaves a position as it is. -/
theorem rebuildRecord_elsewhere {p : Fin 12} (h : ∀ r, s.record? i = some r → r.location ≠ .rack p) :
    (rebuildRecord i s).position p = s.position p := by
  rcases rebuildRecord_cases i s with e | ⟨r, q, hr, hq, ⟨_, e⟩ | ⟨_, e⟩⟩
  · rw [e]
  · rw [e]
    refine setPosition_other (fun hpq => h r hr ?_) ..
    rw [hq, hpq]
  · rw [e, restartRecord_position]

/-- The rebuilding for the records of a list. -/
def rebuildList (is : List Nat) (s : State) : State := is.foldl (fun s i => rebuildRecord i s) s

theorem rebuildList_cons (a : Nat) (is : List Nat) (s : State) :
    rebuildList (a :: is) s = rebuildList is (rebuildRecord a s) := rfl

theorem rebuildList_unlisted {is : List Nat} (h : i ∉ is) (s : State) :
    (rebuildList is s).record? i = s.record? i := by
  induction is generalizing s with
  | nil => rfl
  | cons a is ih =>
    rw [rebuildList_cons]
    rw [List.mem_cons, not_or] at h
    exact (ih h.2 _).trans (rebuildRecord_other h.1 s)

theorem rebuildList_outside {r : Record} (is : List Nat) (hr : s.record? i = some r)
    (h : ∀ p, r.location ≠ .rack p) : (rebuildList is s).record? i = some r := by
  induction is generalizing s with
  | nil => exact hr
  | cons a is ih =>
    rw [rebuildList_cons]
    refine ih ?_
    by_cases ha : i = a
    · subst ha
      rw [rebuildRecord_outside fun q p hq => ?_]
      · exact hr
      · cases hr.symm.trans hq
        exact h p
    · exact (rebuildRecord_other ha s).trans hr

theorem rebuildList_dwell (is : List Nat) {p : Fin 12} (h : (s.position p).dwell = none) :
    ((rebuildList is s).position p).dwell = none := by
  induction is generalizing s with
  | nil => exact h
  | cons a is ih => exact ih (rebuildRecord_dwell a h)

theorem rebuildList_elsewhere {is : List Nat} {p : Fin 12} (hd : is.Pairwise (· < ·))
    (h : ∀ j ∈ is, ∀ r, s.record? j = some r → r.location ≠ .rack p) :
    (rebuildList is s).position p = s.position p := by
  induction is generalizing s with
  | nil => rfl
  | cons a is ih =>
    rw [rebuildList_cons]
    obtain ⟨hlt, htail⟩ := List.pairwise_cons.mp hd
    refine (ih htail fun j hj r hr => ?_).trans (rebuildRecord_elsewhere (h a List.mem_cons_self))
    rw [rebuildRecord_other (Nat.ne_of_gt (hlt j hj))] at hr
    exact h j (List.mem_cons_of_mem _ hj) r hr

/-- R180: a listed record whose position is taken is displaced. -/
theorem rebuildList_displaces {is : List Nat} {r : Record} {p : Fin 12} (hd : is.Pairwise (· < ·)) (hi : i ∈ is)
    (hr : s.record? i = some r) (hp : r.location = .rack p) (ht : (s.position p).occupant ≠ none) :
    (rebuildList is s).record? i = some r.displaced := by
  induction is generalizing s with
  | nil => cases hi
  | cons a is ih =>
    rw [rebuildList_cons]
    obtain ⟨hlt, htail⟩ := List.pairwise_cons.mp hd
    rcases List.mem_cons.mp hi with rfl | hmem
    · refine (rebuildList_unlisted (fun hm => Nat.lt_irrefl _ (hlt _ hm)) _).trans ?_
      rw [rebuildRecord_displaces hr hp ht]
      exact restartRecord_same ..
    · exact ih htail hmem ((rebuildRecord_other (Nat.ne_of_gt (hlt i hmem)) s).trans hr) (rebuildRecord_taken a ht)

/-- R180: a further record located at a position is displaced. -/
theorem rebuildList_further {is : List Nat} {r q : Record} {p : Fin 12} {j : Nat} (hd : is.Pairwise (· < ·))
    (hi : i ∈ is) (hj : j ∈ is) (hlt : j < i) (hr : s.record? i = some r) (hp : r.location = .rack p)
    (hq : s.record? j = some q) (hqp : q.location = .rack p) :
    (rebuildList is s).record? i = some r.displaced := by
  induction is generalizing s with
  | nil => cases hi
  | cons a is ih =>
    rw [rebuildList_cons]
    obtain ⟨halt, htail⟩ := List.pairwise_cons.mp hd
    have hia : i ∈ is := by
      rcases List.mem_cons.mp hi with rfl | h
      · rcases List.mem_cons.mp hj with rfl | h
        · exact absurd hlt (Nat.lt_irrefl _)
        · exact absurd (halt j h) (Nat.not_lt.mpr (Nat.le_of_lt hlt))
      · exact h
    have hr' := (rebuildRecord_other (Nat.ne_of_gt (halt i hia)) s).trans hr
    rcases List.mem_cons.mp hj with rfl | hmem
    · exact rebuildList_displaces htail hia hr' hp (rebuildRecord_takesPlace hq hqp)
    · exact ih htail hia hmem hr' ((rebuildRecord_other (Nat.ne_of_gt (halt j hmem)) s).trans hq)

/-- R180: the one record located at a free position is taken by it. -/
theorem rebuildList_takes {is : List Nat} {r : Record} {p : Fin 12} (hd : is.Pairwise (· < ·)) (hi : i ∈ is)
    (hr : s.record? i = some r) (hp : r.location = .rack p) (hfree : (s.position p).occupant = none)
    (hone : ∀ j ∈ is, ∀ q, s.record? j = some q → q.location = .rack p → j = i) :
    (rebuildList is s).record? i = some r ∧ (rebuildList is s).position p = .rebuilt i := by
  induction is generalizing s with
  | nil => cases hi
  | cons a is ih =>
    rw [rebuildList_cons]
    obtain ⟨halt, htail⟩ := List.pairwise_cons.mp hd
    by_cases ha : i = a
    · subst ha
      have hnot : i ∉ is := fun hm => Nat.lt_irrefl _ (halt i hm)
      have e := rebuildRecord_takes hr hp hfree
      refine ⟨(rebuildList_unlisted hnot _).trans (by rw [e]; exact hr), ?_⟩
      refine (rebuildList_elsewhere htail fun j hj q hq hqp => ?_).trans (by rw [e, setPosition_same])
      rw [rebuildRecord_other (Nat.ne_of_gt (halt j hj))] at hq
      exact hnot (hone j (List.mem_cons_of_mem _ hj) q hq hqp ▸ hj)
    · have hia := (List.mem_cons.mp hi).resolve_left ha
      refine ih htail hia ((rebuildRecord_other ha s).trans hr) ?_ fun j hj q hq hqp => ?_
      · rw [rebuildRecord_elsewhere fun q hq hqp => ha (hone a List.mem_cons_self q hq hqp).symm]
        exact hfree
      · rw [rebuildRecord_other (Nat.ne_of_gt (halt j hj))] at hq
        exact hone j (List.mem_cons_of_mem _ hj) q hq hqp

/-! ## The values of a restart -/

/-- The state of a restart after its settings have been taken. -/
def configured (cause : Cause) (s : State) : State :=
  takeSettings (settingsTaken (loadedState cause s)).1 (settingsTaken (loadedState cause s)).2 (loadedState cause s)

theorem repairImages_faulting (s : State) : Faulting s (repairImages s) :=
  ((Faulting.foldl _ fun i w => repairRecord_faulting i w).trans
    (.foldl _ fun i w => repairCourier_faulting i w)).trans (.foldl _ fun i w => repairCustodian_faulting i w)

/-- What a restart leaves as it is when the rack has been rebuilt. -/
structure Ends (v t : State) : Prop where
  settings : t.settings = v.settings
  nodes : t.nodes = v.nodes
  orders : t.orders = v.orders
  fire : t.fire = v.fire
  hatch : t.hatch = v.hatch
  handover : t.handover = v.handover
  climate : t.climate = v.climate
  rack : t.rack = v.rack
  custody : t.custody = v.custody
  flags : t.device.settingsDefaulted = v.device.settingsDefaulted ∧ t.device.storeFault = v.device.storeFault
  link : t.link.rate = v.link.rate ∧ t.link.forward = v.link.forward ∧
    t.link.pendingBroadcast = v.link.pendingBroadcast

theorem restart_keeps (cause : Cause) (s : State) : Ends (rebuilt cause s) (restart cause s) := by
  obtain ⟨hframe, hlink, hdevice, _⟩ := restart_ends cause s
  generalize rebuilt cause s = v at *
  generalize restart cause s = t at *
  have flags : t.device.settingsDefaulted = v.device.settingsDefaulted ∧
      t.device.storeFault = v.device.storeFault := by rw [hdevice]; exact ⟨rfl, rfl⟩
  have link : t.link.rate = v.link.rate ∧ t.link.forward = v.link.forward ∧
      t.link.pendingBroadcast = v.link.pendingBroadcast := by rw [hlink]; exact ⟨rfl, rfl, rfl⟩
  exact
    { settings := by rw [hframe], nodes := by rw [hframe], orders := by rw [hframe], fire := by rw [hframe],
      hatch := by rw [hframe], handover := by rw [hframe], climate := by rw [hframe], rack := by rw [hframe],
      custody := by rw [hframe], flags := flags, link := link }

/-- What the taking of the settings touches. -/
def Allow.configuring : Allow :=
  ⟨True, False, False, True, True, True, True, False, False, False, False, False, False, False, False, False, True⟩

theorem takeSettings_configures (d : SettingsData) (defaulted : Bool) (hd : d.bindings.rising) (s : State) :
    Moves .configuring s (takeSettings d defaulted s) := by
  unfold takeSettings
  refine .climate _ trivial (keeps_of_rising (Table.map_rising (Table.filter_rising hd)))
    (.link _ trivial (fun _ => List.nodup_nil)
      (.device _ trivial rfl (.nodes _ trivial ?_ (.settings _ trivial .refl))))
  exact keeps_of_rising (Table.map_rising (f := fun p => p.2.restarted) hd)

theorem settingsTaken_rising (s : State) : (settingsTaken s).1.bindings.rising := by
  unfold settingsTaken
  split
  · exact loadedSettings_rising s
  · exact Table.filter_rising (loadedSettings_rising s)

theorem configured_moves (cause : Cause) (s : State) : Moves .configuring (loadedState cause s) (configured cause s) :=
  takeSettings_configures _ _ (settingsTaken_rising _) _

theorem rebuilt_after (cause : Cause) (s : State) : Moves .rebuilding (configured cause s) (rebuilt cause s) :=
  rebuilt_moves cause s

theorem configured_link (cause : Cause) (s : State) :
    (configured cause s).link.rate = 0 ∧ (configured cause s).link.forward = none ∧
      (configured cause s).link.pendingBroadcast = none := by
  unfold configured
  generalize loadedState cause s = v
  exact ⟨rfl, rfl, rfl⟩

theorem configured_nodes (cause : Cause) (s : State) :
    (configured cause s).nodes =
      (settingsTaken (loadedState cause s)).1.bindings.map fun p => (p.1, p.2.restarted) := by
  unfold configured
  generalize loadedState cause s = v
  rfl

theorem configured_zones (cause : Cause) (s : State) :
    (configured cause s).climate.zones = (loadedState cause s).climate.zones := by
  unfold configured
  generalize loadedState cause s = v
  rfl

theorem configured_airAt (cause : Cause) (s : State) (y : Fin 9) :
    ((configured cause s).airAt y).reading = none ∧ ((configured cause s).airAt y).disagree = false := by
  unfold configured
  generalize loadedState cause s = v
  simp [takeSettings, State.airAt, AirReading.restarted, State.withClimate]

theorem configured_settings (cause : Cause) (s : State) :
    (configured cause s).settings =
      ⟨(settingsTaken (loadedState cause s)).1.params, (settingsTaken (loadedState cause s)).1.zones⟩ := by
  unfold configured
  generalize loadedState cause s = v
  rfl

theorem restart_link (cause : Cause) (s : State) :
    (restart cause s).link.rate = 0 ∧ (restart cause s).link.forward = none ∧
      (restart cause s).link.pendingBroadcast = none := by
  obtain ⟨hrate, hforward, hpending⟩ := (restart_keeps cause s).link
  rw [hrate, hforward, hpending, (rebuilt_after cause s).link_eq id]
  exact configured_link cause s

/-- R49: the node table of a restart is formed from the bindings that were taken. -/
theorem restart_nodes (cause : Cause) (s : State) :
    (restart cause s).nodes =
      (settingsTaken (loadedState cause s)).1.bindings.map fun p => (p.1, p.2.restarted) := by
  have rebuilt := (rebuilt_after cause s).nodes_eq id
  have kept := (restart_keeps cause s).nodes
  have taken := configured_nodes cause s
  exact (kept.trans rebuilt).trans taken

theorem restart_node {n : Node} (h : (restart cause s).node? i = some n) :
    n.health = .online ∧ n.misses = 0 ∧ n.accepted = none ∧ n.rate = 0 := by
  have hmem : (i, n) ∈ (restart cause s).nodes := Table.mem_of_get? h
  rw [restart_nodes] at hmem
  obtain ⟨p, _, e⟩ := List.mem_map.mp hmem
  have hn : p.2.restarted = n := congrArg Prod.snd e
  rw [← hn]
  exact ⟨rfl, rfl, rfl, rfl⟩

theorem restart_startupSet (cause : Cause) (s : State) :
    (restart cause s).device.startupSet = (restart cause s).nodes.map (·.1) ∧
      (restart cause s).device.condition = if (restart cause s).nodes = [] then .running else .starting := by
  obtain ⟨_, _, hdevice, _⟩ := restart_ends cause s
  have hnodes := (restart_keeps cause s).nodes
  generalize rebuilt cause s = v at *
  generalize restart cause s = t at *
  rw [hnodes, hdevice]
  exact ⟨rfl, rfl⟩

theorem restart_orders (cause : Cause) (s : State) : (restart cause s).orders = [] := by
  rw [(restart_keeps cause s).orders, (rebuilt_after cause s).orders_eq id, (configured_moves cause s).orders_eq id,
    (loadedState_moves cause s).orders_eq id, cleared]

theorem restart_fire (cause : Cause) (s : State) : (restart cause s).fire = .restarted := by
  rw [(restart_keeps cause s).fire, (rebuilt_after cause s).fire_eq id, (configured_moves cause s).fire_eq id,
    (loadedState_moves cause s).fire_eq id, cleared]

theorem restart_hatch (cause : Cause) (s : State) : (restart cause s).hatch = .restarted := by
  rw [(restart_keeps cause s).hatch, (rebuilt_after cause s).hatch_eq id, (configured_moves cause s).hatch_eq id,
    (loadedState_moves cause s).hatch_eq id, cleared]

theorem restart_contexts (cause : Cause) (s : State) : (restart cause s).handover.contexts = [] := by
  rw [(restart_keeps cause s).handover, (rebuilt_after cause s).contexts_eq id,
    (configured_moves cause s).contexts_eq id, (loadedState_moves cause s).contexts_eq id, cleared]

theorem restart_climate (cause : Cause) (s : State) : (restart cause s).climate = (configured cause s).climate := by
  rw [(restart_keeps cause s).climate, (rebuilt_after cause s).climate_eq id]

theorem restart_zoneClimate (cause : Cause) (s : State) (z : Fin 8) :
    (restart cause s).zoneClimate z = .restarted := by
  rw [zoneClimate_congr (restart_climate cause s), State.zoneClimate, configured_zones,
    (loadedState_moves cause s).climate_eq id]
  simp [cleared, Climate.restarted]

theorem restart_airAt (cause : Cause) (s : State) (y : Fin 9) :
    ((restart cause s).airAt y).reading = none ∧ ((restart cause s).airAt y).disagree = false := by
  have e : (restart cause s).airAt y = (configured cause s).airAt y := by
    simp only [State.airAt, restart_climate]
  rw [e]
  exact configured_airAt cause s y

theorem configured_rack (cause : Cause) (s : State) : (configured cause s).rack = .restarted := by
  rw [(configured_moves cause s).rack_eq id, (loadedState_moves cause s).rack_eq id, cleared]

theorem configured_position (cause : Cause) (s : State) (p : Fin 12) :
    (resolveAll (configured cause s)).position p = .empty := by
  rw [resolveAll_position, State.position, configured_rack]
  simp [Rack.restarted]

theorem restart_position (cause : Cause) (s : State) (p : Fin 12) :
    (restart cause s).position p = (rebuilt cause s).position p :=
  position_congr (restart_keeps cause s).rack p

theorem rebuilt_eq (cause : Cause) (s : State) :
    rebuilt cause s =
      rebuildList (recordPlaces (resolveAll (configured cause s))) (resolveAll (configured cause s)) := rfl

theorem restart_dwell (cause : Cause) (s : State) (p : Fin 12) : ((restart cause s).position p).dwell = none := by
  rw [restart_position, rebuilt_eq]
  refine rebuildList_dwell _ ?_
  rw [configured_position]
  rfl

theorem configured_notices (cause : Cause) (s : State) :
    (configured cause s).notices = (loadedState cause s).notices :=
  (configured_moves cause s).notices_eq id

theorem configured_fault (cause : Cause) (s : State) :
    (configured cause s).device.storeFault = (loadedState cause s).device.storeFault := by
  unfold configured
  generalize loadedState cause s = v
  rfl

/-- R177: a place or an entry that cannot be loaded faults the store, which is posted. -/
theorem restart_faulted (cause : Cause)
    (h : (∃ i img, s.store.records.get? i = some img ∧ img.loaded = none) ∨
      ∃ i img, s.store.roster.get? i = some img ∧ img.loaded = none) :
    (restart cause s).device.storeFault = true ∧
      (restart cause s).notices.pending.get? 30 = some .storeFault := by
  have hloaded : (loadedState cause s).device.storeFault = true :=
    (repairImages_faulting _).raised (loadImages_faulted (s := cleared cause s) h)
  have hposted := (loadedState_faulting cause s).posted nofun hloaded
  have after : Faulting (configured cause s) (rebuilt cause s) := rebuilt_faulting cause s
  have hrebuilt := after.raised ((configured_fault cause s).trans hloaded)
  have hstands := after.posted (fun _ => by rw [configured_notices]; exact hposted) hrebuilt
  obtain ⟨_, _, _, _, _, hpending⟩ := restart_ends cause s
  rw [(restart_keeps cause s).flags.2, hpending]
  exact ⟨hrebuilt, hstands⟩

theorem restart_posted (cause : Cause) (s : State) :
    (restart cause s).notices.pending.get? 9 =
      some (.restarted cause (restart cause s).device.settingsDefaulted) := by
  obtain ⟨_, _, _, _, hposted, _⟩ := restart_ends cause s
  have hcause : (rebuilt cause s).device.cause = cause := by rw [rebuilt_device]; rfl
  rw [hposted, hcause, (restart_keeps cause s).flags.1]

/-! ## The settings of a restart -/

theorem loadedSettings_congr (h : t.store.settings = s.store.settings) : loadedSettings t = loadedSettings s := by
  unfold loadedSettings
  rw [h]

theorem loadedState_settings (cause : Cause) (s : State) : loadedSettings (loadedState cause s) = loadedSettings s :=
  loadedSettings_congr ((loadedState_moves cause s).image_eq id)

/-- R178: the working settings and the flag of a restart are those taken. -/
theorem restart_settings (cause : Cause) (s : State) {d : SettingsData} {b : Bool}
    (h : settingsTaken (loadedState cause s) = (d, b)) :
    (restart cause s).settings = ⟨d.params, d.zones⟩ ∧ (restart cause s).device.settingsDefaulted = b := by
  constructor
  · rw [(restart_keeps cause s).settings, (rebuilt_after cause s).settings_eq id, configured_settings, h]
  · rw [(restart_keeps cause s).flags.1, rebuilt_device, h]

theorem restart_taken (cause : Cause) (s : State) :
    (restart cause s).settings =
        ⟨(settingsTaken (loadedState cause s)).1.params, (settingsTaken (loadedState cause s)).1.zones⟩ ∧
      (restart cause s).device.settingsDefaulted = (settingsTaken (loadedState cause s)).2 :=
  restart_settings cause s (Prod.eta _).symm

/-- R178: a restart that loads no usable settings takes the default parameters. -/
theorem restart_defaulted (cause : Cause)
    (h : ∀ d, s.store.settings.loaded = some (some d) → d.usable = false) :
    (restart cause s).settings.params = .defaults ∧ (restart cause s).device.settingsDefaulted = true := by
  obtain ⟨hsettings, hflag⟩ := restart_taken cause s
  have loaded := (loadedState_settings cause s).trans (loadedSettings_defaulted h)
  rw [hsettings, hflag]
  dsimp only
  rw [settingsTaken_params, loaded]
  refine ⟨rfl, ?_⟩
  unfold settingsTaken
  split
  · rw [loaded]
  · rfl

section Usable

variable {d : SettingsData}

theorem loadedState_usable (cause : Cause) (hd : s.store.settings.loaded = some (some d)) (hu : d.usable = true) :
    loadedSettings (loadedState cause s) = (d, false) :=
  (loadedState_settings cause s).trans (loadedSettings_usable hd hu)

/-- R178: usable settings that cover every held slot are taken, and the nodes bound are theirs. -/
theorem restart_covered (cause : Cause) (hd : s.store.settings.loaded = some (some d)) (hu : d.usable = true)
    (h : ∀ n ∈ heldSlots (loadedState cause s), (zoneOfSlotIn d.zones n).isSome = true) :
    (restart cause s).settings = ⟨d.params, d.zones⟩ ∧ (restart cause s).device.settingsDefaulted = false ∧
      (restart cause s).nodes.map (fun p => (p.1, p.2.binding)) = d.bindings := by
  have loaded := loadedState_usable cause hd hu
  have taken : settingsTaken (loadedState cause s) = (d, false) :=
    (settingsTaken_covered (by rw [loaded]; exact h)).trans loaded
  obtain ⟨hsettings, hflag⟩ := restart_settings cause s taken
  refine ⟨hsettings, hflag, ?_⟩
  rw [restart_nodes, taken, List.map_map]
  exact List.map_id _

/-- R178: where usable settings leave a held slot uncovered, the zone table is recovered. -/
theorem restart_uncovered (cause : Cause) (hd : s.store.settings.loaded = some (some d)) (hu : d.usable = true)
    {n : Nat} (hn : n ∈ heldSlots (loadedState cause s)) (h : zoneOfSlotIn d.zones n = none) :
    (restart cause s).settings =
        ⟨d.params, (recovered (heldSlots (loadedState cause s)) d).zones⟩ ∧
      (restart cause s).device.settingsDefaulted = true := by
  have loaded := loadedState_usable cause hd hu
  have taken := settingsTaken_uncovered hn (by rw [loaded]; exact h)
  rw [loaded] at taken
  exact restart_settings cause s taken

end Usable

/-- The slots held after the loading are those of the records held. -/
theorem heldSlots_loaded (cause : Cause) (h : TablesOk s) {n : Nat} (hn : n ∈ heldSlots (loadedState cause s)) :
    ∃ i d, Held s i d ∧ SlotOf d n := by
  obtain ⟨i, r, hr, hslot⟩ := (mem_heldSlots (loadedState_rising cause h)).mp hn
  rcases loadedState_record cause h i with e | e
  · obtain ⟨d, hd, rfl⟩ := loadedRecord_eq_some.mp (e.symm.trans hr)
    exact ⟨i, d, hd, hslot⟩
  · cases e.symm.trans hr

theorem heldSlots_apart (cause : Cause) (h : TablesOk s) (ha : HeldApart s) {d : RecordData} (hd : Held s i d)
    {n : Nat} (hn : SlotOf d n) : n ∈ heldSlots (loadedState cause s) :=
  (mem_heldSlots (loadedState_rising cause h)).mpr
    ⟨i, d.toRecord, (loadedState_apart cause h ha i).trans hd.loadedRecord, hn⟩

/-! ## The records of a restart -/

theorem configured_custody (cause : Cause) (s : State) :
    (configured cause s).custody = (loadedState cause s).custody :=
  (configured_moves cause s).custody_eq id

/-- The record that R179 leaves of a held one. -/
def RecordData.restarted (d : RecordData) : Record := d.toRecord.resolved

theorem configured_record (cause : Cause) (h : TablesOk s) (ha : HeldApart s) {r : Record} :
    (resolveAll (configured cause s)).record? i = some r ↔ ∃ d, Held s i d ∧ r = d.restarted := by
  rw [resolveAll_record, record?_congr (configured_custody cause s), loadedState_apart cause h ha i]
  simp only [Option.map_eq_some_iff, loadedRecord_eq_some]
  constructor
  · rintro ⟨_, ⟨d, hd, rfl⟩, rfl⟩
    exact ⟨d, hd, rfl⟩
  · rintro ⟨d, hd, rfl⟩
    exact ⟨_, ⟨d, hd, rfl⟩, rfl⟩

theorem configured_tables (cause : Cause) (h : TablesOk s) : TablesOk (resolveAll (configured cause s)) :=
  (resolveAll_moves _).tablesOk ((configured_moves cause s).tablesOk
    ((loadedState_moves cause s).tablesOk (cleared_tables cause h)))

theorem restart_record (cause : Cause) (s : State) (i : Nat) :
    (restart cause s).record? i = (rebuilt cause s).record? i :=
  record?_congr (restart_keeps cause s).custody i

theorem mem_recordPlaces {r : Record} (h : s.record? i = some r) : i ∈ recordPlaces s :=
  List.mem_map_of_mem (f := Prod.fst) (Table.mem_of_get? h)

/-- R177: a place that could not be loaded is free. -/
theorem restart_unloaded (cause : Cause) (h : TablesOk s) (hn : loadedRecord s i = none) :
    (restart cause s).record? i = none := by
  have loaded : (loadedState cause s).record? i = none :=
    (loadedState_record cause h i).elim (fun e => e.trans hn) id
  have resolved : (resolveAll (configured cause s)).record? i = none := by
    rw [resolveAll_record, record?_congr (configured_custody cause s), loaded]
    rfl
  have unlisted : i ∉ recordPlaces (resolveAll (configured cause s)) := fun hm =>
    (configured_tables cause h).listed hm resolved
  rw [restart_record, rebuilt_eq, rebuildList_unlisted unlisted]
  exact resolved

section Records

variable {d e : RecordData} {j : Nat} {p : Fin 12}

theorem restarted_place (d : RecordData) : d.restarted.location = d.location := resolved_place _

/-- R179: the state that a restart leaves of a loaded one. -/
def CState.restarted (st : CState) : CState :=
  match st with
  | .reserved => .shelved
  | .picked | .conditioning .outbound | .ready _ => .loose
  | .conditioning .returning => .received
  | .staged | .inbound => .blocked .powerLoss
  | st => st

theorem restarted_state (d : RecordData) : d.restarted.state = d.state.restarted := by
  have state : d.toRecord.state = d.state := rfl
  unfold RecordData.restarted Record.resolved CState.restarted
  rw [state]
  cases hs : d.state with
  | conditioning dir => cases dir <;> rfl
  | reserved | picked | ready _ | staged | inbound => rfl
  | shelved | out | received | loose | blocked _ => exact hs

/-- R179: a record outside the rack is resolved where it lies. -/
theorem restart_outside (cause : Cause) (h : TablesOk s) (ha : HeldApart s) (hd : Held s i d)
    (hp : ∀ p, d.location ≠ .rack p) : (restart cause s).record? i = some d.restarted := by
  rw [restart_record, rebuilt_eq]
  refine rebuildList_outside _ ((configured_record cause h ha).mpr ⟨d, hd, rfl⟩) fun p => ?_
  rw [restarted_place]
  exact hp p

/-- R180: the one record located at a position of the rack is resolved and taken by it. -/
theorem restart_onRack (cause : Cause) (h : TablesOk s) (ha : HeldApart s) (hd : Held s i d)
    (hp : d.location = .rack p) (hone : ∀ j e, Held s j e → e.location = .rack p → j = i) :
    (restart cause s).record? i = some d.restarted ∧ (restart cause s).position p = .rebuilt i := by
  have hr := (configured_record cause h ha).mpr ⟨d, hd, rfl⟩
  rw [restart_record, restart_position, rebuilt_eq]
  refine rebuildList_takes (configured_tables cause h).places (mem_recordPlaces hr) hr
    ((restarted_place d).trans hp) ?_ fun j _ q hq hqp => ?_
  · rw [configured_position]; rfl
  · obtain ⟨e, he, rfl⟩ := (configured_record cause h ha).mp hq
    exact hone j e he ((restarted_place e).symm.trans hqp)

/-- R180: a further record located at a position is displaced. -/
theorem restart_further (cause : Cause) (h : TablesOk s) (ha : HeldApart s) (hd : Held s i d)
    (hp : d.location = .rack p) (he : Held s j e) (hep : e.location = .rack p) (hlt : j < i) :
    (restart cause s).record? i = some d.restarted.displaced := by
  have hr := (configured_record cause h ha).mpr ⟨d, hd, rfl⟩
  have hq := (configured_record cause h ha).mpr ⟨e, he, rfl⟩
  rw [restart_record, rebuilt_eq]
  exact rebuildList_further (configured_tables cause h).places (mem_recordPlaces hr) (mem_recordPlaces hq) hlt hr
    ((restarted_place d).trans hp) hq ((restarted_place e).trans hep)

end Records

end Sys2Proof.Machine

namespace Sys2Proof

open Machine

/-- Settles O59: what the rebuilt state holds, read off the steps of a restart. -/
theorem restartGivesValues : Obligations.RestartGivesValues := by
  intro s
  refine ⟨fun hrate hp hr => powerOn_restarts hrate hp hr, fun hp hr => release_restarts hp hr,
    fun r hup ht hr => frameSent_restarts hup ht hr, fun cause => ?_⟩
  obtain ⟨hrate, hforward, hbroadcast⟩ := restart_link cause s
  obtain ⟨hset, hcondition⟩ := restart_startupSet cause s
  dsimp only
  refine ⟨restart_cause cause s, restart_host cause s, restart_mask cause s, hrate, hforward, hbroadcast,
    fun i n h => restart_node h, restart_orders cause s, ?_, fun z => ?_, restart_hatch cause s, restart_contexts cause s,
    fun z => restart_zoneClimate cause s z, fun y => restart_airAt cause s y, fun p => restart_dwell cause s p, ?_, hset, hcondition,
    fun htables => ⟨fun i img hi h1 h2 => ?_, fun i img hi h1 h2 => ?_, fun d hd hu hcover => ?_, fun hno => ?_,
      fun ha d i e m hd hu he hm hnone => ?_, fun ha i d hd => ?_⟩⟩
  · rw [restart_fire]; rfl
  · dsimp only [State.zoneFire]
    rw [restart_fire]
    simp [Fire.restarted, ZoneFire.restarted]
  · exact restart_posted cause s
  · have hunsound := Image.loaded_unsound h1 h2
    refine ⟨restart_unloaded cause htables ?_, restart_faulted cause (.inl ⟨i, img, hi, hunsound⟩)⟩
    simp [loadedRecord, hi, Image.record, hunsound]
  · exact restart_faulted cause (.inr ⟨i, img, hi, Image.loaded_unsound h1 h2⟩)
  · refine restart_covered cause hd hu fun n hn => ?_
    obtain ⟨i, e, he, hslot⟩ := heldSlots_loaded cause htables hn
    exact hcover i e n he hslot
  · exact restart_defaulted cause hno
  · have hslots : ∀ j f n, Held s j f → SlotOf f n → n ∈ heldSlots (loadedState cause s) := fun _ _ _ hf =>
      heldSlots_apart cause htables ha hf
    obtain ⟨hsettings, hflag⟩ := restart_uncovered cause hd hu (hslots i e m he hm) hnone
    obtain ⟨⟨w, hw, hcovers⟩, hothers⟩ := recovered_windows (heldSlots (loadedState cause s)) d
    rw [State.zone, hsettings]
    refine ⟨hflag, rfl, ⟨w, hw, fun j f n hf hn => hcovers n (hslots j f n hf hn)⟩, fun z hz => ?_⟩
    rw [State.zone, hsettings]
    exact hothers z hz
  · refine ⟨fun hp => ?_, fun p hp hone => ?_, fun p j e hp he hep hlt => ?_⟩
    · exact ⟨_, restart_outside cause htables ha hd hp, restarted_state d, restarted_place d⟩
    · obtain ⟨hr, hpos⟩ := restart_onRack cause htables ha hd hp hone
      exact ⟨⟨_, hr, restarted_state d, (restarted_place d).trans hp⟩, hpos⟩
    · have hr := restart_further cause htables ha hd hp he hep hlt
      refine ⟨_, hr, (displaced_state _).trans ?_, rfl⟩
      rw [restarted_state]
      rfl

end Sys2Proof
end

section
/-! SUPPORT. What the work of the blocks inside an event leaves to others: of the field link it changes the queue
alone, by posting commands; it posts no notice of a node or of the link, and of a zone's fire state and ALARM OUT
only where a fire record changes; of the device it may fault the store; execution and the node table stand, and, but
for reader events and reports, the contents list and the report of the hatch. Said once for each operation that the reports, the bindings and the confirmations reach. -/

namespace Sys2Proof.Machine

/-- Two queue entries have one key (R38). -/
def QueueEntry.sameKey (d e : QueueEntry) : Prop := d.node = e.node ∧ d.cmd = e.cmd

/-- Every entry of a queue keeps an entry of its key. -/
def KeepsKeys (q r : List QueueEntry) : Prop := ∀ e ∈ q, ∃ d ∈ r, d.sameKey e

/-- What an operation does besides: fire records change, the hatch's reader is heard, its report is taken. -/
structure Scope where
  (fires enters reports : Prop)

def Scope.all : Scope := ⟨True, True, True⟩

def Scope.none : Scope := ⟨False, False, False⟩

/-- Where fire records may change. -/
def Scope.fire : Scope := ⟨True, False, False⟩

/-- The work of the blocks within a scope. -/
structure Works (W : Scope) (s t : State) : Prop where
  link : t.link = { s.link with queue := t.link.queue }
  executing : t.host.executing = s.host.executing
  device : t.device = { s.device with storeFault := t.device.storeFault }
  nodes : t.nodes = s.nodes
  notices : ∀ k, 52 ≤ k ∨ (¬W.fires ∧ k ≤ 8) → t.notices.pending.get? k = s.notices.pending.get? k
  keys : KeepsKeys s.link.queue t.link.queue
  bound : ∀ d ∈ t.link.queue, (∃ e ∈ s.link.queue, d.sameKey e) ∨ (s.node? d.node).isSome = true
  contents : ¬W.enters → t.hatch.contents = s.hatch.contents
  report : ¬W.reports → t.hatch.report = s.hatch.report

variable {W : Scope} {s t u : State}

theorem KeepsKeys.refl (q : List QueueEntry) : KeepsKeys q q := fun e he => ⟨e, he, rfl, rfl⟩

theorem QueueEntry.sameKey.trans {a b c : QueueEntry} (h : a.sameKey b) (g : b.sameKey c) : a.sameKey c :=
  ⟨h.1.trans g.1, h.2.trans g.2⟩

theorem Works.of_eq (hl : t.link = s.link) (he : t.host.executing = s.host.executing)
    (hd : t.device = s.device) (hn : t.nodes = s.nodes) (hp : t.notices = s.notices)
    (hc : t.hatch.contents = s.hatch.contents) (hr : t.hatch.report = s.hatch.report) : Works W s t where
  link := by rw [hl]
  executing := he
  device := by rw [hd]
  nodes := hn
  notices := fun _ _ => by rw [hp]
  keys := by rw [hl]; exact .refl _
  bound := fun d hd => .inl ⟨d, hl ▸ hd, rfl, rfl⟩
  contents := fun _ => hc
  report := fun _ => hr

theorem Works.refl : Works W s s := .of_eq rfl rfl rfl rfl rfl rfl rfl

theorem Works.trans (h : Works W s t) (g : Works W t u) : Works W s u where
  link := g.link.trans (congrArg (fun l : FieldLink => { l with queue := u.link.queue }) h.link)
  executing := g.executing.trans h.executing
  device := g.device.trans (congrArg (fun d : Device => { d with storeFault := u.device.storeFault }) h.device)
  nodes := g.nodes.trans h.nodes
  notices := fun k hk => (g.notices k hk).trans (h.notices k hk)
  keys := fun e he => by
    obtain ⟨d, hd, hk⟩ := h.keys e he
    obtain ⟨c, hc, hk'⟩ := g.keys d hd
    exact ⟨c, hc, hk'.trans hk⟩
  bound := fun c hc => by
    rcases g.bound c hc with ⟨d, hd, hk⟩ | hb
    · rcases h.bound d hd with ⟨e, he, hk'⟩ | hb
      · exact .inl ⟨e, he, hk.trans hk'⟩
      · exact .inr (by rw [hk.1]; exact hb)
    · exact .inr (by rw [← hb, State.node?, State.node?, h.nodes])
  contents := fun n => (g.contents n).trans (h.contents n)
  report := fun n => (g.report n).trans (h.report n)

/-- Work within a scope is work within a wider one. -/
theorem Works.widen {V : Scope} (h : Works V s t) (hf : V.fires → W.fires) (he : V.enters → W.enters)
    (hr : V.reports → W.reports) : Works W s t where
  link := h.link
  executing := h.executing
  device := h.device
  nodes := h.nodes
  notices := fun k hk => h.notices k (hk.imp id fun ⟨n, hk⟩ => ⟨fun f => n (hf f), hk⟩)
  keys := h.keys
  bound := h.bound
  contents := fun n => h.contents fun e => n (he e)
  report := fun n => h.report fun r => n (hr r)

section Blocks

theorem Works.custody (x : Custody) (h : Works W s u) : Works W s (u.withCustody x) :=
  h.trans (.of_eq rfl rfl rfl rfl rfl rfl rfl)

theorem Works.rack (x : Rack) (h : Works W s u) : Works W s (u.withRack x) :=
  h.trans (.of_eq rfl rfl rfl rfl rfl rfl rfl)

theorem Works.orders (x : Table Order) (h : Works W s u) : Works W s (u.withOrders x) :=
  h.trans (.of_eq rfl rfl rfl rfl rfl rfl rfl)

theorem Works.climate (x : Climate) (h : Works W s u) : Works W s (u.withClimate x) :=
  h.trans (.of_eq rfl rfl rfl rfl rfl rfl rfl)

theorem Works.handover (x : Handover) (h : Works W s u) : Works W s (u.withHandover x) :=
  h.trans (.of_eq rfl rfl rfl rfl rfl rfl rfl)

theorem Works.fire (x : Fire) (h : Works W s u) : Works W s (u.withFire x) :=
  h.trans (.of_eq rfl rfl rfl rfl rfl rfl rfl)

theorem Works.store (x : Store) (h : Works W s u) : Works W s (u.withStore x) :=
  h.trans (.of_eq rfl rfl rfl rfl rfl rfl rfl)

theorem Works.hatch (x : Hatch) (hc : x.contents = u.hatch.contents) (hr : x.report = u.hatch.report)
    (h : Works W s u) : Works W s (u.withHatch x) :=
  h.trans (.of_eq rfl rfl rfl rfl rfl hc hr)

/-- Where the reader is heard the contents list may change. -/
theorem Works.hatchEnters (he : W.enters) (x : Hatch) (hr : x.report = u.hatch.report) (h : Works W s u) :
    Works W s (u.withHatch x) :=
  h.trans ⟨rfl, rfl, rfl, rfl, fun _ _ => rfl, .refl _, fun d hd => .inl ⟨d, hd, rfl, rfl⟩, fun n => absurd he n,
    fun _ => hr⟩

/-- Where a report is taken the report held may change. -/
theorem Works.hatchReports (hr : W.reports) (x : Hatch) (hc : x.contents = u.hatch.contents) (h : Works W s u) :
    Works W s (u.withHatch x) :=
  h.trans ⟨rfl, rfl, rfl, rfl, fun _ _ => rfl, .refl _, fun d hd => .inl ⟨d, hd, rfl, rfl⟩, fun _ => hc,
    fun n => absurd hr n⟩

end Blocks

theorem Works.foldl {α : Type} {f : State → α → State} (l : List α)
    (hf : ∀ a t, Works W s t → Works W s (f t a)) (h : Works W s u) : Works W s (l.foldl f u) := by
  induction l generalizing u with
  | nil => exact h
  | cons a l ih => exact ih (hf a u h)

/-! ## Notices and commands -/

/-- The notices that are not of the fire records, the nodes or the link. -/
def Notice.ofBlocks : Notice → Bool
  | .zoneFire .. | .alarmOut _ | .nodeHealth .. | .linkRate .. => false
  | .restarted .. | .orderState .. | .handoverState .. | .blockedChanged .. | .foreignLabel .. | .storeFault
  | .zoneClimate .. | .rackPosition .. | .hatchAir .. => true

theorem Notice.ofBlocks_rank {n : Notice} (h : n.ofBlocks = true) : 8 < n.rank ∧ n.rank < 52 := by
  cases n with
  | zoneFire | alarmOut | nodeHealth | linkRate => cases h
  | zoneClimate z => have := z.isLt; simp only [Notice.rank]; omega
  | rackPosition p => have := p.isLt; simp only [Notice.rank]; omega
  | _ => simp only [Notice.rank]; omega

theorem post_works {n : Notice} (hn : n.ofBlocks = true) (h : Works W s u) : Works W s (post n u) := by
  obtain ⟨hlow, hhigh⟩ := Notice.ofBlocks_rank hn
  refine h.trans ⟨rfl, rfl, rfl, rfl, fun k hk => post_other ?_ u, .refl _, fun d hd => .inl ⟨d, hd, rfl, rfl⟩,
    fun _ => rfl, fun _ => rfl⟩
  rintro rfl
  omega

theorem Table.get?_isSome {α : Type} {x : Table α} {p : Nat × α} (h : p ∈ x) : (x.get? p.1).isSome = true := by
  induction x with
  | nil => cases h
  | cons q x ih =>
    by_cases hq : q.1 = p.1
    · simp [Table.get?, hq]
    · have hx := (List.mem_cons.mp h).resolve_left fun e => hq (by rw [e])
      simpa [Table.get?, hq] using ih hx

theorem findNode_bound {g : Target} {i : Nat} (h : findNode s.nodes g = some i) : (s.node? i).isSome = true := by
  obtain ⟨p, hp, rfl⟩ := Option.map_eq_some_iff.mp h
  exact Table.get?_isSome (List.mem_of_find?_eq_some hp)

theorem postTo_keys (i : Nat) (cmd : CmdKind) (data : List Byte) (s : State) :
    KeepsKeys s.link.queue (postTo i cmd data s).link.queue := by
  intro e he
  by_cases hk : e.node = i ∧ e.cmd = cmd
  · exact ⟨⟨i, cmd, data, false⟩, List.mem_append_right _ List.mem_cons_self, hk.1.symm, hk.2.symm⟩
  · refine ⟨e, List.mem_append_left _ (List.mem_filter.mpr ⟨he, ?_⟩), rfl, rfl⟩
    simpa [imp_iff_not_or] using hk

theorem postTo_bound {i : Nat} {cmd : CmdKind} {data : List Byte} (hi : (s.node? i).isSome = true) :
    ∀ d ∈ (postTo i cmd data s).link.queue,
      (∃ e ∈ s.link.queue, d.sameKey e) ∨ (s.node? d.node).isSome = true := by
  intro d hd
  rcases List.mem_append.mp hd with hd | hd
  · exact .inl ⟨d, (List.mem_filter.mp hd).1, rfl, rfl⟩
  · rw [List.mem_singleton.mp hd]
    exact .inr hi

theorem postCommand_works (g : Target) (cmd : CmdKind) (data : List Byte) (h : Works W s u) :
    Works W s (postCommand g cmd data u) := by
  unfold postCommand
  split
  · next i hi =>
    exact h.trans ⟨rfl, rfl, rfl, rfl, fun _ _ => rfl, postTo_keys _ _ _ u, postTo_bound (findNode_bound hi),
      fun _ => rfl, fun _ => rfl⟩
  · exact h

theorem faultStore_works (h : Works W s u) : Works W s (faultStore u) := by
  unfold faultStore
  split
  · exact h
  · exact post_works rfl (h.trans ⟨rfl, rfl, rfl, rfl, fun _ _ => rfl, .refl _, fun d hd => .inl ⟨d, hd, rfl, rfl⟩,
      fun _ => rfl, fun _ => rfl⟩)

theorem postMode_works (z : Fin 8) (h : Works W s u) : Works W s (postMode z u) := postCommand_works _ _ _ h

theorem postRelease_works (z : Fin 8) (h : Works W s u) : Works W s (postRelease z u) :=
  postCommand_works _ _ _ h

theorem postPrompt_works (p : Prompt) (arg : Nat) (h : Works W s u) : Works W s (postPrompt p arg u) :=
  postCommand_works _ _ _ h

theorem signalReject_works (h : Works W s u) : Works W s (signalReject u) := postCommand_works _ _ _ h

theorem afterWrite_works (fails : Bool) (h : Works W s u) : Works W s (afterWrite fails u) := by
  unfold afterWrite
  repeat' with_reducible first | assumption | apply faultStore_works | split

/-! ## The retained store -/

theorem writeRecord_works (i : Nat) (h : Works W s u) : Works W s (writeRecord i u) :=
  afterWrite_works _ (.store _ h)

theorem writeCourier_works (i : Nat) (h : Works W s u) : Works W s (writeCourier i u) :=
  afterWrite_works _ (.store _ h)

theorem putRecord_works (i : Nat) (r : Record) (h : Works W s u) : Works W s (putRecord i r u) := by
  unfold putRecord
  dsimp only
  repeat' with_reducible first | assumption | apply Works.custody

theorem setNewest_works (n : Option Nat) (h : Works W s u) : Works W s (setNewest n u) := by
  unfold setNewest
  dsimp only
  repeat' with_reducible first | assumption | apply Works.custody

theorem blockedNote_works (quiet : Bool) (i : Nat) (before after : CState) (h : Works W s u) :
    Works W s (blockedNote quiet i before after u) := by
  unfold blockedNote
  dsimp only
  repeat' with_reducible first | assumption | apply setNewest_works | refine post_works rfl ?_ | split

theorem basicChange_works (quiet : Bool) (i : Nat) (new : Record) (h : Works W s u) :
    Works W s (basicChange quiet i new u) := by
  unfold basicChange
  repeat' with_reducible first
    | assumption | apply blockedNote_works | apply writeRecord_works | apply putRecord_works | split

theorem dropOrderSlot_works (i : Nat) (h : Works W s u) : Works W s (dropOrderSlot i u) := by
  unfold dropOrderSlot
  repeat' with_reducible first | assumption | apply writeRecord_works | apply putRecord_works | split

/-! ## Records -/

theorem setPosition_works (p : Fin 12) (x : Position) (h : Works W s u) : Works W s (setPosition p x u) := by
  unfold setPosition
  dsimp only
  repeat' with_reducible first | assumption | apply Works.rack

theorem postRack_works (p : Fin 12) (event : RackEvent) (item : Option Occupant) (h : Works W s u) :
    Works W s (postRack p event item u) := by
  unfold postRack
  dsimp only
  repeat' with_reducible first | assumption | refine post_works rfl ?_

theorem emptyPosition_works (p : Fin 12) (h : Works W s u) : Works W s (emptyPosition p u) := by
  unfold emptyPosition
  dsimp only
  repeat' with_reducible first | assumption | apply postRack_works | apply setPosition_works | split

theorem rackTold_works (i : Nat) (old : Record) (h : Works W s u) : Works W s (rackTold i old u) := by
  unfold rackTold
  dsimp only
  repeat' with_reducible first
    | assumption | apply emptyPosition_works | apply postRack_works | apply setPosition_works | split

theorem putContext_works (c : Nat) (x : Context) (h : Works W s u) : Works W s (putContext c x u) := by
  unfold putContext
  dsimp only
  repeat' with_reducible first | assumption | apply Works.handover

theorem manifestPrompt_works (c : Nat) (h : Works W s u) : Works W s (manifestPrompt c u) := by
  unfold manifestPrompt
  repeat' with_reducible first | assumption | apply postPrompt_works | split

theorem dropManifest_works (c i : Nat) (h : Works W s u) : Works W s (dropManifest c i u) := by
  unfold dropManifest
  repeat' with_reducible first | assumption | apply putContext_works | split

theorem handoverTold_works (i : Nat) (old : Record) (h : Works W s u) : Works W s (handoverTold i old u) := by
  unfold handoverTold
  repeat' with_reducible first
    | assumption | apply manifestPrompt_works | apply dropManifest_works | apply Works.foldl | split | intro

theorem expose_works (i : Nat) (h : Works W s u) : Works W s (expose i u) := by
  unfold expose
  repeat' with_reducible first | assumption | apply writeRecord_works | apply putRecord_works | split

theorem climateTold_works (i : Nat) (old : Option Location) (h : Works W s u) :
    Works W s (climateTold i old u) := by
  unfold climateTold
  repeat' with_reducible first | assumption | apply expose_works | split

theorem tellOthers_works (who : Claimant) (i : Nat) (old : Record) (h : Works W s u) :
    Works W s (tellOthers who i old u) := by
  unfold tellOthers
  dsimp only
  repeat' with_reducible first
    | assumption | apply handoverTold_works | apply rackTold_works | apply climateTold_works | split

/-! ## Orders -/

theorem putOrder_works (k : Nat) (o : Order) (h : Works W s u) : Works W s (putOrder k o u) := by
  unfold putOrder
  repeat' with_reducible first | assumption | apply Works.orders

theorem postOrder_works (k : Nat) (h : Works W s u) : Works W s (postOrder k u) := by
  unfold postOrder
  repeat' with_reducible first | assumption | refine post_works rfl ?_ | split

theorem evaluateOrder_works (k : Nat) (h : Works W s u) : Works W s (evaluateOrder k u) := by
  unfold evaluateOrder
  repeat' with_reducible first | assumption | apply postOrder_works | apply putOrder_works | split

theorem releaseEntry_works (i : Nat) (h : Works W s u) : Works W s (releaseEntry i u) := by
  unfold releaseEntry
  repeat' with_reducible first
    | assumption | apply tellOthers_works | apply basicChange_works | apply dropOrderSlot_works | split

theorem finishOrder_works (k : Nat) (outcome : OOutcome) (h : Works W s u) :
    Works W s (finishOrder k outcome u) := by
  unfold finishOrder
  repeat' with_reducible first
    | assumption | apply postOrder_works | apply releaseEntry_works | apply putOrder_works | apply Works.foldl
    | split | intro

theorem markHanded_works (k i : Nat) (h : Works W s u) : Works W s (markHanded k i u) := by
  unfold markHanded
  repeat' with_reducible first
    | assumption | apply postOrder_works | apply dropOrderSlot_works | apply putOrder_works | split

theorem orderTold_works (who : Claimant) (i : Nat) (h : Works W s u) : Works W s (orderTold who i u) := by
  unfold orderTold
  repeat' with_reducible first
    | assumption | apply evaluateOrder_works | apply postOrder_works | apply putOrder_works
    | apply markHanded_works | apply finishOrder_works | split

theorem changeRecord_works (who : Claimant) (quiet : Bool) (i : Nat) (new : Record) (h : Works W s u) :
    Works W s (changeRecord who quiet i new u) := by
  unfold changeRecord
  dsimp only
  repeat' with_reducible first
    | assumption | apply basicChange_works | apply orderTold_works | apply tellOthers_works | split

theorem claim_works (who : Claimant) (i : Nat) (expected : Record → Bool) (new : Record → Record)
    (h : Works W s u) :
    Works W s (claim who i expected new u) := by
  unfold claim
  repeat' with_reducible first | assumption | apply changeRecord_works | split

theorem markMissing_works (who : Claimant) (i : Nat) (h : Works W s u) : Works W s (markMissing who i u) := by
  unfold markMissing
  repeat' with_reducible first | assumption | apply claim_works

theorem quarantine_works (z : Fin 8) (h : Works W s u) : Works W s (quarantine z u) := by
  unfold quarantine
  dsimp only
  repeat' with_reducible first
    | assumption | apply changeRecord_works | apply setNewest_works | refine post_works rfl ?_
    | apply Works.foldl | split | intro

theorem ordersContextEnded_works (c : Nat) (h : Works W s u) : Works W s (ordersContextEnded c u) := by
  unfold ordersContextEnded
  repeat' with_reducible first
    | assumption | apply finishOrder_works | apply postOrder_works | apply putOrder_works | apply Works.foldl
    | split | intro

theorem ordersFailFire_works (z : Fin 8) (h : Works W s u) : Works W s (ordersFailFire z u) := by
  unfold ordersFailFire
  repeat' with_reducible first | assumption | apply finishOrder_works | apply Works.foldl | split | intro

/-! ## Shelves and the rack -/

theorem shelfDepart_works (i : Nat) (h : Works W s u) : Works W s (shelfDepart i u) := by
  unfold shelfDepart
  repeat' with_reducible first | assumption | apply claim_works

theorem shelfRemoved_works (n : Nat) (h : Works W s u) : Works W s (shelfRemoved n u) := by
  unfold shelfRemoved
  repeat' with_reducible first | assumption | apply shelfDepart_works | split

theorem leavePosition_works (i : Nat) (p : Fin 12) (h : Works W s u) : Works W s (leavePosition i p u) := by
  unfold leavePosition
  repeat' with_reducible first | assumption | apply emptyPosition_works | apply postRack_works | split

theorem rackDepart_works (i : Nat) (p : Fin 12) (h : Works W s u) : Works W s (rackDepart i p u) := by
  unfold rackDepart
  dsimp only
  repeat' with_reducible first | assumption | apply leavePosition_works | apply claim_works

theorem rackRemoved_works (p : Fin 12) (h : Works W s u) : Works W s (rackRemoved p u) := by
  unfold rackRemoved
  repeat' with_reducible first | assumption | apply emptyPosition_works | apply rackDepart_works | split

theorem missedDeparture_works (i : Nat) (place : Location) (h : Works W s u) :
    Works W s (missedDeparture i place u) := by
  unfold missedDeparture
  repeat' with_reducible first | assumption | apply shelfDepart_works | apply rackDepart_works | split

theorem completeDwell_works (p : Fin 12) (h : Works W s u) : Works W s (completeDwell p u) := by
  unfold completeDwell
  dsimp only
  repeat' with_reducible first
    | assumption | apply setPosition_works | apply postRack_works | apply changeRecord_works | split

theorem startDwell_works (p : Fin 12) (i : Nat) (h : Works W s u) : Works W s (startDwell p i u) := by
  unfold startDwell
  dsimp only
  repeat' with_reducible first
    | assumption | apply postRack_works | apply setPosition_works | apply completeDwell_works | split

theorem pausePosition_works (paused : Bool) (p : Fin 12) (h : Works W s u) :
    Works W s (pausePosition paused p u) := by
  unfold pausePosition
  dsimp only
  repeat' with_reducible first
    | assumption | apply postRack_works | apply setPosition_works | apply completeDwell_works | split

theorem updateRackPause_works (h : Works W s u) : Works W s (updateRackPause u) := by
  unfold updateRackPause
  dsimp only
  repeat' with_reducible first
    | assumption | apply pausePosition_works | apply Works.rack | apply Works.foldl | split | intro

theorem takeIntoRack_works (i : Nat) (p : Fin 12) (h : Works W s u) : Works W s (takeIntoRack i p u) := by
  unfold takeIntoRack
  dsimp only
  repeat' with_reducible first
    | assumption | apply setPosition_works | apply claim_works | apply startDwell_works | apply postRack_works
    | split

theorem rackInserted_works (snapshot : Bool) (p : Fin 12) (l : Label) (h : Works W s u) :
    Works W s (rackInserted snapshot p l u) := by
  unfold rackInserted
  dsimp only
  repeat' with_reducible first
    | assumption | refine post_works rfl ?_ | apply postRack_works | apply setPosition_works
    | apply rackRemoved_works | apply takeIntoRack_works | apply missedDeparture_works | split

theorem rackUnshown_works (entries : List SnapEntry) (p : Fin 12) (h : Works W s u) :
    Works W s (rackUnshown entries p u) := by
  unfold rackUnshown
  dsimp only
  repeat' with_reducible first
    | assumption | apply markMissing_works | apply leavePosition_works | apply emptyPosition_works
    | apply Works.foldl | split | intro

theorem rackSnapshot_works (entries : List SnapEntry) (h : Works W s u) :
    Works W s (rackSnapshot entries u) := by
  unfold rackSnapshot
  dsimp only
  repeat' with_reducible first
    | assumption | apply rackInserted_works | apply rackUnshown_works | apply Works.foldl | split | intro

theorem shelfInserted_works (snapshot : Bool) (n : Nat) (l : Label) (h : Works W s u) :
    Works W s (shelfInserted snapshot n l u) := by
  unfold shelfInserted
  dsimp only
  repeat' with_reducible first
    | assumption | refine post_works rfl ?_ | apply missedDeparture_works | apply shelfDepart_works
    | apply claim_works | split

theorem hatchSighted_works (l : Label) (h : Works W s u) : Works W s (hatchSighted l u) := by
  unfold hatchSighted
  repeat' with_reducible first
    | assumption | refine post_works rfl ?_ | apply claim_works | apply missedDeparture_works | split

theorem hatchDeparted_works (l : Label) (h : Works W s u) : Works W s (hatchDeparted l u) := by
  unfold hatchDeparted
  repeat' with_reducible first | assumption | apply claim_works | split

theorem shelfSnapshot_works (base limit : Nat) (entries : List SnapEntry) (h : Works W s u) :
    Works W s (shelfSnapshot base limit entries u) := by
  unfold shelfSnapshot
  dsimp only
  repeat' with_reducible first
    | assumption | apply shelfInserted_works | apply markMissing_works | apply Works.foldl | split | intro

theorem hatchSnapshotUnowned_works (labels : List Label) (h : Works W s u) :
    Works W s (hatchSnapshotUnowned labels u) := by
  unfold hatchSnapshotUnowned
  dsimp only
  repeat' with_reducible first
    | assumption | apply hatchSighted_works | apply markMissing_works | apply Works.foldl | intro

/-! ## Climate -/

theorem setAir_works (z : Fin 9) (a : AirReading) (h : Works W s u) : Works W s (setAir z a u) := by
  unfold setAir
  dsimp only
  repeat' with_reducible first | assumption | apply Works.climate

theorem setZoneClimate_works (z : Fin 8) (c : ZoneClimate) (h : Works W s u) :
    Works W s (setZoneClimate z c u) := by
  unfold setZoneClimate
  dsimp only
  repeat' with_reducible first | assumption | apply Works.climate

theorem setProbe_works (i : Nat) (p : Option Probe) (h : Works W s u) : Works W s (setProbe i p u) := by
  unfold setProbe
  dsimp only
  repeat' with_reducible first | assumption | apply Works.climate

theorem postZoneClimate_works (z : Fin 8) (h : Works W s u) : Works W s (postZoneClimate z u) := by
  unfold postZoneClimate
  repeat' with_reducible first | assumption | refine post_works rfl ?_

theorem takeZoneClimate_works (z : Fin 8) (new : ZoneClimate) (passed : Bool) (h : Works W s u) :
    Works W s (takeZoneClimate z new passed u) := by
  unfold takeZoneClimate
  dsimp only
  repeat' with_reducible first
    | assumption | apply setZoneClimate_works | apply postMode_works | apply postZoneClimate_works
    | apply updateRackPause_works | split

theorem evaluateZone_works (z : Fin 8) (passed : Bool) (h : Works W s u) :
    Works W s (evaluateZone z passed u) := takeZoneClimate_works _ _ _ h

theorem refreshReading_works (z : Fin 9) (h : Works W s u) : Works W s (refreshReading z u) := by
  unfold refreshReading
  dsimp only
  repeat' with_reducible first | assumption | apply setAir_works | apply evaluateZone_works | split

theorem setDisagree_works (z : Fin 9) (flag : Bool) (h : Works W s u) : Works W s (setDisagree z flag u) := by
  unfold setDisagree
  dsimp only
  repeat' with_reducible first
    | assumption | apply refreshReading_works | apply setAir_works | apply postZoneClimate_works | split

theorem resetAgreement_works (z : Fin 9) (h : Works W s u) : Works W s (resetAgreement z u) := by
  unfold resetAgreement
  dsimp only
  repeat' with_reducible first | assumption | apply setDisagree_works | apply setAir_works

theorem takeSample_works (z : Fin 9) (i : Nat) (h : Works W s u) : Works W s (takeSample z i u) := by
  unfold takeSample
  dsimp only
  repeat' with_reducible first | assumption | apply setAir_works | apply setDisagree_works | split

theorem takeProbe_works (i : Nat) (z : Fin 9) (r : ProbeReport) (h : Works W s u) :
    Works W s (takeProbe i z r u) := by
  unfold takeProbe
  repeat' with_reducible first
    | assumption | apply takeSample_works | apply refreshReading_works | apply setProbe_works

theorem takeAir_works (z : Fin 8) (mode : AirMode) (carried : Nat) (h : Works W s u) :
    Works W s (takeAir z mode carried u) := by
  unfold takeAir
  repeat' with_reducible first | assumption | apply postMode_works | split

theorem takeControl_works (z : Fin 8) (c : Control) (h : Works W s u) : Works W s (takeControl z c u) := by
  unfold takeControl
  dsimp only
  repeat' with_reducible first
    | assumption | apply postZoneClimate_works | apply postMode_works | apply setZoneClimate_works

theorem climateFireTold_works (z : Fin 8) (old new : FireState) (h : Works W s u) :
    Works W s (climateFireTold z old new u) := by
  unfold climateFireTold
  dsimp only
  repeat' with_reducible first | assumption | apply takeControl_works | split

end Sys2Proof.Machine
end

section
/-! SUPPORT. The work of the blocks, continued: the hatch and the handovers. -/

namespace Sys2Proof.Machine

variable {W : Scope} {s t u : State}

/-! ## Locks and air -/

theorem commandRoom_works (l : Lock) (h : Works W s u) : Works W s (commandRoom l u) := by
  unfold commandRoom
  split
  · exact h
  · exact postCommand_works _ _ _ (.hatch _ rfl rfl h)

theorem commandStore_works (l : Lock) (h : Works W s u) : Works W s (commandStore l u) := by
  unfold commandStore
  split
  · exact h
  · exact postCommand_works _ _ _ (.hatch _ rfl rfl h)

theorem commandExit_works (l : Lock) (h : Works W s u) : Works W s (commandExit l u) := by
  unfold commandExit
  split
  · exact h
  · exact postCommand_works _ _ _ (.hatch _ rfl rfl h)

theorem commandAll_works (l room store exit : Lock) (h : Works W s u) :
    Works W s (commandAll l room store exit u) := by
  unfold commandAll
  dsimp only
  repeat' with_reducible first
    | assumption | apply commandExit_works | apply commandRoom_works | apply commandStore_works | split

theorem updateLocks_works (h : Works W s u) : Works W s (updateLocks u) :=
  commandAll_works _ _ _ _ (commandAll_works _ _ _ _ h)

theorem updateExit_works (h : Works W s u) : Works W s (updateExit u) := commandExit_works _ h

theorem commandPurge_works (p : PurgeCmd) (h : Works W s u) : Works W s (commandPurge p u) := by
  unfold commandPurge
  split
  · exact h
  · exact postCommand_works _ _ _ (.hatch _ rfl rfl h)

theorem postHatchCommands_works (h : Works W s u) : Works W s (postHatchCommands u) :=
  postCommand_works _ _ _ (postCommand_works _ _ _ (postCommand_works _ _ _ (postCommand_works _ _ _ h)))

theorem postHatchAir_works (e : HatchEvent) (h : Works W s u) : Works W s (postHatchAir e u) := by
  unfold postHatchAir
  repeat' with_reducible first | assumption | refine post_works rfl ?_

theorem updateWetDwell_works (h : Works W s u) : Works W s (updateWetDwell u) := by
  unfold updateWetDwell
  dsimp only
  repeat' first
    | with_reducible first
      | assumption | split
    | refine .hatch _ rfl rfl ?_

theorem setHatchAir_works (a : Air) (e : HatchEvent) (h : Works W s u) : Works W s (setHatchAir a e u) :=
  updateWetDwell_works (postHatchAir_works e (updateLocks_works (.hatch _ rfl rfl h)))

/-! ## Phases -/

theorem postHandover_works (c : Nat) (h : Works W s u) : Works W s (postHandover c u) := by
  unfold postHandover
  repeat' with_reducible first | assumption | refine post_works rfl ?_ | split

theorem promptClosed_works (c : Nat) (h : Works W s u) : Works W s (promptClosed c u) := by
  unfold promptClosed
  repeat' with_reducible first | assumption | apply postPrompt_works | split

theorem setPhase_works (c : Nat) (ph : Phase) (h : Works W s u) : Works W s (setPhase c ph u) := by
  unfold setPhase
  repeat' with_reducible first | assumption | apply postHandover_works | apply putContext_works | split

theorem promptRemove_works (c : Nat) (h : Works W s u) : Works W s (promptRemove c u) := by
  unfold promptRemove
  repeat' with_reducible first | assumption | apply postPrompt_works | split

theorem blockedToHatch_works (c : Nat) (l : Label) (h : Works W s u) : Works W s (blockedToHatch c l u) := by
  unfold blockedToHatch
  repeat' with_reducible first | assumption | apply claim_works | split

theorem grantContext_works (c : Nat) (h : Works W s u) : Works W s (grantContext c u) := by
  unfold grantContext
  dsimp only
  repeat' first
    | (with_reducible first
      | assumption | apply putContext_works | apply manifestPrompt_works | apply updateLocks_works | apply
      setPhase_works | apply blockedToHatch_works | apply promptRemove_works | apply signalReject_works |
      apply Works.foldl | split | intro)
    | refine .hatch _ rfl rfl ?_

theorem startPurge_works (h : Works W s u) : Works W s (startPurge u) := by
  unfold startPurge
  dsimp only
  repeat' first
    | with_reducible first
      | assumption | apply postHatchAir_works | apply updateLocks_works | apply commandPurge_works | split
    | refine .hatch _ rfl rfl ?_

theorem grantEval_works (h : Works W s u) : Works W s (grantEval u) := by
  unfold grantEval
  repeat' with_reducible first | assumption | apply startPurge_works | apply grantContext_works | split

theorem leaveHatch_works (c : Nat) (h : Works W s u) : Works W s (leaveHatch c u) := by
  unfold leaveHatch
  dsimp only
  repeat' first
    | with_reducible first
      | assumption | apply grantEval_works | apply updateLocks_works | split
    | refine .hatch _ rfl rfl ?_

theorem promptEnd_works (c : Nat) (o : HOutcome) (h : Works W s u) : Works W s (promptEnd c o u) := by
  unfold promptEnd
  repeat' with_reducible first | assumption | apply postPrompt_works | split

theorem endContext_works (c : Nat) (o : HOutcome) (h : Works W s u) : Works W s (endContext c o u) := by
  unfold endContext
  dsimp only
  repeat' with_reducible first
    | assumption | apply putContext_works | apply promptEnd_works | apply postHandover_works
    | apply ordersContextEnded_works | apply leaveHatch_works | apply updateExit_works | split

theorem enterPhase_works (c : Nat) (ph : Phase) (h : Works W s u) : Works W s (enterPhase c ph u) := by
  unfold enterPhase
  dsimp only
  repeat' with_reducible first
    | assumption | apply updateLocks_works | apply setPhase_works | apply grantEval_works | split

theorem testUnloading_works (c : Nat) (h : Works W s u) : Works W s (testUnloading c u) := by
  unfold testUnloading
  repeat' with_reducible first | assumption | apply endContext_works | split

theorem testWaitDry_works (c : Nat) (h : Works W s u) : Works W s (testWaitDry c u) := by
  unfold testWaitDry
  repeat' with_reducible first | assumption | apply testUnloading_works | apply enterPhase_works | split

theorem enterWaitDry_works (accepted : Bool) (c : Nat) (h : Works W s u) :
    Works W s (enterWaitDry accepted c u) := by
  unfold enterWaitDry
  dsimp only
  repeat' with_reducible first
    | assumption | apply setPhase_works | apply updateLocks_works | apply promptClosed_works
    | apply testWaitDry_works | apply grantEval_works | split

theorem resolveManifest_works (c : Nat) (pick : ManifestEntry → Bool)
    (new : ManifestEntry → Record → Record) (h : Works W s u) :
    Works W s (resolveManifest c pick new u) := by
  unfold resolveManifest
  repeat' with_reducible first
    | assumption | apply claim_works | apply dropManifest_works | apply Works.foldl | split | intro

theorem resolveTaken_works (c : Nat) (x : Context) (h : Works W s u) : Works W s (resolveTaken c x u) :=
  resolveManifest_works _ _ _ h

theorem testRecall_works (c : Nat) (h : Works W s u) : Works W s (testRecall c u) := by
  unfold testRecall
  repeat' with_reducible first | assumption | apply enterWaitDry_works | apply resolveTaken_works | split

theorem testRecallReturn_works (c : Nat) (h : Works W s u) : Works W s (testRecallReturn c u) := by
  unfold testRecallReturn
  repeat' with_reducible first | assumption | apply endContext_works | apply enterWaitDry_works | split

theorem testPhase_works (c : Nat) (h : Works W s u) : Works W s (testPhase c u) := by
  unfold testPhase
  repeat' with_reducible first
    | assumption | apply testWaitDry_works | apply testUnloading_works | apply testRecall_works
    | apply testRecallReturn_works | split

theorem testOwner_works (h : Works W s u) : Works W s (testOwner u) := by
  unfold testOwner
  repeat' with_reducible first | assumption | apply testPhase_works | split

theorem returnHatch_works (h : Works W s u) : Works W s (returnHatch u) := by
  unfold returnHatch
  dsimp only
  repeat' first
    | with_reducible first
      | assumption | apply grantEval_works | apply testOwner_works | apply updateLocks_works | split
    | refine .hatch _ rfl rfl ?_

/-! ## Purges and the hatch report -/

theorem stopRun_works (h : Works W s u) : Works W s (stopRun u) := by
  unfold stopRun
  dsimp only
  repeat' first
    | with_reducible first
      | assumption | apply commandPurge_works
    | refine .hatch _ rfl rfl ?_

theorem purgeComplete_works (h : Works W s u) : Works W s (purgeComplete u) := by
  unfold purgeComplete
  repeat' with_reducible first
    | assumption | apply returnHatch_works | apply setHatchAir_works | apply stopRun_works

theorem purgeFail_works (h : Works W s u) : Works W s (purgeFail u) := by
  unfold purgeFail
  dsimp only
  repeat' first
    | with_reducible first
      | assumption | apply stopRun_works | apply returnHatch_works | apply postHatchAir_works
    | refine .hatch _ rfl rfl ?_

theorem repost_works (cmd : CmdKind) (commanded reported : Nat) (h : Works W s u) :
    Works W s (repost cmd commanded reported u) := by
  unfold repost
  repeat' with_reducible first | assumption | apply postCommand_works | split

theorem checkCommanded_works (code : Nat) (r : HatchReport) (h : Works W s u) :
    Works W s (checkCommanded code r u) := by
  unfold checkCommanded
  repeat' with_reducible first | assumption | apply repost_works | split

theorem doorTold_works (c : Nat) (roomBefore storeBefore : Door) (h : Works W s u) :
    Works W s (doorTold c roomBefore storeBefore u) := by
  unfold doorTold
  repeat' with_reducible first
    | assumption | apply signalReject_works | apply manifestPrompt_works | apply enterPhase_works
    | apply endContext_works | apply testPhase_works | split

theorem ownerDoors_works (owner : Owner) (roomBefore storeBefore : Door) (h : Works W s u) :
    Works W s (ownerDoors owner roomBefore storeBefore u) := by
  unfold ownerDoors
  repeat' with_reducible first | assumption | apply doorTold_works | split

theorem purgeReport_works (h : Works W s u) : Works W s (purgeReport u) := by
  unfold purgeReport
  dsimp only
  repeat' first
    | with_reducible first
      | assumption | apply purgeFail_works | apply purgeComplete_works | split
    | refine .hatch _ rfl rfl ?_

theorem takeHatch_works (hr : W.reports) (r : HatchReport) (code : Nat) (h : Works W s u) :
    Works W s (takeHatch r code u) := by
  unfold takeHatch
  dsimp only
  repeat' first
    | with_reducible first
      | assumption | apply setHatchAir_works | apply checkCommanded_works | apply updateLocks_works | apply
      ownerDoors_works | apply purgeReport_works | apply grantEval_works | split
    | refine .hatch _ rfl rfl ?_ | refine .hatchReports hr _ rfl ?_

theorem bindHatch_works (hr : W.reports) (h : Works W s u) : Works W s (bindHatch u) := by
  unfold bindHatch
  dsimp only
  repeat' first
    | with_reducible first
      | assumption | apply setHatchAir_works | apply grantEval_works | apply postHatchCommands_works | apply
      updateLocks_works | split
    | refine .hatch _ rfl rfl ?_ | refine .hatchReports hr _ rfl ?_

theorem unbindHatch_works (hr : W.reports) (h : Works W s u) : Works W s (unbindHatch u) := by
  unfold unbindHatch
  dsimp only
  repeat' first
    | with_reducible first
      | assumption
    | refine .hatch _ rfl rfl ?_ | refine .hatchReports hr _ rfl ?_

theorem hatchFireTold_works (z : Fin 8) (h : Works W s u) : Works W s (hatchFireTold z u) := by
  unfold hatchFireTold
  dsimp only
  repeat' first
    | with_reducible first
      | assumption | apply updateLocks_works | apply stopRun_works | apply grantEval_works | split
    | refine .hatch _ rfl rfl ?_

/-! ## Reader events -/

theorem markTaken_works (c i : Nat) (taken : Bool) (h : Works W s u) : Works W s (markTaken c i taken u) := by
  unfold markTaken
  repeat' with_reducible first | assumption | apply putContext_works | split

theorem addManifest_works (c i : Nat) (h : Works W s u) : Works W s (addManifest c i u) := by
  unfold addManifest
  repeat' with_reducible first | assumption | apply putContext_works | split

theorem addRejected_works (c : Nat) (l : Label) (h : Works W s u) : Works W s (addRejected c l u) := by
  unfold addRejected
  repeat' with_reducible first | assumption | apply putContext_works | split

theorem dropRejected_works (c : Nat) (l : Label) (h : Works W s u) : Works W s (dropRejected c l u) := by
  unfold dropRejected
  repeat' with_reducible first | assumption | apply putContext_works | split

theorem changePrompt_works (c : Nat) (h : Works W s u) : Works W s (changePrompt c u) := by
  unfold changePrompt
  repeat' with_reducible first | assumption | apply manifestPrompt_works | split

theorem setOutcome_works (c : Nat) (o : HOutcome) (h : Works W s u) : Works W s (setOutcome c o u) := by
  unfold setOutcome
  repeat' with_reducible first | assumption | apply putContext_works | split

theorem enteredFull_works (l : Label) (h : Works W s u) : Works W s (enteredFull l u) := by
  unfold enteredFull
  repeat' with_reducible first | assumption | apply hatchSighted_works | apply signalReject_works

theorem unnamedEntered_works (c : Nat) (l : Label) (h : Works W s u) : Works W s (unnamedEntered c l u) := by
  unfold unnamedEntered
  dsimp only
  repeat' with_reducible first
    | assumption | apply blockedToHatch_works | apply signalReject_works | apply addRejected_works
    | refine post_works rfl ?_ | apply promptRemove_works | apply enteredFull_works | split

theorem departHatch_works (c : Nat) (l : Label) (h : Works W s u) : Works W s (departHatch c l u) := by
  unfold departHatch
  repeat' with_reducible first | assumption | apply claim_works | split

theorem unnamedLeft_works (c : Nat) (l : Label) (h : Works W s u) : Works W s (unnamedLeft c l u) := by
  unfold unnamedLeft
  repeat' with_reducible first
    | assumption | apply departHatch_works | apply dropRejected_works | apply changePrompt_works
    | apply claim_works | apply dropManifest_works | split

theorem stage_works (c i : Nat) (h : Works W s u) : Works W s (stage c i u) := by
  unfold stage
  repeat' with_reducible first
    | assumption | apply changePrompt_works | apply addManifest_works | apply claim_works
    | apply missedDeparture_works

theorem enteredLoading_works (c : Nat) (x : Context) (l : Label) (h : Works W s u) :
    Works W s (enteredLoading c x l u) := by
  unfold enteredLoading
  repeat' with_reducible first
    | assumption | apply unnamedEntered_works | apply stage_works | apply enteredFull_works | split

theorem enteredLoadingIn_works (c : Nat) (x : Context) (l : Label) (h : Works W s u) :
    Works W s (enteredLoadingIn c x l u) := by
  unfold enteredLoadingIn
  repeat' with_reducible first
    | assumption | apply unnamedEntered_works | apply changePrompt_works | apply addManifest_works
    | apply claim_works | apply enteredFull_works | split

theorem putBack_works (c i : Nat) (h : Works W s u) : Works W s (putBack c i u) := by
  unfold putBack
  repeat' with_reducible first
    | assumption | apply changePrompt_works | apply claim_works | apply markTaken_works

theorem enteredTaken_works (c : Nat) (x : Context) (l : Label) (h : Works W s u) :
    Works W s (enteredTaken c x l u) := by
  unfold enteredTaken
  repeat' with_reducible first | assumption | apply putBack_works | apply unnamedEntered_works | split

theorem contextEntered_works (c : Nat) (l : Label) (h : Works W s u) : Works W s (contextEntered c l u) := by
  unfold contextEntered
  repeat' with_reducible first
    | assumption | apply enteredLoading_works | apply enteredLoadingIn_works | apply enteredTaken_works
    | apply testRecall_works | apply unnamedEntered_works | split

theorem takeOut_works (c i courier : Nat) (h : Works W s u) : Works W s (takeOut c i courier u) := by
  unfold takeOut
  repeat' with_reducible first
    | assumption | apply changePrompt_works | apply claim_works | apply markTaken_works

theorem leftManifest_works (c i : Nat) (new : Record → Record) (h : Works W s u) :
    Works W s (leftManifest c i new u) := by
  unfold leftManifest
  repeat' with_reducible first
    | assumption | apply changePrompt_works | apply claim_works | apply dropManifest_works

theorem leftEffect_works (c : Nat) (l : Label) (h : Works W s u) : Works W s (leftEffect c l u) := by
  unfold leftEffect
  repeat' with_reducible first
    | assumption | apply leftManifest_works | apply unnamedLeft_works | apply takeOut_works | split

theorem contextLeft_works (c : Nat) (l : Label) (h : Works W s u) : Works W s (contextLeft c l u) := by
  unfold contextLeft
  repeat' with_reducible first
    | assumption | apply testRecallReturn_works | apply testUnloading_works | apply leftEffect_works

theorem snapshotShown_works (c : Nat) (l : Label) (h : Works W s u) : Works W s (snapshotShown c l u) := by
  unfold snapshotShown
  repeat' with_reducible first | assumption | apply putBack_works | apply unnamedEntered_works | split

theorem contextSnapshot_works (c : Nat) (labels : List Label) (h : Works W s u) :
    Works W s (contextSnapshot c labels u) := by
  unfold contextSnapshot
  dsimp only
  repeat' with_reducible first
    | assumption | apply snapshotShown_works | apply leftEffect_works | apply testPhase_works
    | apply markMissing_works | apply Works.foldl | split | intro

theorem passEvent_works {f : Nat → State → State} {g : State → State}
    (hf : ∀ c u, Works W s u → Works W s (f c u)) (hg : ∀ u, Works W s u → Works W s (g u))
    (h : Works W s u) : Works W s (passEvent f g u) := by
  unfold passEvent
  split
  · exact hf _ _ h
  all_goals exact hg _ h

theorem hatchEntered_works (he : W.enters) (l : Label) (h : Works W s u) : Works W s (hatchEntered l u) :=
  grantEval_works (updateWetDwell_works
    (passEvent_works (fun c _ => contextEntered_works c l) (fun _ => hatchSighted_works l) (.hatchEnters he _ rfl h)))

theorem hatchLeft_works (he : W.enters) (l : Label) (h : Works W s u) : Works W s (hatchLeft l u) :=
  grantEval_works (updateWetDwell_works
    (passEvent_works (fun c _ => contextLeft_works c l) (fun _ => hatchDeparted_works l) (.hatchEnters he _ rfl h)))

theorem hatchSnapshot_works (he : W.enters) (labels : List Label) (h : Works W s u) : Works W s (hatchSnapshot labels u) :=
  grantEval_works (updateWetDwell_works
    (passEvent_works (fun c _ => contextSnapshot_works c labels) (fun _ => hatchSnapshotUnowned_works labels) (.hatchEnters he _ rfl h)))

/-! ## The terminal -/

theorem putCourier_works (i : Nat) (x : Courier) (h : Works W s u) : Works W s (putCourier i x u) := by
  unfold putCourier
  dsimp only
  repeat' with_reducible first | assumption | apply writeCourier_works | apply Works.handover

theorem changeCourier_works (i : Nat) (old new : Courier) (h : Works W s u) :
    Works W s (changeCourier i old new u) := by
  unfold changeCourier
  repeat' with_reducible first | assumption | apply putCourier_works | split

theorem openContext_works (c courier : Nat) (d : Direction) (h : Works W s u) :
    Works W s (openContext c courier d u) := by
  unfold openContext
  dsimp only
  repeat' first
    | with_reducible first
      | assumption | apply putContext_works | apply grantEval_works | apply postHandover_works | apply
      postPrompt_works
    | refine .hatch _ rfl rfl ?_

theorem tokenAccepted_works (x : Courier) (d : Direction) (h : Works W s u) :
    Works W s (tokenAccepted x d u) := by
  unfold tokenAccepted
  repeat' with_reducible first | assumption | apply postPrompt_works | apply openContext_works | split

theorem tokenWrong_works (i : Nat) (x : Courier) (h : Works W s u) : Works W s (tokenWrong i x u) := by
  unfold tokenWrong
  repeat' with_reducible first | assumption | apply postPrompt_works | apply putCourier_works | split

theorem takeToken_works (courier code direction : Nat) (h : Works W s u) :
    Works W s (takeToken courier code direction u) := by
  unfold takeToken
  repeat' with_reducible first
    | assumption | apply postPrompt_works | apply tokenWrong_works | apply tokenAccepted_works
    | apply changeCourier_works | split

theorem phasePrompt_works (c : Nat) (h : Works W s u) : Works W s (phasePrompt c u) := by
  unfold phasePrompt
  repeat' with_reducible first
    | assumption | apply postPrompt_works | apply promptClosed_works | apply manifestPrompt_works | split

theorem enterAwait_works (c : Nat) (h : Works W s u) : Works W s (enterAwait c u) := by
  unfold enterAwait
  dsimp only
  repeat' with_reducible first
    | assumption | apply postPrompt_works | apply updateLocks_works | apply setPhase_works
    | apply grantEval_works | split

theorem confirmRoomSide_works (c : Nat) (x : Context) (h : Works W s u) :
    Works W s (confirmRoomSide c x u) := by
  unfold confirmRoomSide
  repeat' with_reducible first
    | assumption | apply postPrompt_works | apply promptRemove_works | apply endContext_works
    | apply enterAwait_works | split

theorem takeConfirm_works (h : Works W s u) : Works W s (takeConfirm u) := by
  unfold takeConfirm
  repeat' with_reducible first | assumption | apply confirmRoomSide_works | apply phasePrompt_works | split

/-! ## Ways out of a phase -/

theorem abandonLoading_works (c : Nat) (o : HOutcome) (h : Works W s u) : Works W s (abandonLoading c o u) := by
  unfold abandonLoading
  repeat' with_reducible first
    | assumption | apply enterWaitDry_works | apply setOutcome_works | apply resolveManifest_works

theorem enterRecall_works (c : Nat) (o : HOutcome) (h : Works W s u) : Works W s (enterRecall c o u) := by
  unfold enterRecall
  repeat' with_reducible first
    | assumption | apply testRecall_works | apply manifestPrompt_works | apply enterPhase_works
    | apply setOutcome_works

theorem enterRecallReturn_works (c : Nat) (o : HOutcome) (h : Works W s u) :
    Works W s (enterRecallReturn c o u) := by
  unfold enterRecallReturn
  repeat' with_reducible first
    | assumption | apply testRecallReturn_works | apply manifestPrompt_works | apply enterPhase_works
    | apply setOutcome_works

theorem takeCancel_works (h : Works W s u) : Works W s (takeCancel u) := by
  unfold takeCancel
  repeat' with_reducible first
    | assumption | apply endContext_works | apply abandonLoading_works | apply enterRecall_works
    | apply enterRecallReturn_works | apply phasePrompt_works | split

end Sys2Proof.Machine
end

section
/-! SUPPORT. The work of the blocks, continued: the fire records, the reports and the bindings. -/

namespace Sys2Proof.Machine

variable {W : Scope} {s t u : State}

/-! ## Fire -/

theorem fireResolve_works (c : Nat) (x : Context) (h : Works W s u) : Works W s (fireResolve c x u) := by
  unfold fireResolve
  repeat' with_reducible first | assumption | apply resolveManifest_works | split

theorem fireAbortOne_works (c : Nat) (h : Works W s u) : Works W s (fireAbortOne c u) := by
  unfold fireAbortOne
  repeat' with_reducible first | assumption | apply endContext_works | apply fireResolve_works | split

theorem fireAbort_works (h : Works W s u) : Works W s (fireAbort u) :=
  fireAbortOne_works 1 (fireAbortOne_works 0 h)

theorem refuseFrame_executing (f : Frame) (st : Status) (s : State) :
    (refuseFrame f st s).host.executing = s.host.executing := by
  unfold refuseFrame
  split <;> rfl

theorem preempt_works (h : Works W s u) : Works W s (preempt u) := by
  refine h.trans ?_
  obtain ⟨x, hx⟩ : ∃ x, preempt u = u.withHost x := by
    unfold preempt refuseFrame
    split
    · exact ⟨u.host, rfl⟩
    · split <;> exact ⟨_, rfl⟩
  have executing : (preempt u).host.executing = u.host.executing := by
    unfold preempt
    split
    · rfl
    · exact refuseFrame_executing ..
  rw [hx] at executing ⊢
  exact .of_eq rfl executing rfl rfl rfl rfl rfl

theorem setZoneFire_works (z : Fin 8) (f : ZoneFire) (h : Works W s u) : Works W s (setZoneFire z f u) := by
  unfold setZoneFire
  dsimp only
  repeat' with_reducible first | assumption | apply Works.fire

theorem fireNotice_works {n : Notice} (hf : W.fires) (hn : n.rank ≤ 8) (h : Works W s u) :
    Works W s (post n u) := by
  refine h.trans ⟨rfl, rfl, rfl, rfl, fun k hk => post_other ?_ u, .refl _, fun d hd => .inl ⟨d, hd, rfl, rfl⟩,
    fun _ => rfl, fun _ => rfl⟩
  rintro rfl
  rcases hk with hk | ⟨hk, _⟩
  · omega
  · exact hk hf

theorem postZoneFire_works (hf : W.fires) (z : Fin 8) (h : Works W s u) : Works W s (postZoneFire z u) :=
  fireNotice_works hf (Nat.le_of_lt z.isLt) h

theorem updateAlarm_works (hf : W.fires) (h : Works W s u) : Works W s (updateAlarm u) := by
  unfold updateAlarm
  dsimp only
  split
  · exact h
  · exact fireNotice_works hf (Nat.le_refl 8) (.fire _ h)

theorem putFire_works (hf : W.fires) (z : Fin 8) (new : ZoneFire) (h : Works W s u) :
    Works W s (putFire z new u) := by
  unfold putFire
  dsimp only
  repeat' with_reducible first
    | assumption | apply setZoneFire_works | apply updateAlarm_works hf | apply postZoneFire_works hf | split

theorem tellFire_works (z : Fin 8) (old : FireState) (h : Works W s u) : Works W s (tellFire z old u) := by
  unfold tellFire
  repeat' with_reducible first
    | assumption | apply hatchFireTold_works | apply updateRackPause_works | apply climateFireTold_works

theorem changeFire_works (hf : W.fires) (z : Fin 8) (new : ZoneFire) (h : Works W s u) :
    Works W s (changeFire z new u) := by
  unfold changeFire
  dsimp only
  repeat' with_reducible first | assumption | apply putFire_works hf | apply tellFire_works | split

theorem countdownTest_works (hf : W.fires) (z : Fin 8) (h : Works W s u) : Works W s (countdownTest z u) := by
  unfold countdownTest
  dsimp only
  repeat' with_reducible first | assumption | apply changeFire_works hf | split

theorem confirm_works (hf : W.fires) (z : Fin 8) (f : ZoneFire) (h : Works W s u) :
    Works W s (confirm z f u) := by
  unfold confirm
  dsimp only
  repeat' with_reducible first
    | assumption | apply putFire_works hf | apply hatchFireTold_works | apply fireAbort_works
    | apply preempt_works | apply climateFireTold_works | apply updateRackPause_works
    | apply ordersFailFire_works

theorem confirmAndCount_works (hf : W.fires) (z : Fin 8) (f : ZoneFire) (h : Works W s u) :
    Works W s (confirmAndCount z f u) := by
  unfold confirmAndCount
  repeat' with_reducible first | assumption | apply countdownTest_works hf | apply confirm_works hf

theorem takeHeads_works (hf : W.fires) (z : Fin 8) (a b : Head) (h : Works W s u) :
    Works W s (takeHeads z a b u) := by
  unfold takeHeads
  dsimp only
  repeat' with_reducible first
    | assumption | apply confirmAndCount_works hf | apply putFire_works hf | apply changeFire_works hf | split

theorem takeHold_works (hf : W.fires) (z : Fin 8) (hold : Hold) (h : Works W s u) :
    Works W s (takeHold z hold u) := by
  unfold takeHold
  dsimp only
  repeat' with_reducible first
    | assumption | apply countdownTest_works hf | apply putFire_works hf | apply changeFire_works hf | split

theorem discharge_works (hf : W.fires) (z : Fin 8) (h : Works W s u) : Works W s (discharge z u) := by
  unfold discharge
  dsimp only
  repeat' with_reducible first
    | assumption | apply confirm_works hf | apply changeFire_works hf | apply quarantine_works | split

theorem releaseAgain_works (z : Fin 8) (v : Valve) (code : Nat) (h : Works W s u) :
    Works W s (releaseAgain z v code u) := by
  unfold releaseAgain
  repeat' with_reducible first | assumption | apply postRelease_works | split

theorem takeValve_works (hf : W.fires) (z : Fin 8) (v : Valve) (code : Nat) (h : Works W s u) :
    Works W s (takeValve z v code u) := by
  unfold takeValve
  dsimp only
  repeat' with_reducible first
    | assumption | apply setZoneFire_works | apply discharge_works hf | apply releaseAgain_works | split

theorem takeFire_works (hf : W.fires) (z : Fin 8) (a b : Head) (hold : Hold) (v : Valve) (code : Nat)
    (h : Works W s u) :
    Works W s (takeFire z a b hold v code u) := by
  unfold takeFire
  repeat' with_reducible first
    | assumption | apply takeValve_works hf | apply takeHold_works hf | apply takeHeads_works hf

theorem setEquipmentLost_works (hf : W.fires) (z : Fin 8) (lost : Bool) (h : Works W s u) :
    Works W s (setEquipmentLost z lost u) := putFire_works hf _ _ h

theorem unboundFire_works (hf : W.fires) (z : Fin 8) (h : Works W s u) : Works W s (unboundFire z u) :=
  putFire_works hf _ _ h

theorem countdownExpired_works (hf : W.fires) (z : Fin 8) (h : Works W s u) :
    Works W s (countdownExpired z u) := by
  unfold countdownExpired
  dsimp only
  repeat' with_reducible first | assumption | apply changeFire_works hf | apply postRelease_works | split

theorem returnToNormal_works (hf : W.fires) (z : Fin 8) (h : Works W s u) : Works W s (returnToNormal z u) := by
  unfold returnToNormal
  dsimp only
  repeat' with_reducible first | assumption | apply changeFire_works hf

theorem acknowledge_works (hf : W.fires) (z : Fin 8) (h : Works W s u) : Works W s (acknowledge z u) :=
  putFire_works hf _ _ h

theorem armedChanged_works (hf : W.fires) (z : Fin 8) (h : Works W s u) : Works W s (armedChanged z u) := by
  unfold armedChanged
  dsimp only
  repeat' with_reducible first | assumption | apply countdownTest_works hf | apply changeFire_works hf | split

/-! ## Reports and bindings -/

theorem handState_works (hf : W.fires) (hr : W.reports) (i : Nat) (n : Node) (code : Nat) (st : NodeState)
    (h : Works W s u) :
    Works W s (handState i n code st u) := by
  unfold handState
  repeat' with_reducible first
    | assumption | apply takeProbe_works | apply takeFire_works hf | apply takeAir_works
    | apply takeHatch_works hr | apply refreshReading_works | split

theorem handEvent_works (he : W.enters) (target : Target) (e : FieldEvent) (h : Works W s u) :
    Works W s (handEvent target e u) := by
  cases target <;> cases e <;> dsimp only [handEvent] <;> repeat' with_reducible first
    | assumption | apply shelfInserted_works | apply shelfRemoved_works | apply rackInserted_works
    | apply rackRemoved_works | apply hatchEntered_works he | apply hatchLeft_works he | apply takeToken_works
    | apply takeConfirm_works | apply takeCancel_works | split

theorem handSnapshot_works (he : W.enters) (target : Target) (es : List SnapEntry) (h : Works W s u) :
    Works W s (handSnapshot target es u) := by
  unfold handSnapshot
  repeat' with_reducible first
    | assumption | apply shelfSnapshot_works | apply rackSnapshot_works | apply hatchSnapshot_works he | split

theorem bindTold_works (hf : W.fires) (hr : W.reports) (i : Nat) (t : Target) (h : Works W s u) :
    Works W s (bindTold i t u) := by
  unfold bindTold
  repeat' with_reducible first
    | assumption | apply refreshReading_works | apply resetAgreement_works | apply setProbe_works
    | apply unboundFire_works hf | apply postMode_works | apply bindHatch_works hr | split

theorem unbindTold_works (hf : W.fires) (hr : W.reports) (i : Nat) (t : Target) (h : Works W s u) :
    Works W s (unbindTold i t u) := by
  unfold unbindTold
  repeat' with_reducible first
    | assumption | apply refreshReading_works | apply resetAgreement_works | apply setProbe_works
    | apply unboundFire_works hf | apply unbindHatch_works hr | split

end Sys2Proof.Machine
end

section
/-! The end of a transaction and the field link's choice (R31 to R45): what each of them leaves of the link, and
FORWARD, which holds execution until its transaction ends (R43, R44). -/

namespace Sys2Proof.Machine

variable {s t u : State} {i : Nat} {n : Node} {x : Transaction}

/-! ## What a choice leaves -/

/-- What of the field link no choice of the arbiter changes: the rate, the pending broadcast, the window and the
forward slot. -/
def FieldLink.steady (l : FieldLink) : Fin 4 × Option Broadcast × Nat × Nat × Nat × Option Forward :=
  (l.rate, l.pendingBroadcast, l.transactions, l.errors, l.windowLength, l.forward)

theorem beginAddressed_steady (i : Nat) (o : Origin) (code : Nat) (data : List Byte) (s : State) :
    (beginAddressed i o code data s).link.steady = s.link.steady := by
  unfold beginAddressed
  split
  · rfl
  · dsimp only
    split <;> split <;> rfl

theorem routinePoll_steady (i : Nat) (s : State) : (routinePoll i s).link.steady = s.link.steady := by
  unfold routinePoll
  split
  · rfl
  · split
    · split <;> exact beginAddressed_steady ..
    · split <;> exact beginAddressed_steady ..

theorem cursorPoll_steady (s : State) : (cursorPoll s).link.steady = s.link.steady := by
  unfold cursorPoll
  split
  · rfl
  · exact routinePoll_steady ..

theorem chooseRoutine_steady (s : State) : (chooseRoutine s).link.steady = s.link.steady := by
  unfold chooseRoutine
  split
  · split
    · exact cursorPoll_steady s
    · dsimp only
      split
      · exact routinePoll_steady ..
      · exact cursorPoll_steady ..
  · exact cursorPoll_steady s

theorem chooseWork_steady (s : State) : (chooseWork s).link.steady = s.link.steady := by
  unfold chooseWork
  split
  · exact beginAddressed_steady ..
  · exact beginAddressed_steady ..
  · exact beginAddressed_steady ..
  · exact beginAddressed_steady ..
  · exact beginAddressed_steady ..
  · exact chooseRoutine_steady s

theorem chooseTransaction_steady (found : Option Nat) (s : State) :
    (chooseTransaction found s).link.steady = s.link.steady := by
  unfold chooseTransaction
  split
  · rfl
  · split
    · exact chooseWork_steady s
    · split
      · exact chooseWork_steady s
      · split
        · exact beginAddressed_steady ..
        · exact chooseWork_steady s

theorem chooseTransaction_link (found : Option Nat) (s : State) :
    Moves .linkOnly s (chooseTransaction found s) := chooseTransaction_moves found .refl trivial

theorem countTransaction_link (counted missed : Bool) (s : State) :
    Moves .linkOnly s (countTransaction counted missed s) := countTransaction_moves counted missed .refl trivial

theorem countTransaction_forward (counted missed : Bool) (s : State) :
    (countTransaction counted missed s).link.forward = s.link.forward := by
  unfold countTransaction
  split
  · dsimp only
    split <;> rfl
  · rfl

/-- The end of a transaction: its count, and the next choice. -/
def nextChosen (found : Option Nat) (x : Transaction) (missed : Bool) (s : State) : State :=
  chooseTransaction found (countTransaction x.counted missed s)

theorem nextChosen_link (found : Option Nat) (x : Transaction) (missed : Bool) (s : State) :
    Moves .linkOnly s (nextChosen found x missed s) :=
  (countTransaction_link ..).trans (chooseTransaction_link ..)

theorem nextChosen_forward (found : Option Nat) (x : Transaction) (missed : Bool) (s : State) :
    (nextChosen found x missed s).link.forward = s.link.forward := by
  have chosen := chooseTransaction_steady found (countTransaction x.counted missed s)
  simp only [FieldLink.steady, Prod.mk.injEq] at chosen
  exact chosen.2.2.2.2.2.trans (countTransaction_forward ..)

/-! ## How a transaction ends -/

/-- The link once an addressed transaction has ended, before what it brings is taken. -/
def idled (s : State) : State := s.withLink { s.link with activity := .idle }

theorem endTransaction_none (hx : x.node = some i) (hn : s.node? i = some n) :
    endTransaction x none s = nextChosen none x true (takeMiss i n x (idled s)) := by
  have bound : (x.node.bind fun i => ((idled s).node? i).map fun n => (i, n)) = some (i, n) := by
    rw [hx]
    exact congrArg (Option.map (Prod.mk i)) hn
  unfold endTransaction
  dsimp only
  rw [show (x.node.bind fun i => ((s.withLink { s.link with activity := .idle }).node? i).map fun n => (i, n)) =
    some (i, n) from bound]
  rfl

theorem endTransaction_some (bytes : List Byte) (hx : x.node = some i) (hn : s.node? i = some n) :
    endTransaction x (some bytes) s =
      match judge x n bytes with
      | .miss => nextChosen none x true (takeMiss i n x (idled s))
      | .otherKind r => nextChosen (foundBy i x) x false (takeOtherKind i n x r (idled s))
      | .valid r st items => nextChosen (foundBy i x) x false (takeValid i n x bytes r st items (idled s)) := by
  have bound : (x.node.bind fun i => ((idled s).node? i).map fun n => (i, n)) = some (i, n) := by
    rw [hx]
    exact congrArg (Option.map (Prod.mk i)) hn
  unfold endTransaction
  dsimp only
  rw [show (x.node.bind fun i => ((s.withLink { s.link with activity := .idle }).node? i).map fun n => (i, n)) =
    some (i, n) from bound]
  rfl

theorem judge_miss {report : List Byte} (h : ∀ r, readReport report = some r → r.physicalId ≠ x.physicalId) :
    judge x n report = .miss := by
  unfold judge
  split
  · rfl
  · next r hr => exact if_pos (h r hr)

theorem judge_otherKind {report : List Byte} {r : Report} (hr : readReport report = some r)
    (hid : r.physicalId = x.physicalId) (hk : r.kind ≠ n.kind.code) : judge x n report = .otherKind r := by
  unfold judge
  rw [hr]
  dsimp only
  rw [if_neg (fun h => h hid), if_pos hk]

theorem judge_valid {report : List Byte} {r : Report} (hr : readReport report = some r)
    (hid : r.physicalId = x.physicalId) (hk : r.kind = n.kind.code) :
    judge x n report = .valid r ((readState n.kind r.state).getD .none) (readItems n.kind r) := by
  unfold judge
  rw [hr]
  dsimp only
  rw [if_neg (fun h => h hid), if_neg (fun h => h hk)]

section Takes

variable {left : Nat}

theorem takes_window (hup : s.up = true) (ha : s.link.activity = .awaiting x left) (hx : x.node = some i)
    (hn : s.node? i = some n) :
    Takes .replyWindowExpiry s (nextChosen none x true (takeMiss i n x (idled (startEvent s)))) := by
  refine takes_event (f := replyWindowEnds) hup ?_
  unfold replyWindowEnds
  rw [show (startEvent s).link.activity = .awaiting x left from ha]
  exact endTransaction_none hx hn

theorem reportArrives_awaited (report : List Byte) (ha : s.link.activity = .awaiting x left) :
    reportArrives report (startEvent s) = endTransaction x (some report) (startEvent s) := by
  unfold reportArrives
  rw [show (startEvent s).link.activity = .awaiting x left from ha]

theorem takes_missed {report : List Byte} (hup : s.up = true) (ha : s.link.activity = .awaiting x left)
    (hx : x.node = some i) (hn : s.node? i = some n)
    (h : ∀ r, readReport report = some r → r.physicalId ≠ x.physicalId) :
    Takes (.fieldReportReceived report) s (nextChosen none x true (takeMiss i n x (idled (startEvent s)))) := by
  refine takes_event (f := reportArrives report) hup ?_
  rw [reportArrives_awaited report ha, endTransaction_some (s := startEvent s) report hx hn, judge_miss h]

theorem takes_otherKind {report : List Byte} {r : Report} (hup : s.up = true)
    (ha : s.link.activity = .awaiting x left) (hx : x.node = some i) (hn : s.node? i = some n)
    (hr : readReport report = some r) (hid : r.physicalId = x.physicalId) (hk : r.kind ≠ n.kind.code) :
    Takes (.fieldReportReceived report) s
      (nextChosen (foundBy i x) x false (takeOtherKind i n x r (idled (startEvent s)))) := by
  refine takes_event (f := reportArrives report) hup ?_
  rw [reportArrives_awaited report ha, endTransaction_some (s := startEvent s) report hx hn, judge_otherKind hr hid hk]

theorem takes_valid {report : List Byte} {r : Report} (h : ValidAnswer s x i n report r) :
    Takes (.fieldReportReceived report) s
      (nextChosen (foundBy i x) x false
        (takeValid i n x report r ((readState n.kind r.state).getD .none) (readItems n.kind r)
          (idled (startEvent s)))) := by
  obtain ⟨hup, ⟨left, ha⟩, hx, hn, hr, hid, hk⟩ := h
  refine takes_event (f := reportArrives report) hup ?_
  rw [reportArrives_awaited report ha, endTransaction_some (s := startEvent s) report hx hn, judge_valid hr hid hk]

end Takes

/-! ## FORWARD -/

/-- R44: a FORWARD has ended with its reply queued in the kept place. -/
structure ForwardEnded (tag : Byte) (st : Status) (data : List Byte) (s : State) : Prop where
  forward : s.link.forward = none
  executing : s.host.executing = none
  reply : s.host.replies.getLast? = some ⟨.kept, tag, 0x23, st, data⟩

variable {tag : Byte} {st : Status} {data : List Byte}

theorem endForward_ended (h : s.host.executing = some tag) : ForwardEnded tag st data (endForward st data s) := by
  unfold endForward
  rw [h]
  exact ⟨rfl, rfl, List.getLast?_concat⟩

theorem dropForward_none (h : s.link.forward = none) (i : Nat) : dropForward i s = s := by
  unfold dropForward
  rw [h]

theorem nextChosen_ended (found : Option Nat) (x : Transaction) (missed : Bool) (h : ForwardEnded tag st data s) :
    ForwardEnded tag st data (nextChosen found x missed s) := by
  have host : (nextChosen found x missed s).host = s.host := (nextChosen_link found x missed s).host_eq id
  exact ⟨(nextChosen_forward ..).trans h.forward, host ▸ h.executing, host ▸ h.reply⟩

/-- The changes of a node's health leave the host link alone. -/
def Allow.butHost : Allow := { Allow.all with host := False }

theorem healthChanged_host (i : Nat) (before : Health) (s : State) : (healthChanged i before s).host = s.host := by
  have m : Moves .butHost s (healthChanged i before s) := by
    apply healthChanged_moves i before .refl <;> trivial
  exact m.host_eq id

theorem noteMore_host (more : Bool) (s : State) : (noteMore i more s).host = s.host := by
  unfold noteMore
  split
  · rfl
  · rfl

theorem takeMiss_ended (hx : x.origin = .forwarded) (h : s.host.executing = some tag) :
    ForwardEnded tag .nodeTimeout [] (takeMiss i n x s) := by
  unfold takeMiss
  dsimp only
  rw [hx]
  have ended : ∀ u : State, u.host = s.host →
      ForwardEnded tag .nodeTimeout [] (dropForward i (endForward .nodeTimeout [] (healthChanged i n.health u))) := by
    intro u hu
    have e : ForwardEnded tag .nodeTimeout [] (endForward .nodeTimeout [] (healthChanged i n.health u)) :=
      endForward_ended (by rw [healthChanged_host, hu]; exact h)
    rw [dropForward_none e.forward]
    exact e
  exact ended _ rfl

theorem takeOtherKind_ended {r : Report} (hx : x.origin = .forwarded) (h : s.host.executing = some tag) :
    ForwardEnded tag .nodeOffline [] (takeOtherKind i n x r s) := by
  unfold takeOtherKind
  dsimp only
  rw [hx]
  have ended : ∀ u : State, u.host = s.host →
      ForwardEnded tag .nodeOffline []
        (dropForward i (endForward .nodeOffline [] (noteMore i r.more (healthChanged i n.health u)))) := by
    intro u hu
    have e : ForwardEnded tag .nodeOffline []
        (endForward .nodeOffline [] (noteMore i r.more (healthChanged i n.health u))) :=
      endForward_ended (by rw [noteMore_host, healthChanged_host, hu]; exact h)
    rw [dropForward_none e.forward]
    exact e
  exact ended _ rfl

/-- Execution stands while the items of a report are taken. -/
theorem takeItems_host (i : Nat) (r : Report) (items : Items) (s : State) :
    (takeItems i r items s).host = s.host := by
  have m : Moves .butHost s (takeItems i r items s) := by apply takeItems_moves i r items .refl <;> trivial
  exact m.host_eq id

theorem leaveStartup_host (i : Nat) (s : State) : (leaveStartup i s).host = s.host := by
  have m : Moves .butHost s (leaveStartup i s) := leaveStartup_moves i .refl trivial
  exact m.host_eq id

theorem takeValid_ended {bytes : List Byte} {r : Report} {ns : NodeState} {items : Items}
    (hx : x.origin = .forwarded) (h : s.host.executing = some tag) :
    ForwardEnded tag .ok (reportForHost bytes) (takeValid i n x bytes r ns items s) := by
  unfold takeValid
  dsimp only
  rw [hx]
  have ended : ∀ u : State, u.host = s.host →
      ForwardEnded tag .ok (reportForHost bytes) (endForward .ok (reportForHost bytes)
        (noteMore i r.more (takeItems i r items
          (handState i n x.code ns (leaveStartup i (healthChanged i n.health u)))))) := by
    intro u hu
    refine endForward_ended ?_
    have handed : Works .all (leaveStartup i (healthChanged i n.health u)) _ :=
      handState_works trivial trivial i n x.code ns .refl
    rw [noteMore_host, takeItems_host, handed.executing, leaveStartup_host, healthChanged_host, hu]
    exact h
  exact ended _ rfl

/-! ## The checks of FORWARD -/

theorem answers_forward {index command : Byte} {ops : List Byte} {d : List Byte} (h : HostReady s) (ht : tag ≠ 0)
    (hl : ops.length ≤ 200) (e : forwardRequest tag index command ops (taken s) = .reply st d t) :
    Answers (.forward tag index command ops) tag 0x23 st d s t := by
  refine answers_of_carryOut h ht ?_ ?_ e
  · simp [bodyLengthOk]; omega
  · simp [operandsOk]; omega

theorem forwardAllowed_iff (n : Node) (code : Nat) :
    forwardAllowed (some n) code = true ↔ code ≠ 0x40 ∧ (n.kind = .fire ∨ n.kind = .hatch → code ≤ 0x3F) := by
  have hrate : rateCode = 0x40 := rfl
  unfold forwardAllowed
  rw [hrate]
  dsimp only
  generalize n.kind = k
  cases k <;> simp

theorem takes_forward {index command : Byte} {ops : List Byte} (h : HostReady s) (ht : tag ≠ 0)
    (hl : ops.length ≤ 200)
    (e : forwardRequest tag index command ops (taken s) = .held t) : Takes (.forward tag index command ops) s t := by
  have length : bodyLengthOk ((index :: command :: ops).length + 2) = true := by
    simp [bodyLengthOk]; omega
  have operands : operandsOk (0x23 : Byte).toNat (index :: command :: ops) = some true := by
    simp [operandsOk]; omega
  have taken := request_taken h tag 0x23 (index :: command :: ops) length
  rw [execute_of_checks ht operands] at taken
  refine taken.trans ?_
  rw [show carryOut tag 0x23 (index :: command :: ops) (Machine.taken s) = .held t from e]
  rfl

end Sys2Proof.Machine

namespace Sys2Proof

open Machine

/-- Settles O31: the checks of FORWARD, and the end of its transaction by what the node answered. -/
theorem forwardHoldsExecution : Obligations.ForwardHoldsExecution := by
  refine ⟨fun s tag index command data h ht hl => ?_, fun s x left i n tag hup ha ho hx hn he => ?_⟩
  · have refused : ∀ st, forwardRequest tag index command data (taken s) = refuse st (taken s) →
        Refuses (.forward tag index command data) tag 0x23 st s := fun st e => answers_forward h ht hl e
    have badIndex : 32 ≤ index.toNat → indexOk index = false := fun hi =>
      eq_false_of_ne_true fun h => absurd ((indexOk_iff index).mp h) (Nat.not_lt.mpr hi)
    have passed : lockout s = false → index.toNat < 32 → usableNode s index.toNat = true →
        ∀ cs, firstFailure ((!lockout (taken s), Status.fireUnacknowledged) :: (indexOk index, .badOperand) ::
          (usableNode (taken s) index.toNat, .nodeOffline) :: cs) = firstFailure cs := fun hlock hi hu cs =>
      (firstFailure_pass (show (!lockout s) = true by simp [hlock])).trans
        ((firstFailure_pass ((indexOk_iff index).mpr hi)).trans (firstFailure_pass hu))
    refine ⟨fun hlock => refused _ (checked_fails ?_), fun hlock hi => refused _ (checked_fails ?_),
      fun hlock hi hu => refused _ (checked_fails ?_), fun n hlock hi hu hn =>
        ⟨fun hp => refused _ (checked_fails ?_), fun hrate hclass => takes_forward h ht hl (checked_passes ?_)⟩⟩
    · exact firstFailure_fail (show (!lockout s) = false by simp [hlock])
    · exact (firstFailure_pass (show (!lockout s) = true by simp [hlock])).trans (firstFailure_fail (badIndex hi))
    · exact (firstFailure_pass (show (!lockout s) = true by simp [hlock])).trans
        ((firstFailure_pass ((indexOk_iff index).mpr hi)).trans (firstFailure_fail hu))
    · refine (passed hlock hi hu _).trans (firstFailure_fail (eq_false_of_ne_true fun hok => ?_))
      rw [show (taken s).node? index.toNat = some n from hn, forwardAllowed_iff] at hok
      obtain ⟨hrate, hclass⟩ := hok
      exact hp.elim hrate fun ⟨hk, hlarge⟩ => absurd (hclass hk) (Nat.not_le.mpr hlarge)
    · refine (passed hlock hi hu _).trans (firstFailure_pass ?_)
      rw [show (taken s).node? index.toNat = some n from hn, forwardAllowed_iff]
      exact ⟨hrate, hclass⟩
  · intro ends
    refine ⟨?_, fun report hmiss => ?_, fun report r hr hid => ⟨fun hk => ?_, fun hk => ?_⟩⟩
    · obtain ⟨hf, hexec, hreply⟩ := nextChosen_ended none x true
        (takeMiss_ended (s := idled (startEvent s)) (i := i) (n := n) ho he)
      exact ⟨_, takes_window hup ha hx hn, hf, hexec, hreply⟩
    · obtain ⟨hf, hexec, hreply⟩ := nextChosen_ended none x true
        (takeMiss_ended (s := idled (startEvent s)) (i := i) (n := n) ho he)
      exact ⟨_, takes_missed hup ha hx hn hmiss, hf, hexec, hreply⟩
    · obtain ⟨hf, hexec, hreply⟩ := nextChosen_ended (foundBy i x) x false
        (takeOtherKind_ended (s := idled (startEvent s)) (i := i) (n := n) (r := r) ho he)
      exact ⟨_, takes_otherKind hup ha hx hn hr hid hk, hf, hexec, hreply⟩
    · obtain ⟨hf, hexec, hreply⟩ := nextChosen_ended (foundBy i x) x false
        (takeValid_ended (s := idled (startEvent s)) (i := i) (n := n) (r := r) (bytes := report)
          (ns := (readState n.kind r.state).getD .none) (items := readItems n.kind r) ho he)
      exact ⟨_, takes_valid ⟨hup, ⟨left, ha⟩, hx, hn, hr, hid, hk⟩, hf, hexec, hreply⟩

end Sys2Proof
end

section
/-! The arbiter of the field link (R40 to R42, R48): which transaction an idle link begins. -/

namespace Sys2Proof.Machine

variable {s t u v : State} {i : Nat} {n : Node} {x : Transaction}

/-! ## The next number in turn -/

/-- The lowest number of a rising list is its head. -/
theorem head?_of_lowest {is : List Nat} (hd : is.Pairwise (· < ·)) (hi : i ∈ is) (h : ∀ j ∈ is, i ≤ j) :
    is.head? = some i := by
  cases is with
  | nil => cases hi
  | cons a is =>
    rcases List.mem_cons.mp hi with rfl | hm
    · rfl
    · have hlt := (List.pairwise_cons.mp hd).1 i hm
      exact absurd hlt (Nat.not_lt.mpr (h a List.mem_cons_self))

/-- The lowest number of a rising list above p is the first one found. -/
theorem find?_of_lowest_above {is : List Nat} {p : Nat} (hd : is.Pairwise (· < ·)) (hi : i ∈ is) (hp : p < i)
    (h : ∀ j ∈ is, p < j → i ≤ j) : (is.find? fun j => decide (p < j)) = some i := by
  induction is with
  | nil => cases hi
  | cons a is ih =>
    obtain ⟨hlt, htail⟩ := List.pairwise_cons.mp hd
    rcases List.mem_cons.mp hi with rfl | hm
    · exact List.find?_cons_of_pos (by simpa using hp)
    · have ha : ¬p < a := fun hpa =>
        absurd (hlt i hm) (Nat.not_lt.mpr (h a List.mem_cons_self hpa))
      rw [List.find?_cons_of_neg (by simpa using ha)]
      exact ih htail hm fun j hj => h j (List.mem_cons_of_mem _ hj)

section Turn

variable {is : List Nat} {P : Nat → Prop}

theorem head?_of_nextInTurn (hd : is.Pairwise (· < ·)) (hP : ∀ k, k ∈ is ↔ P k) (h : NextInTurn P none i) :
    is.head? = some i :=
  head?_of_lowest hd ((hP i).mpr h.1) fun j hj => h.2 j ((hP j).mp hj)

theorem nextAfter_of_nextInTurn {p : Nat} (hd : is.Pairwise (· < ·)) (hP : ∀ k, k ∈ is ↔ P k)
    (h : NextInTurn P (some p) i) : nextAfter is p = some i := by
  obtain ⟨hi, ⟨hp, habove⟩ | ⟨hp, hall, hlow⟩⟩ := h
  · unfold nextAfter
    rw [find?_of_lowest_above hd ((hP i).mpr hi) hp fun j hj => habove j ((hP j).mp hj)]
  · have none : (is.find? fun j => decide (p < j)) = none := List.find?_eq_none.mpr fun j hj => by
      simpa using hall j ((hP j).mp hj)
    unfold nextAfter
    rw [none]
    exact head?_of_lowest hd ((hP i).mpr hi) fun j hj => hlow j ((hP j).mp hj)

end Turn

/-! ## The first entry of a queue -/

theorem find?_of_firstOf {q : List QueueEntry} {P : QueueEntry → Prop} {f : QueueEntry → Bool} {e : QueueEntry}
    (hf : ∀ e, f e = true ↔ P e) (h : FirstOf q P e) : q.find? f = some e := by
  obtain ⟨before, after, rfl, he, hbefore⟩ := h
  refine List.find?_eq_some_iff_append.mpr ⟨(hf e).mpr he, before, after, rfl, fun d hd => ?_⟩
  rw [Bool.not_eq_true', ← Bool.not_eq_true, hf]
  exact hbefore d hd

theorem find?_of_nothing {q : List QueueEntry} {P : QueueEntry → Prop} {f : QueueEntry → Bool}
    (hf : ∀ e, f e = true ↔ P e) (h : ∀ e ∈ q, ¬P e) : q.find? f = none :=
  List.find?_eq_none.mpr fun e he => by rw [hf]; exact h e he

theorem rank_eq_one (c : CmdKind) : c.rank = 1 ↔ c ∈ [CmdKind.release] := by
  cases c <;> decide

theorem rank_eq_two (c : CmdKind) : c.rank = 2 ↔ c ∈ [CmdKind.roomLock, .storeLock, .exitLock, .purge] := by
  cases c <;> decide

theorem rank_eq_four (c : CmdKind) : c.rank = 4 ↔ c ∈ [CmdKind.mode, .signalReject, .prompt] := by
  cases c <;> decide

section Rank

variable {rank : Nat} {kinds : List CmdKind}

theorem oldestOf_of_first (hk : ∀ c : CmdKind, c.rank = rank ↔ c ∈ kinds) {e : QueueEntry}
    (h : FirstOf u.link.queue (fun e => e.cmd ∈ kinds ∧ usableNode u e.node = true) e) :
    oldestOf u rank = some e :=
  find?_of_firstOf (fun e => by simp [← hk]) h

theorem oldestOf_of_nothing (hk : ∀ c : CmdKind, c.rank = rank ↔ c ∈ kinds)
    (h : ∀ e ∈ u.link.queue, ¬(e.cmd ∈ kinds ∧ usableNode u e.node = true)) : oldestOf u rank = none :=
  find?_of_nothing (P := fun e => e.cmd ∈ kinds ∧ usableNode u e.node = true) (fun e => by simp [← hk]) h

/-- The oldest queued command of a node in a rank (R48). -/
def ownOf (u : State) (i rank : Nat) : Option QueueEntry :=
  u.link.queue.find? fun e => e.node == i && e.cmd.rank == rank

theorem huntingEntry_eq (u : State) (i : Nat) :
    huntingEntry u i = (ownOf u i 1).orElse fun _ => (ownOf u i 2).orElse fun _ => ownOf u i 4 := rfl

theorem ownOf_of_first (hk : ∀ c : CmdKind, c.rank = rank ↔ c ∈ kinds) {e : QueueEntry}
    (h : FirstOf u.link.queue (fun e => e.node = i ∧ e.cmd ∈ kinds) e) : ownOf u i rank = some e :=
  find?_of_firstOf (fun e => by simp [← hk]) h

theorem ownOf_of_nothing (hk : ∀ c : CmdKind, c.rank = rank ↔ c ∈ kinds)
    (h : ∀ e ∈ u.link.queue, ¬(e.node = i ∧ e.cmd ∈ kinds)) : ownOf u i rank = none :=
  find?_of_nothing (P := fun e => e.node = i ∧ e.cmd ∈ kinds) (fun e => by simp [← hk]) h

end Rank

/-! ## What is begun -/

/-- R31, R41: an addressed transaction with a bound node begins. -/
theorem beginAddressed_begins (o : Origin) (code : Nat) (data : List Byte) (hn : u.node? i = some n) :
    Begins u (beginAddressed i o code data u) i o code data := by
  unfold beginAddressed
  rw [hn]
  refine ⟨n, { node := some i, physicalId := n.binding.physicalId, origin := o, code := code, data := data,
               ack := n.accepted.getD 0, rate := n.rate,
               counted := n.rate == u.link.rate && n.health != .offline },
    hn, ?_, rfl, rfl, rfl, rfl, rfl, rfl, rfl, rfl, ?_⟩
  · dsimp only
    split <;> split <;> rfl
  · dsimp only
    split <;> split <;> rfl

theorem beginAddressed_rotation (o : Origin) (code : Nat) (data : List Byte) (hn : u.node? i = some n)
    (hk : n.kind = .fire) : (beginAddressed i o code data u).link.fireRotation = some i := by
  unfold beginAddressed
  rw [hn]
  dsimp only
  rw [if_pos hk]
  split <;> rfl

/-- The follow-up and the cursor stand while a transaction begins. -/
theorem beginAddressed_turn (i : Nat) (o : Origin) (code : Nat) (data : List Byte) (s : State) :
    (beginAddressed i o code data s).link.followUp = s.link.followUp ∧
      (beginAddressed i o code data s).link.cursor = s.link.cursor := by
  unfold beginAddressed
  split
  · exact ⟨rfl, rfl⟩
  · dsimp only
    split <;> split <;> exact ⟨rfl, rfl⟩

/-- What a begun transaction is said of: another state with the same nodes, rate and poll count, and the link. -/
theorem Begins.congr {s' t' : State} {o : Origin} {code : Nat} {data : List Byte} (h : Begins s t i o code data)
    (hn : s'.nodes = s.nodes) (hr : s'.link.rate = s.link.rate) (hf : s'.link.fireCount = s.link.fireCount)
    (ht : t'.link = t.link) : Begins s' t' i o code data := by
  obtain ⟨n, x, hnode, hact, hx1, hx2, hx3, hx4, hx5, hx6, hx7, hx8, hcount⟩ := h
  refine ⟨n, x, ?_, by rw [ht]; exact hact, hx1, hx2, hx3, hx4, hx5, hx6, hx7, by rw [hr]; exact hx8,
    by rw [ht, hf]; exact hcount⟩
  rw [State.node?, hn]
  exact hnode

theorem routinePoll_turn (i : Nat) (s : State) :
    (routinePoll i s).link.followUp = s.link.followUp ∧ (routinePoll i s).link.cursor = s.link.cursor := by
  unfold routinePoll
  split
  · exact ⟨rfl, rfl⟩
  · split
    · split <;> exact beginAddressed_turn ..
    · split <;> exact beginAddressed_turn ..

theorem routinePoll_hunts {e : QueueEntry} (hn : u.node? i = some n) (hh : n.health = .offline)
    (he : huntingEntry u i = some e) :
    routinePoll i u = beginAddressed i (.hunting (some e.cmd)) e.cmd.code e.data u := by
  unfold routinePoll
  rw [hn]
  dsimp only
  rw [if_pos hh, he]

theorem routinePoll_hunts_plain (hn : u.node? i = some n) (hh : n.health = .offline)
    (he : huntingEntry u i = none) :
    routinePoll i u = beginAddressed i (.hunting none) n.plainCode [] u := by
  unfold routinePoll
  rw [hn]
  dsimp only
  rw [if_pos hh, he]

theorem routinePoll_corrects (hn : u.node? i = some n) (hh : n.health ≠ .offline) (hr : n.rate ≠ u.link.rate) :
    routinePoll i u = beginAddressed i .routine rateCode [byteOf u.link.rate.val] u := by
  unfold routinePoll
  rw [hn]
  dsimp only
  rw [if_neg hh, if_pos (by simp [owesCorrection, hh, hr])]

theorem routinePoll_plain (hn : u.node? i = some n) (hh : n.health ≠ .offline) (hr : n.rate = u.link.rate) :
    routinePoll i u = beginAddressed i .routine n.plainCode [] u := by
  unfold routinePoll
  rw [hn]
  dsimp only
  rw [if_neg hh, if_neg (by simp [owesCorrection, hr])]

/-- R42, R48: the poll that a routine poll of a node begins. -/
theorem routinePoll_begins (hn : u.node? i = some n) : BeginsRoutine u (routinePoll i u) i n := by
  have hunts : ∀ e, huntingEntry u i = some e →
      n.health = .offline → Begins u (routinePoll i u) i (.hunting (some e.cmd)) e.cmd.code e.data := fun e he hh => by
    rw [routinePoll_hunts hn hh he]
    exact beginAddressed_begins _ _ _ hn
  refine ⟨fun hh hr => ?_, fun hh hr => ?_, fun hh => ⟨fun e he => hunts e ?_ hh,
    fun h1 e he => hunts e ?_ hh, fun h1 h2 e he => hunts e ?_ hh, fun h1 h2 h4 => ?_⟩⟩
  · rw [routinePoll_plain hn hh hr]
    exact beginAddressed_begins _ _ _ hn
  · rw [routinePoll_corrects hn hh hr]
    exact beginAddressed_begins _ _ _ hn
  · rw [huntingEntry_eq, ownOf_of_first rank_eq_one he]
    rfl
  · rw [huntingEntry_eq, ownOf_of_nothing rank_eq_one h1, ownOf_of_first rank_eq_two he]
    rfl
  · rw [huntingEntry_eq, ownOf_of_nothing rank_eq_one h1, ownOf_of_nothing rank_eq_two h2,
      ownOf_of_first rank_eq_four he]
    rfl
  · rw [routinePoll_hunts_plain hn hh (by
      rw [huntingEntry_eq, ownOf_of_nothing rank_eq_one h1, ownOf_of_nothing rank_eq_two h2,
        ownOf_of_nothing rank_eq_four h4]
      rfl)]
    exact beginAddressed_begins _ _ _ hn

/-- A routine poll is said of every state with the same nodes, rate, poll count and queue. -/
theorem BeginsRoutine.congr {s' t' : State} (h : BeginsRoutine s t i n) (hn : s'.nodes = s.nodes)
    (hr : s'.link.rate = s.link.rate) (hf : s'.link.fireCount = s.link.fireCount)
    (hq : s'.link.queue = s.link.queue) (ht : t'.link = t.link) : BeginsRoutine s' t' i n := by
  obtain ⟨hplain, hcorrect, hhunt⟩ := h
  unfold BeginsRoutine
  dsimp only
  rw [hr, hq]
  refine ⟨fun a b => (hplain a b).congr hn hr hf ht, fun a b => (hcorrect a b).congr hn hr hf ht, fun a => ?_⟩
  obtain ⟨h1, h2, h4, hnone⟩ := hhunt a
  exact ⟨fun e he => (h1 e he).congr hn hr hf ht, fun a1 e he => (h2 a1 e he).congr hn hr hf ht,
    fun a1 a2 e he => (h4 a1 a2 e he).congr hn hr hf ht, fun a1 a2 a4 => (hnone a1 a2 a4).congr hn hr hf ht⟩

/-! ## The choice -/

theorem deliver_begins {e : QueueEntry} (h : usableNode u e.node = true) :
    Begins u (deliver e u) e.node (.command e.cmd) e.cmd.code e.data := by
  unfold usableNode at h
  split at h
  · next n hn => exact beginAddressed_begins _ _ _ hn
  · cases h

theorem mem_fireNodes (hs : TablesOk u) :
    i ∈ fireNodes u ↔ usableNode u i = true ∧ (u.node? i).map Node.kind = some .fire := by
  have rising : u.nodes.rising := hs.1
  unfold fireNodes
  simp only [List.mem_map, List.mem_filter, Bool.and_eq_true, beq_iff_eq]
  constructor
  · rintro ⟨p, ⟨hp, hk, hu⟩, rfl⟩
    have hn : u.node? p.1 = some p.2 := Table.get?_of_mem rising hp
    exact ⟨hu, by rw [hn, Option.map_some, hk]⟩
  · rintro ⟨hu, hk⟩
    obtain ⟨n, hn, hk⟩ := Option.map_eq_some_iff.mp hk
    exact ⟨(i, n), ⟨Table.mem_of_get? hn, hk, hu⟩, rfl⟩

theorem fireNodes_ascending (hs : TablesOk u) : (fireNodes u).Pairwise (· < ·) :=
  Table.places_pairwise_lt (lo := 0) (Table.filter_rising hs.1)

theorem fireDue_of_nextInTurn (hs : TablesOk u) (hc : u.link.fireCount = 4)
    (h : NextInTurn (fun i => usableNode u i = true ∧ (u.node? i).map Node.kind = some .fire)
      u.link.fireRotation i) : fireDue u = some i := by
  unfold fireDue
  rw [if_pos hc]
  split
  · next p hp =>
    rw [hp] at h
    exact nextAfter_of_nextInTurn (fireNodes_ascending hs) (fun k => mem_fireNodes hs) h
  · next hp =>
    rw [hp] at h
    exact head?_of_nextInTurn (fireNodes_ascending hs) (fun k => mem_fireNodes hs) h

theorem fireDue_of_not (hs : TablesOk u)
    (h : ¬(u.link.fireCount = 4 ∧ ∃ i, usableNode u i = true ∧ (u.node? i).map Node.kind = some .fire)) :
    fireDue u = none := by
  unfold fireDue
  split
  · next hc =>
    have empty : fireNodes u = [] := List.eq_nil_iff_forall_not_mem.mpr fun i hi =>
      h ⟨hc, i, (mem_fireNodes hs).mp hi⟩
    rw [empty]
    split <;> rfl
  · rfl

section Work

variable {e : QueueEntry}

theorem chooseWork_first (h : oldestOf u 1 = some e) : chooseWork u = deliver e u := by
  unfold chooseWork
  rw [h]

theorem chooseWork_second (h1 : oldestOf u 1 = none) (h : oldestOf u 2 = some e) : chooseWork u = deliver e u := by
  unfold chooseWork
  rw [h1, h]

theorem chooseWork_fire (h1 : oldestOf u 1 = none) (h2 : oldestOf u 2 = none) (h : fireDue u = some i) :
    chooseWork u = beginAddressed i .firePoll pollCode [] u := by
  unfold chooseWork
  rw [h1, h2, h]

variable (h1 : oldestOf u 1 = none) (h2 : oldestOf u 2 = none) (h3 : fireDue u = none)

include h1 h2 h3

theorem chooseWork_fourth (h : oldestOf u 4 = some e) : chooseWork u = deliver e u := by
  unfold chooseWork
  rw [h1, h2, h3, h]

theorem chooseWork_forward {f : Forward} (h4 : oldestOf u 4 = none) (h : u.link.forward = some f) :
    chooseWork u = beginAddressed f.node .forwarded f.code f.data u := by
  unfold chooseWork
  rw [h1, h2, h3, h4, h]

theorem chooseWork_routine (h4 : oldestOf u 4 = none) (h : u.link.forward = none) :
    chooseWork u = chooseRoutine u := by
  unfold chooseWork
  rw [h1, h2, h3, h4, h]

end Work

/-! ## The routine poll -/

/-- R42: the node that has more events is polled before the one at the cursor. -/
theorem chooseRoutine_followUp (hf : u.link.followUp = some i) (hl : u.link.lastWasFollowUp = false)
    (hn : u.node? i = some n) (hh : n.health ≠ .offline) :
    BeginsRoutine u (chooseRoutine u) i n ∧ (chooseRoutine u).link.followUp = none ∧
      (chooseRoutine u).link.cursor = u.link.cursor := by
  let w := u.withLink { u.link with followUp := none, lastWasFollowUp := true }
  have chosen : chooseRoutine u = routinePoll i w := by
    have holds : followUpHolds (u.withLink { u.link with followUp := none }) i = true := by
      unfold followUpHolds
      rw [show (u.withLink { u.link with followUp := none }).node? i = some n from hn]
      simpa using hh
    unfold chooseRoutine
    rw [hf]
    dsimp only
    exact (if_neg (by rw [hl]; exact Bool.false_ne_true)).trans (if_pos holds)
  have polled : BeginsRoutine w (routinePoll i w) i n := routinePoll_begins hn
  rw [chosen]
  exact ⟨polled.congr rfl rfl rfl rfl rfl, (routinePoll_turn i w).1, (routinePoll_turn i w).2⟩

theorem cursorPoll_begins {j : Nat} (hs : TablesOk u) (hc : u.link.cursor = some i) (hn : u.node? i = some n)
    (hj : NextInTurn (fun k => (u.node? k).isSome = true) (some i) j) :
    BeginsRoutine u (cursorPoll u) i n ∧ (cursorPoll u).link.cursor = some j := by
  let w := u.withLink { u.link with cursor := nextAfter u.nodes.places i, lastWasFollowUp := false }
  have chosen : cursorPoll u = routinePoll i w := by
    unfold cursorPoll
    rw [hc]
  have polled : BeginsRoutine w (routinePoll i w) i n := routinePoll_begins hn
  have ascending : u.nodes.places.Pairwise (· < ·) := Table.places_pairwise_lt (lo := 0) hs.1
  have bound : ∀ k, k ∈ u.nodes.places ↔ (u.node? k).isSome = true := fun k => by
    constructor
    · intro hk
      obtain ⟨p, hp, rfl⟩ := List.mem_map.mp hk
      exact Table.get?_isSome hp
    · intro hk
      obtain ⟨m, hm⟩ := Option.isSome_iff_exists.mp hk
      exact List.mem_map_of_mem (f := Prod.fst) (Table.mem_of_get? hm)
  rw [chosen]
  refine ⟨polled.congr rfl rfl rfl rfl rfl, (routinePoll_turn i w).2.trans ?_⟩
  exact nextAfter_of_nextInTurn ascending bound hj

/-- R42: without a follow-up that holds, the node at the cursor is polled. -/
theorem chooseRoutine_cursor {j : Nat} (hs : TablesOk u)
    (hf : ∀ k m, u.link.followUp = some k → u.link.lastWasFollowUp = false → u.node? k = some m →
      m.health = .offline)
    (hc : u.link.cursor = some i) (hn : u.node? i = some n)
    (hj : NextInTurn (fun k => (u.node? k).isSome = true) (some i) j) :
    BeginsRoutine u (chooseRoutine u) i n ∧ (chooseRoutine u).link.cursor = some j := by
  unfold chooseRoutine
  split
  · next k hk =>
    split
    · exact cursorPoll_begins hs hc hn hj
    · next hl =>
      have drops : followUpHolds (u.withLink { u.link with followUp := none }) k = false := by
        unfold followUpHolds
        split
        · next m hm => simp [hf k m hk (eq_false_of_ne_true hl) hm]
        · rfl
      dsimp only
      rw [drops, if_neg Bool.false_ne_true]
      let w := u.withLink { u.link with followUp := none }
      obtain ⟨polled, moved⟩ := cursorPoll_begins (u := w) hs hc hn hj
      exact ⟨polled.congr rfl rfl rfl rfl rfl, moved⟩
  · exact cursorPoll_begins hs hc hn hj

end Sys2Proof.Machine
end

section
/-! The link-quality window (R45, R46) and the rate broadcast: what the end of a transaction counts, and that what
the report brings leaves the window alone. -/

namespace Sys2Proof.Machine

variable {s t u v : State} {i : Nat} {n : Node} {x : Transaction}

/-! ## What a transaction's end leaves of the window -/

/-- The link-quality window and the rates of the link: what an answer's content leaves alone (R45, R46). -/
def FieldLink.window (l : FieldLink) : Fin 4 × Option Broadcast × Nat × Nat × Nat :=
  (l.rate, l.pendingBroadcast, l.transactions, l.errors, l.windowLength)

theorem FieldLink.steady_eq (l : FieldLink) :
    l.steady = (l.window.1, l.window.2.1, l.window.2.2.1, l.window.2.2.2.1, l.window.2.2.2.2, l.forward) := rfl

theorem window_of_steady {l m : FieldLink} (h : l.steady = m.steady) : l.window = m.window := by
  simp only [FieldLink.steady, Prod.mk.injEq] at h
  obtain ⟨h1, h2, h3, h4, h5, _⟩ := h
  simp only [FieldLink.window, h1, h2, h3, h4, h5]

/-- What an answer's content leaves alone: the window, and how many polls a FIRE node has waited for (R41). -/
def FieldLink.unpolled (l : FieldLink) : (Fin 4 × Option Broadcast × Nat × Nat × Nat) × Nat :=
  (l.window, l.fireCount)

theorem Works.unpolled {W : Scope} (h : Works W s t) : t.link.unpolled = s.link.unpolled := by
  rw [h.link]
  rfl

theorem endDelivery_unpolled (delivered : Bool) (s : State) : (endDelivery delivered s).link.unpolled = s.link.unpolled := by
  unfold endDelivery
  split <;> rfl

theorem modifyNode_unpolled (i : Nat) (f : Node → Node) (s : State) :
    (modifyNode i f s).link.unpolled = s.link.unpolled := by
  unfold modifyNode
  split <;> rfl

theorem setAssembly_unpolled (i : Nat) (a : Option Assembly) (accepted : Option Nat) (s : State) :
    (setAssembly i a accepted s).link.unpolled = s.link.unpolled := modifyNode_unpolled ..

theorem noteMore_unpolled (i : Nat) (more : Bool) (s : State) : (noteMore i more s).link.unpolled = s.link.unpolled := by
  unfold noteMore
  split <;> rfl

theorem endForward_unpolled (st : Status) (data : List Byte) (s : State) :
    (endForward st data s).link.unpolled = s.link.unpolled := by
  unfold endForward
  split <;> rfl

theorem forwardReply_unpolled (o : Origin) (st : Status) (data : List Byte) (s : State) :
    (forwardReply o st data s).link.unpolled = s.link.unpolled := by
  unfold forwardReply
  split
  · exact endForward_unpolled ..
  all_goals rfl

theorem dropForward_unpolled (i : Nat) (s : State) : (dropForward i s).link.unpolled = s.link.unpolled := by
  unfold dropForward
  split
  · split
    · exact endForward_unpolled ..
    · rfl
  · rfl

theorem leaveStartup_link (i : Nat) (s : State) : (leaveStartup i s).link = s.link := by
  have m : Moves { Allow.all with link := False } s (leaveStartup i s) := leaveStartup_moves i .refl trivial
  exact m.link_eq id

theorem postHealth_link (i : Nat) (s : State) : (postHealth i s).link = s.link := by
  unfold postHealth
  split <;> rfl

/-- What the owning block is told of a change of health, before the start-up set (R84, R113). -/
def healthTold (n : Node) (s : State) : State :=
  match n.binding.target with
  | .fire z => setEquipmentLost z (n.health == .offline) s
  | .probe z => if n.health = .online then s else refreshReading z s
  | .air _ | .shelf .. | .rack | .hatch | .terminal => s

theorem healthTold_works (n : Node) (s : State) : Works .fire s (healthTold n s) := by
  unfold healthTold
  split
  · exact setEquipmentLost_works trivial _ _ .refl
  · split
    · exact .refl
    · exact refreshReading_works _ .refl
  all_goals exact .refl

theorem healthChanged_same {before : Health} (hn : s.node? i = some n) (h : n.health = before) :
    healthChanged i before s = s := by
  unfold healthChanged
  rw [hn]
  exact if_pos h

theorem healthChanged_other {before : Health} (hn : s.node? i = some n) (h : n.health ≠ before) :
    healthChanged i before s =
      if n.health = .offline then leaveStartup i (healthTold n (postHealth i s))
      else healthTold n (postHealth i s) := by
  unfold healthChanged
  rw [hn]
  exact if_neg h

theorem healthChanged_unpolled (i : Nat) (before : Health) (s : State) :
    (healthChanged i before s).link.unpolled = s.link.unpolled := by
  have told : ∀ n, (healthTold n (postHealth i s)).link.unpolled = s.link.unpolled := fun n => by
    rw [(healthTold_works n _).unpolled, postHealth_link]
  cases hn : s.node? i with
  | none =>
    unfold healthChanged
    rw [hn]
  | some n =>
    by_cases h : n.health = before
    · rw [healthChanged_same hn h]
    · rw [healthChanged_other hn h]
      split
      · rw [leaveStartup_link, told]
      · exact told n

theorem acceptBatch_unpolled (i : Nat) (n : Node) (number : Nat) (es : List FieldEvent) (s : State) :
    (acceptBatch i n number es s).link.unpolled = s.link.unpolled := by
  have events : ∀ u, Works .all u (es.foldl (fun s e => handEvent n.binding.target e s) u) := fun u =>
    .foldl es (fun e t h => handEvent_works trivial n.binding.target e h) .refl
  exact (events _).unpolled.trans (modifyNode_unpolled ..)

theorem takeBatch_unpolled (i : Nat) (n : Node) (number : Nat) (es : List FieldEvent) (s : State) :
    (takeBatch i n number es s).link.unpolled = s.link.unpolled := by
  unfold takeBatch
  split
  · exact setAssembly_unpolled ..
  · split
    · rfl
    · split
      · rfl
      · exact acceptBatch_unpolled ..

theorem addSegment_unpolled (i : Nat) (n : Node) (held : List SnapEntry) (number : Nat) (last : Bool)
    (es : List SnapEntry) (s : State) : (addSegment i n held number last es s).link.unpolled = s.link.unpolled := by
  unfold addSegment
  dsimp only
  split
  · exact (handSnapshot_works (W := .all) trivial _ _ .refl).unpolled.trans (setAssembly_unpolled ..)
  · exact setAssembly_unpolled ..

theorem takeSegment_unpolled (i : Nat) (n : Node) (number : Nat) (last : Bool) (es : List SnapEntry) (s : State) :
    (takeSegment i n number last es s).link.unpolled = s.link.unpolled := by
  unfold takeSegment
  split
  · exact addSegment_unpolled ..
  · split
    · exact setAssembly_unpolled ..
    · split
      · exact addSegment_unpolled ..
      · split
        · rfl
        · exact setAssembly_unpolled ..

theorem takeItems_unpolled (i : Nat) (r : Report) (items : Items) (s : State) :
    (takeItems i r items s).link.unpolled = s.link.unpolled := by
  unfold takeItems
  split
  · rfl
  · split
    · exact takeSegment_unpolled ..
    · split
      · exact acceptBatch_unpolled ..
      · exact takeBatch_unpolled ..

theorem takeMiss_unpolled (i : Nat) (n : Node) (x : Transaction) (s : State) :
    (takeMiss i n x s).link.unpolled = s.link.unpolled := by
  unfold takeMiss
  dsimp only
  rw [dropForward_unpolled, forwardReply_unpolled, healthChanged_unpolled]
  exact endDelivery_unpolled ..

theorem takeOtherKind_unpolled (i : Nat) (n : Node) (x : Transaction) (r : Report) (s : State) :
    (takeOtherKind i n x r s).link.unpolled = s.link.unpolled := by
  unfold takeOtherKind
  dsimp only
  rw [dropForward_unpolled, forwardReply_unpolled, noteMore_unpolled, healthChanged_unpolled]
  exact endDelivery_unpolled ..

theorem takeValid_unpolled (i : Nat) (n : Node) (x : Transaction) (bytes : List Byte) (r : Report) (ns : NodeState)
    (items : Items) (s : State) : (takeValid i n x bytes r ns items s).link.unpolled = s.link.unpolled := by
  unfold takeValid
  dsimp only
  rw [forwardReply_unpolled, noteMore_unpolled, takeItems_unpolled, (handState_works (W := .all) trivial trivial _ _ _ _ .refl).unpolled,
    leaveStartup_link, healthChanged_unpolled]
  exact endDelivery_unpolled ..

/-! ## The count -/

/-- The window and the settings as they stood before a transaction ended. -/
structure Uncounted (s w : State) : Prop where
  window : w.link.window = s.link.window
  settings : w.settings = s.settings

/-- No transaction's end changes the settings. -/
def Allow.butSettings : Allow := { Allow.all with settings := False }

theorem takeMiss_uncounted (i : Nat) (n : Node) (x : Transaction) (s : State) :
    Uncounted s (takeMiss i n x (idled s)) := by
  have m : Moves .butSettings (idled s) (takeMiss i n x (idled s)) := by
    apply takeMiss_moves i n x .refl <;> trivial
  exact ⟨congrArg Prod.fst (takeMiss_unpolled i n x (idled s)), m.settings_eq id⟩

theorem takeOtherKind_uncounted (i : Nat) (n : Node) (x : Transaction) (r : Report) (s : State) :
    Uncounted s (takeOtherKind i n x r (idled s)) := by
  have m : Moves .butSettings (idled s) (takeOtherKind i n x r (idled s)) := by
    apply takeOtherKind_moves i n x r .refl <;> trivial
  exact ⟨congrArg Prod.fst (takeOtherKind_unpolled i n x r (idled s)), m.settings_eq id⟩

theorem takeValid_uncounted (i : Nat) (n : Node) (x : Transaction) (bytes : List Byte) (r : Report)
    (ns : NodeState) (items : Items) (s : State) : Uncounted s (takeValid i n x bytes r ns items (idled s)) := by
  have m : Moves .butSettings (idled s) (takeValid i n x bytes r ns items (idled s)) := by
    apply takeValid_moves i n x bytes r ns items .refl <;> trivial
  exact ⟨congrArg Prod.fst (takeValid_unpolled i n x bytes r ns items (idled s)), m.settings_eq id⟩

theorem endTransaction_orphan (bytes : Option (List Byte))
    (h : (x.node.bind fun i => (s.node? i).map fun n => (i, n)) = none) :
    endTransaction x bytes s =
      nextChosen none x ((bytes.map (reportMisses x)).getD true) (endDelivery false (idled s)) := by
  unfold endTransaction
  dsimp only
  rw [show (x.node.bind fun i => ((s.withLink { s.link with activity := .idle }).node? i).map fun n => (i, n)) =
    none from h]
  rfl

/-- R31: a report misses where its CRC is wrong or it carries another physical ID. -/
theorem reportMisses_eq (x : Transaction) (report : List Byte) :
    reportMisses x report = !decide ((readReport report).map (·.physicalId) = some x.physicalId) := by
  unfold reportMisses
  split
  · next h => simp [h]
  · next r h => simp [h, bne, beq_eq_decide]

theorem judge_missed {bytes : List Byte} :
    (judge x n bytes = .miss → reportMisses x bytes = true) ∧
      (judge x n bytes ≠ .miss → reportMisses x bytes = false) := by
  unfold judge reportMisses
  split
  · exact ⟨fun _ => rfl, fun h => absurd rfl h⟩
  · next r _ =>
    by_cases hid : r.physicalId = x.physicalId
    · rw [if_neg (fun h => h hid)]
      have same : (r.physicalId != x.physicalId) = false := by simp [hid]
      refine ⟨fun h => ?_, fun _ => same⟩
      split at h <;> cases h
    · rw [if_pos hid]
      exact ⟨fun _ => by simp [hid], fun h => absurd rfl h⟩

/-- R45: an addressed transaction ends with its count, as an error where it missed. -/
theorem endTransaction_counts (x : Transaction) (bytes : Option (List Byte)) (s : State) :
    ∃ found w, endTransaction x bytes s = nextChosen found x ((bytes.map (reportMisses x)).getD true) w ∧
      Uncounted s w := by
  cases hb : x.node.bind fun i => (s.node? i).map fun n => (i, n) with
  | none => exact ⟨none, _, endTransaction_orphan bytes hb, congrArg Prod.fst (endDelivery_unpolled false (idled s)), by unfold endDelivery; rfl⟩
  | some p =>
    obtain ⟨i, hx, hp⟩ := Option.bind_eq_some_iff.mp hb
    obtain ⟨n, hn, rfl⟩ := Option.map_eq_some_iff.mp hp
    cases bytes with
    | none => exact ⟨none, _, endTransaction_none hx hn, takeMiss_uncounted ..⟩
    | some bs =>
      have ended := endTransaction_some bs hx hn
      obtain ⟨hmiss, hanswer⟩ := judge_missed (x := x) (n := n) (bytes := bs)
      rw [Option.map_some, Option.getD_some]
      cases hj : judge x n bs with
      | miss =>
        rw [hj] at ended
        rw [hmiss hj]
        exact ⟨none, _, ended, takeMiss_uncounted ..⟩
      | otherKind r =>
        rw [hj] at ended
        rw [hanswer (by rw [hj]; exact nofun)]
        exact ⟨foundBy i x, _, ended, takeOtherKind_uncounted ..⟩
      | valid r ns items =>
        rw [hj] at ended
        rw [hanswer (by rw [hj]; exact nofun)]
        exact ⟨foundBy i x, _, ended, takeValid_uncounted ..⟩

section Count

variable {missed : Bool} {found : Option Nat}

theorem countTransaction_uncounted (h : x.counted = false) : countTransaction x.counted missed s = s := by
  rw [h]
  rfl

theorem countTransaction_within (h : x.counted = true) (hl : s.link.transactions + 1 < s.link.windowLength) :
    (countTransaction x.counted missed s).link =
      { s.link with transactions := s.link.transactions + 1,
                    errors := s.link.errors + if missed then 1 else 0 } := by
  unfold countTransaction
  rw [h]
  dsimp only
  rw [if_pos rfl, if_pos hl]
  rfl

/-- R46: the broadcast that the end of a window leaves pending. -/
def pendingAfter (s : State) (errors : Nat) : Option Broadcast :=
  if h : s.param .errorThreshold ≤ errors ∧ s.link.rate.val < 3 ∧ s.link.pendingBroadcast = none then
    some { target := ⟨s.link.rate.val + 1, by omega⟩, sendRate := s.link.rate, event := .stepDown }
  else s.link.pendingBroadcast

theorem countTransaction_full (h : x.counted = true) (hl : s.link.windowLength ≤ s.link.transactions + 1) :
    (countTransaction x.counted missed s).link =
      { s.link with transactions := 0, errors := 0, windowLength := s.param .qualityWindow,
                    pendingBroadcast := pendingAfter s (s.link.errors + if missed then 1 else 0) } := by
  unfold countTransaction
  rw [h]
  dsimp only
  rw [if_pos rfl, if_neg (Nat.not_lt.mpr hl)]
  rfl

theorem nextChosen_steady (found : Option Nat) (x : Transaction) (missed : Bool) (s : State) :
    (nextChosen found x missed s).link.steady = (countTransaction x.counted missed s).link.steady :=
  chooseTransaction_steady ..

/-- R46: a broadcast that is pending is being sent at the next choice. -/
theorem chooseTransaction_broadcasts {b : Broadcast} (h : s.link.pendingBroadcast = some b) :
    (chooseTransaction found s).link.activity = .broadcasting b := by
  unfold chooseTransaction
  rw [h]
  rfl

theorem pendingAfter_stepsDown {errors : Nat} (he : s.param .errorThreshold ≤ errors) (hr : s.link.rate.val < 3)
    (hp : s.link.pendingBroadcast = none) :
    ∃ b, pendingAfter s errors = some b ∧ b.target.val = s.link.rate.val + 1 ∧ b.sendRate = s.link.rate ∧
      b.event = .stepDown :=
  ⟨_, dif_pos ⟨he, hr, hp⟩, rfl, rfl, rfl⟩

theorem pendingAfter_stands {errors : Nat}
    (h : errors < s.param .errorThreshold ∨ s.link.rate = 3 ∨ s.link.pendingBroadcast.isSome = true) :
    pendingAfter s errors = s.link.pendingBroadcast := by
  refine dif_neg fun ⟨he, hr, hp⟩ => ?_
  rcases h with h | h | h
  · exact absurd he (Nat.not_le.mpr h)
  · rw [h] at hr
    exact absurd hr (by decide)
  · rw [hp] at h
    cases h

/-- R45, R46: the window and the pending broadcast once a transaction has ended with its count. -/
theorem nextChosen_counts {w : State} (h : Uncounted s w) (found : Option Nat) (x : Transaction) (missed : Bool) :
    let t := nextChosen found x missed w
    let errors := s.link.errors + if missed then 1 else 0
    (x.counted = false → t.link.window = s.link.window) ∧
      (x.counted = true → s.link.transactions + 1 < s.link.windowLength →
        t.link.window =
          (s.link.rate, s.link.pendingBroadcast, s.link.transactions + 1, errors, s.link.windowLength)) ∧
      (x.counted = true → s.link.windowLength ≤ s.link.transactions + 1 →
        t.link.window = (s.link.rate, pendingAfter s errors, 0, 0, s.param .qualityWindow)) := by
  intro t errors
  have chosen := window_of_steady (nextChosen_steady found x missed w)
  obtain ⟨hwindow, hsettings⟩ := h
  have hw := hwindow
  simp only [FieldLink.window, Prod.mk.injEq] at hw
  obtain ⟨hrate, hpending, htransactions, herrors, hlength⟩ := hw
  have after : pendingAfter w errors = pendingAfter s errors := by
    simp only [pendingAfter, hrate, hpending, param_congr hsettings]
  refine ⟨fun hc => ?_, fun hc hl => ?_, fun hc hl => ?_⟩
  · rw [chosen, countTransaction_uncounted hc, hwindow]
  · rw [chosen, countTransaction_within hc (by rw [htransactions, hlength]; exact hl)]
    simp only [FieldLink.window, hrate, hpending, htransactions, herrors, hlength, errors]
  · rw [chosen, countTransaction_full hc (by rw [htransactions, hlength]; exact hl)]
    simp only [FieldLink.window, hrate, herrors, param_congr hsettings, ← after, errors]

/-- R46: a broadcast that a count leaves pending is being sent. -/
theorem nextChosen_broadcasts {w : State} {b : Broadcast}
    (h : (nextChosen found x missed w).link.pendingBroadcast = some b) :
    (nextChosen found x missed w).link.activity = .broadcasting b := by
  have chosen := window_of_steady (nextChosen_steady found x missed w)
  simp only [FieldLink.window, Prod.mk.injEq] at chosen
  obtain ⟨_, hpending, _⟩ := chosen
  exact chooseTransaction_broadcasts (hpending.symm.trans h)

theorem chooseTransaction_works (h : s.link.pendingBroadcast = none) :
    chooseTransaction none s = chooseWork s := by
  unfold chooseTransaction
  rw [h]

end Count

theorem broadcastEnds_eq {b : Broadcast} (h : s.link.activity = .broadcasting b) :
    broadcastEnds s = post (.linkRate b.target b.event)
      ((s.withNodes (s.nodes.map fun p => (p.1, p.2.takesBroadcast b))).withLink
        { s.link with rate := b.target, transactions := 0, errors := 0,
                      windowLength := s.param .qualityWindow, pendingBroadcast := none, activity := .idle }) := by
  unfold broadcastEnds
  rw [h]

/-- R46: the last byte of a rate broadcast is sent. -/
theorem broadcastSent {b : Broadcast} (hup : s.up = true) (ha : s.link.activity = .broadcasting b) :
    ∃ t, Takes .rateBroadcastSent s t ∧
      t.link = { s.link with rate := b.target, transactions := 0, errors := 0,
                             windowLength := s.param .qualityWindow, pendingBroadcast := none, activity := .idle } ∧
      (∀ i n, s.node? i = some n →
        (n.health ≠ .offline → n.rate = b.sendRate → t.node? i = some { n with rate := b.target }) ∧
        (n.health = .offline ∨ n.rate ≠ b.sendRate → t.node? i = some n)) ∧
      t.notices.pending.get? 84 = some (.linkRate b.target b.event) ∧
      t = { startEvent s with link := t.link, nodes := t.nodes, notices := t.notices } := by
  refine ⟨_, takes_event (f := broadcastEnds) hup (broadcastEnds_eq (s := startEvent s) ha), rfl, fun i n hn => ?_, post_same .., rfl⟩
  have node : Table.get? (s.nodes.map fun p => (p.1, p.2.takesBroadcast b)) i = some (n.takesBroadcast b) := by
    rw [Table.get?_map fun n : Node => n.takesBroadcast b, show s.nodes.get? i = some n from hn]
    rfl
  refine ⟨fun hh hr => node.trans (congrArg some (if_pos ⟨hh, hr⟩)), fun h => node.trans (congrArg some (if_neg ?_))⟩
  rintro ⟨hh, hr⟩
  exact h.elim hh fun h => h hr

/-- R31, R45: a transaction that is awaited ends with its count, at the expiry of the reply timer or at a report. -/
theorem awaitedEnds {left missed : Nat} {c : Instr} (hup : s.up = true) (ha : s.link.activity = .awaiting x left)
    (hc : c = .replyWindowExpiry ∧ missed = 1 ∨
      ∃ report, c = .fieldReportReceived report ∧
        missed = if (readReport report).map (·.physicalId) = some x.physicalId then 0 else 1) :
    ∃ m found w, missed = (if m = true then 1 else 0) ∧ Takes c s (nextChosen found x m w) ∧ Uncounted s w := by
  have hstart : (startEvent s).link.activity = .awaiting x left := ha
  rcases hc with ⟨rfl, rfl⟩ | ⟨report, rfl, rfl⟩
  · obtain ⟨found, w, e, hw⟩ := endTransaction_counts x none (startEvent s)
    refine ⟨true, found, w, rfl, takes_event (f := replyWindowEnds) hup ?_, ⟨hw.window, hw.settings⟩⟩
    unfold replyWindowEnds
    rw [hstart]
    exact e
  · obtain ⟨found, w, e, hw⟩ := endTransaction_counts x (some report) (startEvent s)
    refine ⟨reportMisses x report, found, w, ?_, takes_event (f := reportArrives report) hup ?_,
      ⟨hw.window, hw.settings⟩⟩
    · rw [reportMisses_eq]
      split
      · next h => simp [h]
      · next h => simp [h]
    · exact (reportArrives_awaited report ha).trans e

theorem settleHost_link (s : State) : (settleHost s).link = s.link := by
  rw [settleHost_eq]
  rfl

/-- R40: the choice of an idle link at the end of an event. -/
theorem settle_link {c : Instr} (hu : Takes c s u) (hv : exec c s = .next v) (hidle : u.link.activity = .idle) :
    v.link = (chooseTransaction none u).link := by
  have settled : settle u = v := by
    have e : Host.Outcome.next (settle u) = Host.Outcome.next v := hu.symm.trans hv
    injection e
  have chosen : settleField u = chooseTransaction none u := by
    unfold settleField
    rw [hidle]
  rw [← settled, settle, settleHost_link, chosen]

end Sys2Proof.Machine

namespace Sys2Proof

open Machine

/-- Settles O33, by the row: a poll sent, a broadcast sent, a counted transaction ended, and the choice of an idle
link after any of them. -/
theorem pollAndBroadcastSent : Obligations.PollAndBroadcastSent := by
  intro s hup
  refine ⟨fun x ha => ?_, fun b ha => ?_, fun x left c missed ha hc => ?_, fun c u v hc hv hidle hs => ?_⟩
  · refine takes_event (f := pollEnds) hup ?_
    unfold pollEnds
    rw [show (startEvent s).link.activity = .sending x from ha]
    rfl
  · exact broadcastSent hup ha
  · obtain ⟨m, found, w, hm, htakes, hw⟩ := awaitedEnds hup ha hc
    obtain ⟨hnot, hwithin, hfull⟩ := nextChosen_counts hw found x m
    rw [hm]
    refine ⟨_, htakes, ?_, fun hx => ?_, fun hx hl => ?_, fun hx hl => ?_⟩
    · by_cases hx : x.counted = true
      · rcases Nat.lt_or_ge (s.link.transactions + 1) s.link.windowLength with hl | hl
        · exact congrArg Prod.fst (hwithin hx hl)
        · exact congrArg Prod.fst (hfull hx hl)
      · exact congrArg Prod.fst (hnot (eq_false_of_ne_true hx))
    · have h := hnot hx
      simp only [FieldLink.window, Prod.mk.injEq] at h
      obtain ⟨_, hp, ht, he, hl⟩ := h
      exact ⟨ht, he, hl, hp⟩
    · have h := hwithin hx hl
      simp only [FieldLink.window, Prod.mk.injEq] at h
      obtain ⟨_, hp, ht, he, hl⟩ := h
      exact ⟨ht, he, hl, hp⟩
    · have h := hfull hx hl
      simp only [FieldLink.window, Prod.mk.injEq] at h
      obtain ⟨_, hp, ht, he, hl⟩ := h
      refine ⟨ht, he, hl, fun herr hrate hnone => ?_, fun hstands => hp.trans (pendingAfter_stands hstands)⟩
      obtain ⟨b, hb, htarget, hsend, hevent⟩ := pendingAfter_stepsDown herr hrate hnone
      have hpending := hp.trans hb
      exact ⟨b, hpending, nextChosen_broadcasts hpending, htarget, hsend, hevent⟩
  · have hlink := settle_link hc hv hidle
    intro queued nothing hatch rest fireNode due
    refine ⟨fun b hb => by rw [hlink]; exact chooseTransaction_broadcasts hb, fun hb => ?_⟩
    rw [chooseTransaction_works hb] at hlink
    have begins : ∀ {w : State} {i o code data}, chooseWork u = w → Begins u w i o code data →
        Begins u v i o code data := fun hw h => h.congr rfl rfl rfl (by rw [hlink, hw])
    refine ⟨fun e he => ?_, fun h1 e he => ?_, fun h1 h2 hcount i hi => ?_, fun h1 h2 hdue e he => ?_,
      fun h1 h2 hdue h4 => ⟨fun f hf hn => ?_, fun hf => ⟨fun i n hk hl hn hh => ?_, fun i n j hk hcur hn hj => ?_⟩⟩⟩
    · obtain ⟨_, _, _, ⟨hc, hu⟩, _⟩ := id he
      have delivered := deliver_begins hu
      rw [List.mem_singleton.mp hc] at delivered
      exact begins (chooseWork_first (oldestOf_of_first rank_eq_one he)) delivered
    · obtain ⟨_, _, _, ⟨_, hu⟩, _⟩ := id he
      exact begins (chooseWork_second (oldestOf_of_nothing rank_eq_one h1) (oldestOf_of_first rank_eq_two he))
        (deliver_begins hu)
    · have chosen := chooseWork_fire (oldestOf_of_nothing rank_eq_one h1) (oldestOf_of_nothing rank_eq_two h2)
        (fireDue_of_nextInTurn hs hcount hi)
      obtain ⟨n, hn, hk⟩ := Option.map_eq_some_iff.mp hi.1.2
      refine ⟨begins chosen (beginAddressed_begins _ _ _ hn), ?_⟩
      rw [hlink, chosen]
      exact beginAddressed_rotation _ _ _ hn hk
    · obtain ⟨_, _, _, ⟨_, hu⟩, _⟩ := id he
      exact begins (chooseWork_fourth (oldestOf_of_nothing rank_eq_one h1) (oldestOf_of_nothing rank_eq_two h2)
        (fireDue_of_not hs hdue) (oldestOf_of_first rank_eq_four he)) (deliver_begins hu)
    · obtain ⟨n, hn⟩ := Option.isSome_iff_exists.mp hn
      exact begins (chooseWork_forward (oldestOf_of_nothing rank_eq_one h1) (oldestOf_of_nothing rank_eq_two h2)
        (fireDue_of_not hs hdue) (oldestOf_of_nothing rank_eq_four h4) hf) (beginAddressed_begins _ _ _ hn)
    all_goals
      have routine := chooseWork_routine (oldestOf_of_nothing rank_eq_one h1) (oldestOf_of_nothing rank_eq_two h2)
        (fireDue_of_not hs hdue) (oldestOf_of_nothing rank_eq_four h4) hf
      rw [routine] at hlink
      rw [hlink]
    · obtain ⟨polled, hnone, hcur⟩ := chooseRoutine_followUp hk hl hn hh
      exact ⟨polled.congr rfl rfl rfl rfl hlink, hnone, hcur⟩
    · obtain ⟨polled, hcur⟩ := chooseRoutine_cursor hs hk hcur hn hj
      exact ⟨polled.congr rfl rfl rfl rfl hlink, hcur⟩

end Sys2Proof
end

section
/-! The end of a transaction as the node sees it (R31 to R37): its health, its accepted sequence and its assembly,
and the start-up set (R181). -/

namespace Sys2Proof.Machine

variable {s t u v : State} {i : Nat} {n y : Node} {x : Transaction} {r : Report}

/-! ## The start-up set -/

/-- Node i has left the start-up set (R181). -/
def LeftStartup (i : Nat) (s t : State) : Prop :=
  t.device.startupSet = s.device.startupSet.filter (· != i) ∧
    t.device.condition =
      (if s.device.condition = .starting ∧ t.device.startupSet = [] then .running else s.device.condition)

/-- The start-up set and the condition stand. -/
def SameStartup (s t : State) : Prop :=
  t.device.startupSet = s.device.startupSet ∧ t.device.condition = s.device.condition

theorem LeftStartup.after (h : LeftStartup i s t) (g : SameStartup t u) : LeftStartup i s u := by
  obtain ⟨hset, hcond⟩ := h
  obtain ⟨gset, gcond⟩ := g
  exact ⟨gset.trans hset, by rw [gcond, hcond, gset]⟩

theorem SameStartup.before (h : SameStartup s t) (g : LeftStartup i t u) : LeftStartup i s u := by
  obtain ⟨hset, hcond⟩ := h
  obtain ⟨gset, gcond⟩ := g
  exact ⟨gset.trans (by rw [hset]), by rw [gcond, hcond]⟩

theorem SameStartup.trans (h : SameStartup s t) (g : SameStartup t u) : SameStartup s u :=
  ⟨g.1.trans h.1, g.2.trans h.2⟩

theorem SameStartup.of_eq (h : t.device = s.device) : SameStartup s t := ⟨by rw [h], by rw [h]⟩

theorem Works.startup {W : Scope} (h : Works W s t) : SameStartup s t := by
  refine ⟨?_, ?_⟩
  · rw [h.device]
  · rw [h.device]

theorem leaveStartup_left (i : Nat) (s : State) : LeftStartup i s (leaveStartup i s) := by
  unfold leaveStartup settleStartup
  split
  · next h => exact ⟨rfl, (if_pos h).symm⟩
  · next h => exact ⟨rfl, (if_neg h).symm⟩

/-! ## A change of health -/

/-- What a node's change of health writes: not the nodes. -/
theorem healthChanged_nodes (i : Nat) (before : Health) (s : State) : (healthChanged i before s).nodes = s.nodes := by
  have m : Moves { Allow.all with nodes := False } s (healthChanged i before s) := by
    apply healthChanged_moves i before .refl <;> trivial
  exact m.nodes_eq id

theorem postHealth_posted (hn : s.node? i = some y) :
    (postHealth i s).notices.pending.get? (52 + i) =
      some (.nodeHealth i y.health y.misses y.binding.physicalId) := by
  unfold postHealth
  rw [hn]
  exact post_same ..

theorem postHealth_device (i : Nat) (s : State) : (postHealth i s).device = s.device := by
  unfold postHealth
  split <;> rfl

theorem leaveStartup_notices (i : Nat) (s : State) : (leaveStartup i s).notices = s.notices := by
  have m : Moves { Allow.all with notices := False } s (leaveStartup i s) := leaveStartup_moves i .refl trivial
  exact m.notices_eq id

/-- R32: a change of health is posted. -/
theorem healthChanged_posted {before : Health} (hn : s.node? i = some y) (h : y.health ≠ before) :
    (healthChanged i before s).notices.pending.get? (52 + i) =
      some (.nodeHealth i y.health y.misses y.binding.physicalId) := by
  have told : (healthTold y (postHealth i s)).notices.pending.get? (52 + i) =
      some (.nodeHealth i y.health y.misses y.binding.physicalId) :=
    ((healthTold_works y _).notices (52 + i) (.inl (Nat.le_add_right ..))).trans (postHealth_posted hn)
  rw [healthChanged_other hn h]
  split
  · rw [leaveStartup_notices]; exact told
  · exact told

/-- R181: on entry into OFFLINE the node leaves the start-up set. -/
theorem healthChanged_left {before : Health} (hn : s.node? i = some y) (h : y.health ≠ before)
    (ho : y.health = .offline) : LeftStartup i s (healthChanged i before s) := by
  rw [healthChanged_other hn h, if_pos ho]
  exact ((SameStartup.of_eq (postHealth_device i s)).trans (healthTold_works y _).startup).before
    (leaveStartup_left ..)

theorem healthChanged_startup {before : Health} (hn : s.node? i = some y) (ho : y.health ≠ .offline) :
    SameStartup s (healthChanged i before s) := by
  by_cases h : y.health = before
  · rw [healthChanged_same hn h]
    exact ⟨rfl, rfl⟩
  · rw [healthChanged_other hn h, if_neg ho]
    exact (SameStartup.of_eq (postHealth_device i s)).trans (healthTold_works y _).startup

/-! ## The end of the transaction -/

/-- What a reply, the count and the next choice touch. -/
def Allow.replying : Allow := { Allow.linkOnly with host := True }

theorem replied_moves (o : Origin) (st : Status) (data : List Byte) (found : Option Nat) (x : Transaction)
    (missed : Bool) (s : State) :
    Moves .replying s (nextChosen found x missed (dropForward i (forwardReply o st data s))) := by
  apply chooseTransaction_moves found _ trivial
  apply countTransaction_moves _ _ _ trivial
  apply dropForward_moves i _ trivial trivial
  apply forwardReply_moves o st data .refl <;> trivial

theorem replied_valid (o : Origin) (st : Status) (data : List Byte) (found : Option Nat) (x : Transaction)
    (missed more : Bool) (s : State) :
    Moves .replying s (nextChosen found x missed (forwardReply o st data (noteMore i more s))) := by
  apply chooseTransaction_moves found _ trivial
  apply countTransaction_moves _ _ _ trivial
  apply forwardReply_moves o st data _ trivial trivial
  exact noteMore_moves i more .refl trivial

theorem putNode_same (i : Nat) (n : Node) (s : State) : (putNode i n s).node? i = some n := Table.get?_put_same ..

theorem node?_congr (h : t.nodes = s.nodes) (i : Nat) : t.node? i = s.node? i := by
  simp only [State.node?, h]

/-- A hunting poll (R48). -/
def Origin.isHunting : Origin → Bool
  | .hunting _ => true
  | .command _ | .firePoll | .forwarded | .routine | .correction => false

theorem isHunting_iff (o : Origin) : o.isHunting = true ↔ ∃ cmd, o = .hunting cmd := by
  cases o <;> simp [Origin.isHunting]

/-- R32: the node after a miss. -/
theorem missed_spec (n : Node) (linkRate : Fin 4) (hunting : Bool) :
    let y := n.missed linkRate hunting
    y.binding = n.binding ∧ y.misses = min 255 (n.misses + 1) ∧
      y.health =
        (if n.health = .online ∧ 2 ≤ y.misses then .suspect
         else if (n.health = .suspect ∨ n.health = .mismatch) ∧ 5 ≤ y.misses then .offline
         else n.health) ∧
      y.accepted = n.accepted ∧
      (y.health = .offline → n.health ≠ .offline → y.rate = linkRate) ∧
      ((y.health ≠ .offline ∨ n.health = .offline) →
        (hunting = true → y.rate = n.rate + 1) ∧ (hunting = false → y.rate = n.rate)) := by
  intro y
  refine ⟨rfl, rfl, ?_, rfl, fun h hn => if_pos ⟨h, hn⟩, fun h => ?_⟩
  · show n.health.afterMiss (min 255 (n.misses + 1)) = _
    unfold Health.afterMiss
    cases hh : n.health <;> simp [y, Node.missed]
  · have not : ¬(y.health = .offline ∧ n.health ≠ .offline) := fun ⟨ho, hn⟩ => h.elim (fun h => h ho) hn
    have rate : y.rate = if hunting then n.rate + 1 else n.rate := if_neg not
    exact ⟨fun hh => rate.trans (if_pos hh), fun hh => rate.trans (if_neg (by rw [hh]; exact Bool.false_ne_true))⟩

/-! ## The items of a valid answer -/

/-- R35: a segment or a batch out of step leaves no accepted sequence and no assembly. -/
def Node.outOfStep (n : Node) : Node := { n with assembly := none, accepted := none }

/-- R36: a segment added to the entries held. -/
def Node.added (n : Node) (held : List SnapEntry) (number : Nat) (last : Bool) (es : List SnapEntry) : Node :=
  if last then { n with assembly := none, accepted := some (number % 16) }
  else { n with assembly := some { entries := held ++ entriesOf n.binding.target es, expected := number + 1 },
                accepted := some (number % 16) }

/-- R35: the node after a snapshot segment. -/
def Node.afterSegment (n : Node) (number : Nat) (last : Bool) (es : List SnapEntry) : Node :=
  if number = 0 then n.added [] 0 last es
  else
    match n.assembly with
    | none => n.outOfStep
    | some a =>
      if number = a.expected then n.added a.entries number last es
      else if number + 1 = a.expected then n
      else n.outOfStep

/-- R33, R35: the node after a batch that is not fresh. -/
def Node.afterBatch (n : Node) (number : Nat) : Node :=
  if n.assembly.isSome then n.outOfStep
  else if n.wantsSnapshot then n
  else if n.accepted = some number then n
  else { n with accepted := some number }

/-- The node after the items of a valid answer. -/
def Node.afterItems (n : Node) (r : Report) (items : Items) : Node :=
  match items with
  | .segment es => n.afterSegment r.number r.last es
  | .events _ => if r.fresh then { n with accepted := some (r.number % 16) } else n.afterBatch (r.number % 16)

/-- The items of an answer leave node y: its entry is set, and then the owning block works on what is handed to it. -/
def ItemsTaken (i : Nat) (y : Node) (s t : State) : Prop :=
  ∃ u, u = s.withNodes u.nodes ∧ u.node? i = some y ∧ Works .all u t

theorem modifyNode_eq {f : Node → Node} (hn : s.node? i = some n) : modifyNode i f s = putNode i (f n) s := by
  unfold modifyNode
  rw [hn]

theorem setAssembly_taken (a : Option Assembly) (accepted : Option Nat) (hn : s.node? i = some n) :
    setAssembly i a accepted s = s.withNodes (setAssembly i a accepted s).nodes ∧
      (setAssembly i a accepted s).node? i = some { n with assembly := a, accepted := accepted } := by
  rw [setAssembly, modifyNode_eq hn]
  exact ⟨rfl, putNode_same ..⟩

theorem ItemsTaken.still (hn : s.node? i = some n) : ItemsTaken i n s s := ⟨s, rfl, hn, .refl⟩

theorem ItemsTaken.set {a : Option Assembly} {accepted : Option Nat} (hn : s.node? i = some n)
    (h : Works .all (setAssembly i a accepted s) t) :
    ItemsTaken i { n with assembly := a, accepted := accepted } s t :=
  ⟨_, (setAssembly_taken a accepted hn).1, (setAssembly_taken a accepted hn).2, h⟩

theorem acceptBatch_taken (number : Nat) (es : List FieldEvent) (m : Node) (hn : s.node? i = some n) :
    ItemsTaken i { n with accepted := some number } s (acceptBatch i m number es s) := by
  refine ⟨modifyNode i (fun n => { n with accepted := some number }) s, ?_, ?_, ?_⟩
  · rw [modifyNode_eq hn]; rfl
  · rw [modifyNode_eq hn]; exact putNode_same ..
  · exact .foldl es (fun e t h => handEvent_works trivial m.binding.target e h) .refl

theorem addSegment_taken (held : List SnapEntry) (number : Nat) (last : Bool) (es : List SnapEntry)
    (hn : s.node? i = some n) :
    ItemsTaken i (n.added held number last es) s (addSegment i n held number last es s) := by
  unfold addSegment Node.added
  dsimp only
  split
  · exact .set hn (handSnapshot_works trivial _ _ .refl)
  · exact .set hn .refl

theorem takeSegment_taken (number : Nat) (last : Bool) (es : List SnapEntry) (hn : s.node? i = some n) :
    ItemsTaken i (n.afterSegment number last es) s (takeSegment i n number last es s) := by
  unfold takeSegment Node.afterSegment
  split
  · exact addSegment_taken _ _ _ _ hn
  · cases n.assembly with
    | none => exact .set hn .refl
    | some a =>
      dsimp only
      split
      · exact addSegment_taken _ _ _ _ hn
      · split
        · exact .still hn
        · exact .set hn .refl

theorem takeBatch_taken (number : Nat) (es : List FieldEvent) (hn : s.node? i = some n) :
    ItemsTaken i (n.afterBatch number) s (takeBatch i n number es s) := by
  unfold takeBatch Node.afterBatch
  split
  · exact .set hn .refl
  · split
    · exact .still hn
    · split
      · exact .still hn
      · exact acceptBatch_taken number es n hn

/-- R33 to R37: the items of a valid answer. -/
theorem takeItems_taken (r : Report) (items : Items) (hn : s.node? i = some n) :
    ItemsTaken i (n.afterItems r items) s (takeItems i r items s) := by
  unfold takeItems Node.afterItems
  rw [hn]
  dsimp only
  split
  · exact takeSegment_taken _ _ _ hn
  · split
    · exact acceptBatch_taken _ _ _ hn
    · exact takeBatch_taken _ _ hn

/-! ## What the items leave of the node -/

theorem readItems_segment {seg : List SnapEntry} (h : readItems n.kind r = .segment seg) :
    r.fresh = true ∧ n.kind.hasSnapshot = true := by
  unfold readItems at h
  split at h
  · next hs => exact Bool.and_eq_true_iff.mp hs
  · cases h

theorem readItems_events {es : List FieldEvent} (h : readItems n.kind r = .events es) :
    ¬(r.fresh = true ∧ n.kind.hasSnapshot = true) := by
  unfold readItems at h
  split at h
  · split at h <;> cases h
  · next hs => exact fun hk => hs (Bool.and_eq_true_iff.mpr hk)

/-- R33: a batch not had before is accepted. -/
theorem afterItems_accepted {es : List FieldEvent} (h : NewBatch n r es) :
    (n.afterItems r (readItems n.kind r)).accepted = some (r.number % 16) := by
  obtain ⟨hitems, ⟨hfresh, hassembly, hwants, hnew⟩ | ⟨hfresh, _⟩⟩ := h
  · simp [hitems, Node.afterItems, hfresh, Node.afterBatch, hassembly, hwants, hnew]
  · simp [hitems, Node.afterItems, hfresh]

theorem added_holds (held : List SnapEntry) (number : Nat) (last : Bool) (es : List SnapEntry) :
    (n.added held number last es).accepted = some (number % 16) ∧
      (n.added held number last es).assembly =
        if last then none
        else some { entries := held ++ entriesOf n.binding.target es, expected := number + 1 } := by
  unfold Node.added
  split <;> exact ⟨rfl, rfl⟩

/-- R35, R36: what a valid answer of a kind with snapshots leaves of the node. -/
theorem afterItems_segmentTaken (n : Node) (r : Report) :
    SegmentTaken n r (n.afterItems r (readItems n.kind r)) := by
  refine ⟨fun seg hseg => ?_, fun hfresh hsnap hopen => ?_⟩
  · rw [hseg]
    dsimp only [Node.afterItems, Node.afterSegment]
    refine ⟨fun h0 => ?_, fun h0 ha => ?_, fun a h0 ha => ⟨fun he => ?_, fun he => ?_, fun hne hne' => ?_⟩⟩
    · rw [if_pos h0, h0]
      exact added_holds [] 0 r.last seg
    · rw [if_neg h0, ha]
      exact ⟨rfl, rfl⟩
    · rw [if_neg h0, ha]
      dsimp only
      rw [if_pos he]
      exact added_holds a.entries r.number r.last seg
    · rw [if_neg h0, ha]
      dsimp only
      rw [if_neg (by omega), if_pos he]
      exact ⟨rfl, ha⟩
    · rw [if_neg h0, ha]
      dsimp only
      rw [if_neg hne, if_neg hne']
      exact ⟨rfl, rfl⟩
  · cases hitems : readItems n.kind r with
    | segment seg => exact absurd (readItems_segment hitems).1 (by rw [hfresh]; exact Bool.false_ne_true)
    | events es =>
      dsimp only [Node.afterItems]
      rw [if_neg (by rw [hfresh]; exact Bool.false_ne_true)]
      unfold Node.afterBatch
      cases ha : n.assembly with
      | some a => exact ⟨rfl, rfl⟩
      | none =>
        have hnone := hopen.resolve_left (by rw [ha]; exact Bool.false_ne_true)
        have wants : n.wantsSnapshot = true := by simp [Node.wantsSnapshot, hsnap, hnone]
        rw [wants]
        exact ⟨hnone, ha⟩

/-! ## Nothing handed -/

theorem addSegment_open (held : List SnapEntry) (number : Nat) (es : List SnapEntry) (s : State) :
    addSegment i n held number false es s = setAssembly i
      (some { entries := held ++ entriesOf n.binding.target es, expected := number + 1 })
      (some (number % 16)) s := rfl

theorem setAssembly_frame (i : Nat) (a : Option Assembly) (accepted : Option Nat) (s : State) :
    setAssembly i a accepted s = s.withNodes (setAssembly i a accepted s).nodes := by
  unfold setAssembly modifyNode
  split <;> rfl

/-- R33, R35: what completes no snapshot and brings no new batch touches the node table alone. -/
theorem takeItems_nothing (hn : s.node? i = some n) (h : NothingHanded n r) :
    takeItems i r (readItems n.kind r) s = s.withNodes (takeItems i r (readItems n.kind r) s).nodes := by
  obtain ⟨hsnap, hwhole, hbatch⟩ := h
  unfold takeItems
  rw [hn]
  cases hitems : readItems n.kind r with
  | segment seg =>
    dsimp only
    unfold takeSegment
    split
    · next h0 =>
      cases hl : r.last with
      | true =>
        exact absurd ⟨hl, seg, [], hitems, rfl, .inl ⟨h0, rfl⟩⟩ (hwhole _)
      | false => exact setAssembly_frame ..
    · next h0 =>
      split
      · exact setAssembly_frame ..
      · next a ha =>
        split
        · next he =>
          cases hl : r.last with
          | true =>
            exact absurd ⟨hl, seg, a.entries, hitems, rfl, .inr ⟨h0, a, ha, he, rfl⟩⟩ (hwhole _)
          | false => exact setAssembly_frame ..
        · split
          · rfl
          · exact setAssembly_frame ..
  | events es =>
    have hfresh : r.fresh = false := eq_false_of_ne_true fun hf => readItems_events hitems ⟨hf, hsnap⟩
    dsimp only
    rw [if_neg (by rw [hfresh]; exact Bool.false_ne_true)]
    unfold takeBatch
    split
    · exact setAssembly_frame ..
    · next ha =>
      split
      · rfl
      · next hw =>
        split
        · rfl
        · next hacc =>
          have hnone : n.assembly = none := by simpa using ha
          exact absurd ⟨hitems, .inl ⟨hfresh, hnone, eq_false_of_ne_true hw, hacc⟩⟩ (hbatch es)

end Sys2Proof.Machine
end

section
/-! The three endings of a transaction (R31, R32): a miss, an answer of another kind, a valid answer. -/

namespace Sys2Proof.Machine

variable {s t u v : State} {i : Nat} {n y : Node} {x : Transaction} {r : Report}

/-- A node that has answered validly (R32). -/
def Node.answered (n : Node) (rate : Fin 4) : Node := { n with health := .online, misses := 0, rate := rate }

theorem afterItems_keeps (n : Node) (r : Report) (items : Items) :
    let y := n.afterItems r items
    y.binding = n.binding ∧ y.health = n.health ∧ y.misses = n.misses ∧ y.rate = n.rate := by
  have added : ∀ held number last es, let y := n.added held number last es
      y.binding = n.binding ∧ y.health = n.health ∧ y.misses = n.misses ∧ y.rate = n.rate := by
    intro held number last es
    dsimp only [Node.added]
    split <;> exact ⟨rfl, rfl, rfl, rfl⟩
  dsimp only [Node.afterItems]
  split
  · unfold Node.afterSegment
    split
    · exact added ..
    · split
      · exact ⟨rfl, rfl, rfl, rfl⟩
      · split
        · exact added ..
        · split <;> exact ⟨rfl, rfl, rfl, rfl⟩
  · split
    · exact ⟨rfl, rfl, rfl, rfl⟩
    · unfold Node.afterBatch
      split
      · exact ⟨rfl, rfl, rfl, rfl⟩
      · split
        · exact ⟨rfl, rfl, rfl, rfl⟩
        · split <;> exact ⟨rfl, rfl, rfl, rfl⟩

/-- The state of a transaction's end once the node table has its new entry. -/
def entered (i : Nat) (y : Node) (delivered : Bool) (s : State) : State := putNode i y (endDelivery delivered (idled s))

theorem idled_moves {A : Allow} (hA : A.link) : Moves A s (idled s) := .link _ hA id .refl

theorem entered_node (i : Nat) (y : Node) (delivered : Bool) (s : State) :
    (entered i y delivered s).node? i = some y := putNode_same ..

theorem entered_frame (i : Nat) (y : Node) (delivered : Bool) (s : State) :
    entered i y delivered s =
      (s.withLink (entered i y delivered s).link).withNodes (entered i y delivered s).nodes := by
  unfold entered endDelivery
  split <;> rfl

theorem entered_startup (i : Nat) (y : Node) (delivered : Bool) (s : State) :
    SameStartup s (entered i y delivered s) := by
  rw [entered_frame]
  exact ⟨rfl, rfl⟩

/-! ## A miss -/

theorem takeMiss_eq (i : Nat) (n : Node) (x : Transaction) (s : State) :
    takeMiss i n x (idled s) =
      dropForward i (forwardReply x.origin .nodeTimeout []
        (healthChanged i n.health (entered i (n.missed s.link.rate x.origin.isHunting) false s))) := by
  obtain ⟨node, physicalId, origin⟩ := x
  cases origin <;> rfl

theorem takeOtherKind_eq (i : Nat) (n : Node) (x : Transaction) (r : Report) (s : State) :
    takeOtherKind i n x r (idled s) =
      dropForward i (forwardReply x.origin .nodeOffline [] (noteMore i r.more
        (healthChanged i n.health
          (entered i { n with health := .mismatch, misses := n.missesAfterOther } false s)))) := rfl

/-- What a node's change of health and the reply to it leave of the node, its notice and the start-up set. -/
structure HealthTaken (i : Nat) (n y : Node) (s t : State) : Prop where
  node : t.node? i = some y
  posted : y.health ≠ n.health → t.notices.pending.get? (52 + i) =
    some (.nodeHealth i y.health y.misses y.binding.physicalId)
  left : y.health = .offline → n.health ≠ .offline → LeftStartup i s t
  settings : t.settings = s.settings
  image : t.store.settings = s.store.settings
  roster : t.handover.roster = s.handover.roster

theorem healthTaken (y : Node) (delivered : Bool) {A : Allow}
    (m : Moves A (healthChanged i n.health (entered i y delivered s)) t) (hA : A = .replying) :
    HealthTaken i n y s t := by
  subst hA
  have hn := entered_node i y delivered s
  have mh : Moves { Allow.all with settings := False, roster := False, image := False } (entered i y delivered s)
      (healthChanged i n.health (entered i y delivered s)) := by
    apply healthChanged_moves i n.health .refl <;> trivial
  have frame := entered_frame i y delivered s
  exact
    { node := by rw [node?_congr (m.nodes_eq id), node?_congr (healthChanged_nodes ..)]; exact hn
      posted := fun h => by rw [m.notices_eq id]; exact healthChanged_posted hn h
      left := fun ho hno => (entered_startup i y delivered s).before
        ((healthChanged_left hn (fun e => hno (e.symm.trans ho)) ho).after (.of_eq (m.device_eq id)))
      settings := (m.settings_eq id).trans ((mh.settings_eq id).trans (by rw [frame]; rfl))
      image := (m.image_eq id).trans ((mh.image_eq id).trans (by rw [frame]; rfl))
      roster := (m.roster_eq id).trans ((mh.roster_eq id).trans (by rw [frame]; rfl)) }

theorem takeMiss_taken (s : State) :
    HealthTaken i n (n.missed s.link.rate x.origin.isHunting) s
      (nextChosen none x true (takeMiss i n x (idled s))) := by
  rw [takeMiss_eq]
  exact healthTaken _ false (replied_moves ..) rfl

theorem replied_noted (o : Origin) (st : Status) (data : List Byte) (found : Option Nat) (x : Transaction)
    (missed more : Bool) (s : State) :
    Moves .replying s (nextChosen found x missed (dropForward i (forwardReply o st data (noteMore i more s)))) :=
  (noteMore_moves i more .refl trivial).trans (replied_moves ..)

theorem takeOtherKind_taken (s : State) :
    HealthTaken i n { n with health := .mismatch, misses := n.missesAfterOther } s
      (nextChosen (foundBy i x) x false (takeOtherKind i n x r (idled s))) := by
  rw [takeOtherKind_eq]
  exact healthTaken _ false (replied_noted ..) rfl

/-! ## A valid answer -/

/-- The believed rate after a valid answer (R48). -/
def answeredRate (s : State) (x : Transaction) (n : Node) : Fin 4 := if x.code = rateCode then s.link.rate else n.rate

/-- The state of a valid answer before its state fields are taken: the node is ONLINE and out of the start-up set. -/
def onlined (i : Nat) (n : Node) (x : Transaction) (s : State) : State :=
  leaveStartup i (healthChanged i n.health (entered i (n.answered (answeredRate s x n)) true s))

theorem onlined_nodes (i : Nat) (n : Node) (x : Transaction) (s : State) :
    (onlined i n x s).nodes = (entered i (n.answered (answeredRate s x n)) true s).nodes := by
  have m : Moves { Allow.all with nodes := False } (healthChanged i n.health
      (entered i (n.answered (answeredRate s x n)) true s)) (onlined i n x s) :=
    leaveStartup_moves i .refl trivial
  exact (m.nodes_eq id).trans (healthChanged_nodes ..)

theorem onlined_node (i : Nat) (n : Node) (x : Transaction) (s : State) :
    (onlined i n x s).node? i = some (n.answered (answeredRate s x n)) := by
  rw [node?_congr (onlined_nodes i n x s)]
  exact entered_node ..

theorem onlined_left (i : Nat) (n : Node) (x : Transaction) (s : State) : LeftStartup i s (onlined i n x s) :=
  ((entered_startup i _ true s).trans (healthChanged_startup (entered_node i _ true s) (by exact nofun))).before
    (leaveStartup_left ..)

theorem onlined_posted (h : n.health ≠ .online) :
    (onlined i n x s).notices.pending.get? (52 + i) = some (.nodeHealth i .online 0 n.binding.physicalId) := by
  rw [onlined, leaveStartup_notices]
  exact healthChanged_posted (entered_node i (n.answered (answeredRate s x n)) true s) (Ne.symm h)

/-- A node that comes ONLINE and is neither a PROBE nor a FIRE node tells no block. -/
theorem healthChanged_untold {A : Allow} {before : Health} (hA : A.notices) (hn : s.node? i = some y)
    (h : ∀ v, healthTold y v = v) (ho : y.health ≠ .offline) : Moves A s (healthChanged i before s) := by
  by_cases hb : y.health = before
  · rw [healthChanged_same hn hb]
    exact .refl
  · rw [healthChanged_other hn hb, if_neg ho, h]
    unfold postHealth
    rw [hn]
    exact .post _ hA .refl

/-- What a node that comes ONLINE leaves of the blocks where it is neither a PROBE nor a FIRE node. -/
def Allow.onlining : Allow := { Allow.replying with device := True, notices := True, nodes := True }

theorem onlined_untold (hn : ∀ v, healthTold (n.answered (answeredRate s x n)) v = v) : Moves .onlining s (onlined i n x s) := by
  have hdelivered : Moves .onlining s (endDelivery true (idled s)) :=
    endDelivery_moves true (idled_moves trivial) trivial
  have hentered : Moves .onlining s (entered i (n.answered (answeredRate s x n)) true s) :=
    putNode_moves i _ hdelivered trivial
  exact leaveStartup_moves i
    (hentered.trans (healthChanged_untold trivial (entered_node ..) hn (by exact nofun))) trivial

/-! ## What a valid answer leaves -/

/-- A kind with snapshots: what its change of health tells no block, and, but for the HATCH node, what its state
fields tell none. -/
theorem healthTold_snapshot (h : n.kind.hasSnapshot = true) (v : State) : healthTold n v = v := by
  unfold Node.kind at h
  unfold healthTold
  generalize n.binding.target = g at h
  cases g with
  | hatch => rfl
  | shelf => rfl
  | rack => rfl
  | probe => cases h
  | fire => cases h
  | air => cases h
  | terminal => cases h

theorem handState_snapshot (h : n.kind.hasSnapshot = true) (hh : n.kind ≠ .hatch) (code : Nat) (ns : NodeState)
    (v : State) : handState i n code ns v = v := by
  unfold Node.kind at h hh
  unfold handState
  generalize n.binding.target = g at h hh
  cases g with
  | hatch => exact absurd rfl hh
  | shelf => rfl
  | rack => rfl
  | probe => cases h
  | fire => cases h
  | air => cases h
  | terminal => cases h

/-- R32 to R37: what a valid answer leaves of its node, of the start-up set and of the settings. -/
structure ValidTaken (i : Nat) (n y : Node) (s t : State) : Prop where
  node : t.node? i = some y
  left : LeftStartup i s t
  settings : t.settings = s.settings
  image : t.store.settings = s.store.settings
  posted : n.health ≠ .online → t.notices.pending.get? (52 + i) = some (.nodeHealth i .online 0 n.binding.physicalId)

/-- The node after a valid answer and its items. -/
def Node.afterValid (n : Node) (s : State) (x : Transaction) (r : Report) : Node :=
  (n.answered (answeredRate s x n)).afterItems r (readItems n.kind r)

/-- The node's block is told of a valid answer's state fields, and then of its items. -/
def handed (i : Nat) (n : Node) (x : Transaction) (r : Report) (ns : NodeState) (s : State) : State :=
  takeItems i r (readItems n.kind r) (handState i n x.code ns (onlined i n x s))

theorem takeValid_eq (i : Nat) (n : Node) (x : Transaction) (bytes : List Byte) (r : Report) (ns : NodeState) (s : State) :
    takeValid i n x bytes r ns (readItems n.kind r) (idled s) =
      forwardReply x.origin .ok (reportForHost bytes) (noteMore i r.more (handed i n x r ns s)) := rfl

theorem handState_onlined (i : Nat) (n : Node) (x : Transaction) (ns : NodeState) (s : State) :
    Works ⟨True, False, True⟩ (onlined i n x s) (handState i n x.code ns (onlined i n x s)) :=
  handState_works trivial trivial i n x.code ns .refl

theorem handState_node (i : Nat) (n : Node) (x : Transaction) (ns : NodeState) (s : State) :
    (handState i n x.code ns (onlined i n x s)).node? i = some (n.answered (answeredRate s x n)) := by
  rw [node?_congr (handState_onlined i n x ns s).nodes]
  exact onlined_node ..

theorem takeValid_taken (bytes : List Byte) (ns : NodeState) (s : State) :
    ValidTaken i n (n.afterValid s x r) s
      (nextChosen (foundBy i x) x false (takeValid i n x bytes r ns (readItems n.kind r) (idled s))) := by
  have keeps : Moves { Allow.all with settings := False, image := False } s
      (nextChosen (foundBy i x) x false (takeValid i n x bytes r ns (readItems n.kind r) (idled s))) := by
    apply chooseTransaction_moves _ _ trivial
    apply countTransaction_moves _ _ _ trivial
    apply takeValid_moves i n x bytes r ns _ (idled_moves trivial) <;> trivial
  have works := handState_onlined i n x ns s
  have replied := replied_valid x.origin .ok (reportForHost bytes) (foundBy i x) x false r.more (i := i)
    (handed i n x r ns s)
  obtain ⟨u, hframe, hnode, hu⟩ := takeItems_taken r (readItems n.kind r) (handState_node i n x ns s)
  rw [takeValid_eq] at keeps ⊢
  refine ⟨?_, ?_, keeps.settings_eq id, keeps.image_eq id, fun h => ?_⟩
  · exact (node?_congr (replied.nodes_eq id) i).trans ((node?_congr hu.nodes i).trans hnode)
  · have startup : SameStartup u (handed i n x r ns s) := hu.startup
    have frame : SameStartup (handState i n x.code ns (onlined i n x s)) u := by rw [hframe]; exact ⟨rfl, rfl⟩
    exact (onlined_left i n x s).after
      (((works.startup.trans frame).trans startup).trans (.of_eq (replied.device_eq id)))
  · have stands : ∀ k, 52 ≤ k → (handed i n x r ns s).notices.pending.get? k =
        (onlined i n x s).notices.pending.get? k := fun k hk =>
      (hu.notices k (.inl hk)).trans ((by rw [hframe]; rfl : _ = _).trans (works.notices k (.inl hk)))
    rw [replied.notices_eq id]
    exact (stands _ (Nat.le_add_right ..)).trans (onlined_posted h)

/-- R33, R35: a valid answer that hands its block nothing leaves the hatch's contents list, and but for the HATCH
node the Custody Table and the rack. -/
theorem takeValid_untold (bytes : List Byte) (ns : NodeState) (h : NothingHanded n r) :
    let t := nextChosen (foundBy i x) x false (takeValid i n x bytes r ns (readItems n.kind r) (idled s))
    (n.kind ≠ .hatch → t.custody = s.custody ∧ t.rack = s.rack) ∧ t.hatch.contents = s.hatch.contents := by
  obtain ⟨hsnap, hwhole, hbatch⟩ := h
  have nothing : NothingHanded (n.answered (answeredRate s x n)) r := ⟨hsnap, hwhole, hbatch⟩
  have untold : Moves .onlining s (onlined i n x s) := onlined_untold (healthTold_snapshot hsnap)
  have items : handed i n x r ns s =
      (handState i n x.code ns (onlined i n x s)).withNodes (handed i n x r ns s).nodes :=
    takeItems_nothing (n := n.answered (answeredRate s x n)) (handState_node i n x ns s) nothing
  have replied := replied_valid x.origin .ok (reportForHost bytes) (foundBy i x) x false r.more (i := i)
    (handed i n x r ns s)
  rw [takeValid_eq]
  refine ⟨fun hk => ?_, ?_⟩
  · have still : handed i n x r ns s = (onlined i n x s).withNodes (handed i n x r ns s).nodes :=
      items.trans (by rw [handState_snapshot hsnap hk])
    refine ⟨(replied.custody_eq id).trans ?_, (replied.rack_eq id).trans ?_⟩
    · rw [still]; exact untold.custody_eq id
    · rw [still]; exact untold.rack_eq id
  · have contents : (handed i n x r ns s).hatch.contents = s.hatch.contents := by
      rw [items]
      exact ((handState_onlined i n x ns s).contents id).trans
        (congrArg Hatch.contents (untold.hatch_eq id))
    exact (congrArg Hatch.contents (replied.hatch_eq id)).trans contents

/-- R48: a hunting poll whose node is owed a rate correction is followed by it. -/
theorem chooseTransaction_corrects (hn : s.node? i = some y) (hp : s.link.pendingBroadcast = none)
    (hh : y.health ≠ .offline) (hr : y.rate ≠ s.link.rate) :
    chooseTransaction (some i) s = beginAddressed i .correction rateCode [byteOf s.link.rate.val] s := by
  have owes : owesCorrection s y = true := by simp [owesCorrection, hh, hr]
  unfold chooseTransaction
  rw [hp]
  dsimp only
  rw [hn]
  exact if_pos owes

theorem takeValid_corrects (bytes : List Byte) (ns : NodeState) (hc : x.counted = false)
    (hp : s.link.pendingBroadcast = none) (ho : x.origin.isHunting = true)
    (hn : (nextChosen (foundBy i x) x false
      (takeValid i n x bytes r ns (readItems n.kind r) (idled s))).node? i = some y)
    (hh : y.health ≠ .offline) (hr : y.rate ≠ s.link.rate) :
    Begins ((nextChosen (foundBy i x) x false
        (takeValid i n x bytes r ns (readItems n.kind r) (idled s))).withLink s.link)
      (nextChosen (foundBy i x) x false (takeValid i n x bytes r ns (readItems n.kind r) (idled s)))
      i .correction 0x40 [byteOf s.link.rate.val] := by
  have unpolled := takeValid_unpolled i n x bytes r ns (readItems n.kind r) (idled s)
  have chosen := nextChosen_link (foundBy i x) x false
    (takeValid i n x bytes r ns (readItems n.kind r) (idled s))
  have found : foundBy i x = some i := by
    obtain ⟨cmd, e⟩ := (isHunting_iff x.origin).mp ho
    unfold foundBy
    rw [e]
  generalize takeValid i n x bytes r ns (readItems n.kind r) (idled s) = v at *
  have nodes := chosen.nodes_eq id
  have hv : v.node? i = some y := (node?_congr nodes i).symm.trans hn
  simp only [FieldLink.unpolled, FieldLink.window, Prod.mk.injEq] at unpolled
  obtain ⟨⟨hrate, hpending, -, -, -⟩, hcount⟩ := unpolled
  have hrate : v.link.rate = s.link.rate := hrate
  have corrects : nextChosen (foundBy i x) x false v =
      beginAddressed i .correction rateCode [byteOf v.link.rate.val] v := by
    unfold nextChosen
    rw [countTransaction_uncounted hc, found]
    exact chooseTransaction_corrects hv (hpending.trans hp) hh (by rw [hrate]; exact hr)
  have begun := beginAddressed_begins .correction rateCode [byteOf v.link.rate.val] hv
  rw [← corrects, hrate] at begun
  exact begun.congr nodes hrate.symm hcount.symm rfl

end Sys2Proof.Machine

namespace Sys2Proof

open Machine

/-- Settles O34: what a miss, an answer of another kind and a valid answer leave of the node, the start-up set, the
blocks and the settings. -/
theorem transactionEndSetsHealth : Obligations.TransactionEndSetsHealth := by
  intro s x left i n hup ha hx hn
  dsimp only
  refine ⟨fun c hc => ?_, fun report r hr hid hk => ?_, fun report r hv => ?_⟩
  · have takes : Takes c s (nextChosen none x true (takeMiss i n x (idled (startEvent s)))) := by
      rcases hc with rfl | ⟨report, rfl, hmiss⟩
      · exact takes_window hup ha hx hn
      · exact takes_missed hup ha hx hn hmiss
    have taken : HealthTaken i n (n.missed s.link.rate x.origin.isHunting) (startEvent s) _ :=
      takeMiss_taken (startEvent s)
    obtain ⟨hbinding, hmisses, hhealth, haccepted, hrate, hstays⟩ :=
      missed_spec n s.link.rate x.origin.isHunting
    refine ⟨_, _, takes, taken.node, hbinding, hmisses, hhealth, haccepted,
      fun ho hno => ⟨hrate ho hno, taken.left ho hno⟩, fun h => ⟨fun hh => ?_, fun hh => ?_⟩,
      fun _ h => taken.posted h, ⟨taken.settings, taken.image⟩, taken.roster⟩
    · exact (hstays h).1 ((isHunting_iff _).mpr hh)
    · exact (hstays h).2 (eq_false_of_ne_true fun e => hh ((isHunting_iff _).mp e))
  · have taken : HealthTaken i n { n with health := .mismatch, misses := n.missesAfterOther } (startEvent s) _ :=
      takeOtherKind_taken (r := r) (x := x) (startEvent s)
    exact ⟨_, _, takes_otherKind hup ha hx hn hr hid hk, taken.node, rfl, rfl, rfl, rfl, rfl,
      fun _ h => taken.posted h, ⟨taken.settings, taken.image⟩, taken.roster⟩
  · have taken : ValidTaken i n (n.afterValid (startEvent s) x r) (startEvent s) _ :=
      takeValid_taken report ((readState n.kind r.state).getD .none) (startEvent s)
    obtain ⟨hbinding, hhealth, hmisses, hrate⟩ :=
      afterItems_keeps (n.answered (answeredRate s x n)) r (readItems n.kind r)
    refine ⟨_, _, takes_valid hv, taken.node, hhealth, hmisses, hbinding, hrate,
      fun es he => afterItems_accepted (n := n.answered (answeredRate s x n)) he,
      afterItems_segmentTaken (n.answered (answeredRate s x n)) r,
      fun h => takeValid_untold report _ h, taken.left, ⟨taken.settings, taken.image⟩,
      fun _ _ _ _ h => ?_, fun hh hc hp hne => ?_⟩
    · rw [show (n.afterValid (startEvent s) x r).health = .online from hhealth,
        show (n.afterValid (startEvent s) x r).misses = 0 from hmisses]
      refine taken.posted fun e => h ?_
      rw [e]
      exact hhealth
    · exact takeValid_corrects (s := startEvent s) report _ hc hp ((isHunting_iff _).mpr hh) taken.node
        (by rw [show (n.afterValid (startEvent s) x r).health = .online from hhealth]; exact nofun) hne

end Sys2Proof
end

section
/-! Binding and unbinding (R26 to R29): the entry, the queue, the cursor, the start-up set, and the owning block. -/

namespace Sys2Proof.Machine

variable {s t u v : State} {i : Nat} {n y : Node} {g : Target} {tag : Byte} {st : Status} {data : List Byte}

/-! ## The probes, the fire record and the hatch of a binding -/

/-- What a binding or an unbinding leaves of the tables and of the settings. -/
def Allow.bindings : Allow :=
  { Allow.all with host := False, nodes := False, settings := False, roster := False, image := False }

theorem bindTold_kept (i : Nat) (g : Target) (s : State) : Moves .bindings s (bindTold i g s) := by
  apply bindTold_moves i g .refl <;> trivial

theorem unbindTold_kept (i : Nat) (g : Target) (s : State) : Moves .bindings s (unbindTold i g s) := by
  apply unbindTold_moves i g .refl <;> trivial

/-- A reading worked out afresh leaves the probes. -/
theorem refreshReading_probes (z : Fin 9) (s : State) :
    (refreshReading z s).climate.probes = s.climate.probes := by
  unfold refreshReading
  dsimp only
  split
  · rfl
  · split
    · rw [evaluateZone, takeZoneClimate_climate]; rfl
    · rfl

theorem setDisagree_probes (z : Fin 9) (flag : Bool) (s : State) :
    (setDisagree z flag s).climate.probes = s.climate.probes := by
  unfold setDisagree
  dsimp only
  split
  · rfl
  · split
    · exact refreshReading_probes z _
    · exact refreshReading_probes z _

theorem resetAgreement_probes (z : Fin 9) (s : State) :
    (resetAgreement z s).climate.probes = s.climate.probes := setDisagree_probes z false _

theorem probeTold_probes (z : Fin 9) (i : Nat) (p : Option Probe) (s : State) :
    (refreshReading z (resetAgreement z (setProbe i p s))).climate.probes = s.climate.probes.set i p := by
  rw [refreshReading_probes, resetAgreement_probes]
  rfl

/-- The hatch's work that touches neither the air nor the report. -/
def Allow.butAir : Allow := { Allow.all with air := False }

theorem setHatchAir_air (a : Air) (e : HatchEvent) (s : State) : (setHatchAir a e s).hatch.air = a := by
  have m : Moves .butAir (setAirField a s) (setHatchAir a e s) := by
    unfold setHatchAir
    apply updateWetDwell_moves (postHatchAir_moves e (updateLocks_moves .refl trivial trivial) trivial); trivial
  exact congrArg id (m.air_eq id)

/-- The air and the report are as they were before the four commands and the grant evaluation of a binding. -/
theorem commanded_air (s : State) :
    let t := grantEval (postHatchCommands (updateLocks s))
    t.hatch.report = s.hatch.report ∧ t.hatch.air = s.hatch.air := by
  have works : Works .none s (grantEval (postHatchCommands (updateLocks s))) :=
    grantEval_works (postHatchCommands_works (updateLocks_works .refl))
  have m : Moves .butAir s (grantEval (postHatchCommands (updateLocks s))) := by
    apply grantEval_moves (postHatchCommands_moves (updateLocks_moves .refl trivial trivial) trivial) <;> trivial
  exact ⟨works.report id, m.air_eq id⟩

/-- The air WET, with what its change brings. -/
def wetted (s : State) : State := if s.hatch.air = .dry then setHatchAir .wet .wentWet s else s

theorem wetted_air (s : State) : (wetted s).hatch.report = s.hatch.report ∧ (wetted s).hatch.air = .wet := by
  unfold wetted
  split
  · have works : Works .none s (setHatchAir .wet .wentWet s) := setHatchAir_works _ _ .refl
    exact ⟨works.report id, setHatchAir_air ..⟩
  · next h =>
    refine ⟨rfl, ?_⟩
    cases ha : s.hatch.air with
    | wet => rfl
    | dry => exact absurd ha h

theorem bindHatch_eq (s : State) : bindHatch s =
    grantEval (postHatchCommands (updateLocks (wetted (s.withHatch { s.hatch with report := none })))) := rfl

/-- R146: a new HATCH node has not reported, and the air is WET. -/
theorem bindHatch_lost (s : State) : (bindHatch s).hatch.report = none ∧ (bindHatch s).hatch.air = .wet := by
  rw [bindHatch_eq]
  obtain ⟨wreport, wair⟩ := wetted_air (s.withHatch { s.hatch with report := none })
  generalize wetted (s.withHatch { s.hatch with report := none }) = w at wreport wair ⊢
  obtain ⟨hreport, hair⟩ := commanded_air w
  exact ⟨hreport.trans wreport, hair.trans wair⟩

/-! ## The node bound to a target -/

theorem Table.mem_put {α : Type} {x : Table α} {k : Nat} {a : α} {p : Nat × α} (h : p ∈ x.put k a) :
    p ∈ x ∨ p = (k, a) := by
  induction x with
  | nil => exact .inr (List.mem_singleton.mp h)
  | cons q x ih =>
    obtain ⟨j, b⟩ := q
    unfold Table.put at h
    split at h
    · exact (List.mem_cons.mp h).symm
    · split at h
      · exact (List.mem_cons.mp h).symm.imp_left (List.mem_cons_of_mem _)
      · rcases List.mem_cons.mp h with rfl | h
        · exact .inl List.mem_cons_self
        · exact (ih h).imp_left (List.mem_cons_of_mem _)

/-- Where no other entry has a node's target, the node is found by it. -/
theorem findNode_put {x : Table Node} (h : ∀ p ∈ x, p.2.binding.target ≠ n.binding.target) :
    findNode (x.put i n) n.binding.target = some i := by
  have mem : (i, n) ∈ x.put i n := Table.mem_of_get? (Table.get?_put_same ..)
  unfold findNode
  cases hf : (x.put i n).find? fun p => p.2.binding.target == n.binding.target with
  | none => exact absurd (List.find?_eq_none.mp hf (i, n) mem) (by simp)
  | some p =>
    have target : p.2.binding.target = n.binding.target := by simpa using List.find?_some hf
    rcases Table.mem_put (List.mem_of_find?_eq_some hf) with hp | rfl
    · exact absurd target (h p hp)
    · rfl

theorem postTo_entry (i : Nat) (cmd : CmdKind) (data : List Byte) (s : State) :
    ∃ e ∈ (postTo i cmd data s).link.queue, e.node = i ∧ e.cmd = cmd ∧ e.data = data :=
  ⟨⟨i, cmd, data, false⟩, List.mem_append_right _ (List.mem_singleton.mpr rfl), rfl, rfl, rfl⟩

/-! ## BIND_NODE -/

/-- The blocks that a new or a freed entry touches before its block is told. -/
def Allow.entry : Allow := { Allow.linkOnly with nodes := True, device := True, notices := True }

/-- A node as it is bound (R27). -/
def newNode (b : Binding) (s : State) : Node :=
  { binding := b, health := .online, misses := 0, accepted := none, rate := s.link.rate, assembly := none }

/-- The new entry, the cursor and the start-up set, before NODE_HEALTH is posted and the block is told. -/
def entryMade (i : Nat) (b : Binding) (s : State) : State :=
  let s := putNode i (newNode b s) s
  let s := match s.link.cursor with
    | some _ => s
    | none => s.withLink { s.link with cursor := some i }
  if s.device.condition = .starting then s.withDevice { s.device with startupSet := s.device.startupSet ++ [i] } else s

theorem bindNodeEffect_eq (i : Nat) (b : Binding) (s : State) :
    bindNodeEffect i b s = bindTold i b.target (postHealth i (entryMade i b s)) := rfl

theorem entryMade_nodes (i : Nat) (b : Binding) (s : State) :
    (entryMade i b s).nodes = s.nodes.put i (newNode b s) := by
  unfold entryMade
  dsimp only
  split <;> split <;> rfl

theorem entryMade_moves (i : Nat) (b : Binding) (s : State) : Moves .entry s (entryMade i b s) := by
  unfold entryMade
  dsimp only
  split
  · split
    · exact .device _ trivial rfl (putNode_moves i _ .refl trivial)
    · exact putNode_moves i _ .refl trivial
  · split
    · exact .device _ trivial rfl (.link _ trivial id (putNode_moves i _ .refl trivial))
    · exact .link _ trivial id (putNode_moves i _ .refl trivial)

theorem entryMade_startup (b : Binding) (h : s.device.condition = .starting) :
    i ∈ (entryMade i b s).device.startupSet := by
  unfold entryMade
  dsimp only
  split
  · rw [if_pos (show (putNode i (newNode b s) s).device.condition = .starting from h)]
    exact List.mem_append_right _ (List.mem_singleton.mpr rfl)
  · rw [if_pos (show ((putNode i (newNode b s) s).withLink _).device.condition = .starting from h)]
    exact List.mem_append_right _ (List.mem_singleton.mpr rfl)

/-- R27: the bound node's entry, its notice, its place in the start-up set and its block. -/
structure Bound (i : Nat) (b : Binding) (s t : State) : Prop where
  node : t.node? i = some (newNode b s)
  others : ∀ j, j ≠ i → t.node? j = s.node? j
  settings : t.settings = s.settings
  posted : t.notices.pending.get? (52 + i) = some (.nodeHealth i .online 0 b.physicalId)
  probe : ∀ z, b.target = .probe z → t.climate.probes.get? i = some ⟨none, none⟩
  air : ∀ z, b.target = .air z → (∀ p ∈ s.nodes, p.2.binding.target ≠ b.target) →
    ∃ e ∈ t.link.queue, e.node = i ∧ e.cmd = .mode ∧ e.data = [byteOf (s.zoneClimate z).control.mode.code]
  hatch : b.target = .hatch → t.hatch.report = none ∧ t.hatch.air = .wet
  startup : s.device.condition = .starting → i ∈ t.device.startupSet
  roster : t.handover.roster = s.handover.roster
  image : t.store.settings = s.store.settings

theorem bindNodeEffect_bound (i : Nat) (b : Binding) (s : State) : Bound i b s (bindNodeEffect i b s) := by
  have made : Moves .entry s (postHealth i (entryMade i b s)) :=
    postHealth_moves i (entryMade_moves i b s) trivial
  have nodes : (postHealth i (entryMade i b s)).nodes = s.nodes.put i (newNode b s) := by
    have m : Moves { Allow.entry with nodes := False } (entryMade i b s) (postHealth i (entryMade i b s)) :=
      postHealth_moves i .refl trivial
    exact (m.nodes_eq id).trans (entryMade_nodes i b s)
  have posted : (postHealth i (entryMade i b s)).notices.pending.get? (52 + i) =
      some (.nodeHealth i .online 0 b.physicalId) := by
    refine postHealth_posted (y := newNode b s) ?_
    rw [State.node?, entryMade_nodes]
    exact Table.get?_put_same ..
  have startup : s.device.condition = .starting →
      i ∈ (postHealth i (entryMade i b s)).device.startupSet := fun h => by
    rw [postHealth_device]
    exact entryMade_startup b h
  rw [bindNodeEffect_eq]
  generalize postHealth i (entryMade i b s) = v at made nodes posted startup
  have kept := bindTold_kept i b.target v
  have works : Works .all v (bindTold i b.target v) := bindTold_works trivial trivial i b.target .refl
  have tnodes := (kept.nodes_eq id).trans nodes
  exact
    { node := by rw [State.node?, tnodes]; exact Table.get?_put_same ..
      others := fun j hj => by rw [State.node?, tnodes]; exact Table.get?_put_other _ _ hj
      settings := (kept.settings_eq id).trans (made.settings_eq id)
      posted := (works.notices _ (.inl (Nat.le_add_right ..))).trans posted
      probe := fun z hz => by
        rw [hz]
        unfold bindTold
        dsimp only
        rw [probeTold_probes]
        exact Table.get?_put_same ..
      air := fun z hz hfree => by
        have found : findNode v.nodes (.air z) = some i := by
          rw [nodes, ← hz]
          exact findNode_put (n := newNode b s) hfree
        rw [hz]
        unfold bindTold
        dsimp only
        unfold postMode postCommand
        rw [found, zoneClimate_congr (made.climate_eq id)]
        exact postTo_entry ..
      hatch := fun hg => by
        rw [hg]
        exact bindHatch_lost v
      startup := fun h => by
        rw [works.startup.1]
        exact startup h
      roster := (kept.roster_eq id).trans (made.roster_eq id)
      image := (kept.image_eq id).trans (made.image_eq id) }

theorem carryOut_bindNode (tag index id kind zone : Byte) (b l : Half) (s : State) :
    carryOut tag 0x21 ([index, id, kind, zone] ++ fieldHalf b ++ fieldHalf l) s =
      bindNodeRequest index id kind zone b l s := by
  show bindNodeRequest index id kind zone (byteOf (b.toNat / 256) ++ byteOf b.toNat)
    (byteOf (l.toNat / 256) ++ byteOf l.toNat) s = _
  rw [half_bytes, half_bytes]

theorem answers_bindNode {index id kind zone : Byte} {b l : Half} (h : HostReady s) (ht : tag ≠ 0)
    (e : bindNodeRequest index id kind zone b l (taken s) = .reply st data t) :
    Answers (.bindNode tag index id kind zone b l) tag 0x21 st data s t :=
  answers_of_carryOut h ht rfl rfl ((carryOut_bindNode tag index id kind zone b l (taken s)).trans e)

theorem bindNodeRequest_refused {index id kind zone : Byte} {b l : Half}
    (h : 32 ≤ index.toNat ∨ id.toNat = 0 ∨ 126 < id.toNat ∨
      ((NodeKind.ofCode kind.toNat).bind fun k => targetOperand k zone b l) = none) (s : State) :
    bindNodeRequest index id kind zone b l s = refuse .badOperand s := by
  unfold bindNodeRequest
  dsimp only
  split
  · next hok =>
    obtain ⟨hi, hid, hid'⟩ := hok
    have hi := (indexOk_iff index).mp hi
    rw [(h.resolve_left (by omega)).resolve_left (by omega) |>.resolve_left (by omega)]
  · rfl

theorem bindNodeRequest_checked {index id kind zone : Byte} {b l : Half} {k : NodeKind} (hi : index.toNat < 32)
    (hid : 1 ≤ id.toNat) (hid' : id.toNat ≤ 126) (hk : NodeKind.ofCode kind.toNat = some k)
    (hg : targetOperand k zone b l = some g) (s : State) :
    bindNodeRequest index id kind zone b l s =
      checked (bindChecks s index.toNat id.toNat g) s
        (okPlain (bindNodeEffect index.toNat { physicalId := id.toNat, target := g } s)) := by
  unfold bindNodeRequest
  dsimp only
  rw [if_pos ⟨(indexOk_iff index).mpr hi, hid, hid'⟩, hk]
  dsimp only [Option.bind_some]
  rw [hg]

/-- R24: an AIR node is bound where no other entry has its target. -/
theorem bindChecks_free {id : Nat} {z : Fin 8} (h : firstFailure (bindChecks s i id (.air z)) = none) :
    ∀ p ∈ s.nodes, p.2.binding.target ≠ .air z := by
  have room : kindRoom (bindingsOf s) (.air z) = true :=
    passed_of_firstFailure h (c := (kindRoom (bindingsOf s) (.air z), .conflict)) (by simp [bindChecks])
  intro p hp he
  have := List.all_eq_true.mp room (p.1, p.2.binding) (List.mem_map.mpr ⟨p, hp, rfl⟩)
  simp [he] at this

/-! ## UNBIND_NODE -/

/-- The entry, its queued commands, the cursor and NODE_HEALTH of a node that is gone, before its block is told. -/
def freed (i : Nat) (n : Node) (s : State) : State :=
  let s := s.withNodes (s.nodes.erase i)
  let l := s.link
  post (.nodeHealth i .unbound 0 n.binding.physicalId)
    (s.withLink { l with
      queue := l.queue.filter fun e => e.node != i,
      cursor := if l.cursor = some i then nextAfter s.nodes.places i else l.cursor,
      followUp := if l.followUp = some i then none else l.followUp,
      activity := orphan i l.activity })

theorem unbindNodeEffect_eq (i : Nat) (n : Node) (s : State) :
    unbindNodeEffect i n s = leaveStartup i (unbindTold i n.binding.target (freed i n s)) := rfl

theorem leaveStartup_frame (i : Nat) (s : State) :
    leaveStartup i s = s.withDevice (leaveStartup i s).device := by
  unfold leaveStartup settleStartup
  split <;> rfl

/-- The FIRE node that is gone leaves its zone's values as without a node (R111). -/
def FireUnbound (f : ZoneFire) : Prop :=
  f.headA = .clear ∧ f.headB = .clear ∧ f.hold = .released ∧ f.valve = .notReported

theorem unboundFire_values (z : Fin 8) (s : State) : FireUnbound ((unboundFire z s).zoneFire z) := by
  unfold unboundFire
  rw [putFire_zoneFire_same]
  exact ⟨rfl, rfl, rfl, rfl⟩

/-- R29: what is left of a node that is gone. -/
structure Unbound (i : Nat) (n : Node) (s t : State) : Prop where
  node : t.node? i = none
  others : ∀ j, j ≠ i → t.node? j = s.node? j
  settings : t.settings = s.settings
  roster : t.handover.roster = s.handover.roster
  posted : t.notices.pending.get? (52 + i) = some (.nodeHealth i .unbound 0 n.binding.physicalId)
  removed : ∀ e ∈ t.link.queue, e.node ≠ i
  keys : ∀ e ∈ s.link.queue, e.node ≠ i → ∃ d ∈ t.link.queue, d.node = e.node ∧ d.cmd = e.cmd
  cursor : t.link.cursor = if s.link.cursor = some i then nextAfter t.nodes.places i else s.link.cursor
  left : LeftStartup i s t
  probe : ∀ z, n.binding.target = .probe z → t.climate.probes.get? i = none
  fire : ∀ z, n.binding.target = .fire z → FireUnbound (t.zoneFire z)
  hatch : n.binding.target = .hatch → t.hatch.report = none
  image : t.store.settings = s.store.settings
  rising : TablesOk s → t.nodes.rising

theorem unbindNodeEffect_unbound (i : Nat) (n : Node) (s : State) : Unbound i n s (unbindNodeEffect i n s) := by
  have kept := unbindTold_kept i n.binding.target (freed i n s)
  have works : Works .all (freed i n s) (unbindTold i n.binding.target (freed i n s)) :=
    unbindTold_works trivial trivial i n.binding.target .refl
  have nodes : (unbindTold i n.binding.target (freed i n s)).nodes = s.nodes.erase i := kept.nodes_eq id
  have gone : (unbindTold i n.binding.target (freed i n s)).node? i = none := by
    rw [State.node?, nodes]
    exact Table.get?_erase_same ..
  rw [unbindNodeEffect_eq]
  have left := leaveStartup_left i (unbindTold i n.binding.target (freed i n s))
  rw [leaveStartup_frame] at left ⊢
  exact
    { node := gone
      others := fun j hj => by
        show (unbindTold i n.binding.target (freed i n s)).nodes.get? j = _
        rw [nodes]
        exact Table.get?_erase_other _ hj
      settings := (kept.settings_eq id).trans rfl
      roster := (kept.roster_eq id).trans rfl
      posted := (works.notices _ (.inl (Nat.le_add_right ..))).trans (post_same ..)
      removed := fun e he hi => by
        rcases works.bound e he with ⟨d, hd, hnode, -⟩ | hb
        · have hd : d ∈ s.link.queue.filter fun e => e.node != i := hd
          have := (List.mem_filter.mp hd).2
          rw [← hnode, hi] at this
          simp at this
        · have gone' : (freed i n s).node? i = none := Table.get?_erase_same ..
          rw [hi, gone'] at hb
          cases hb
      keys := fun e he hi => by
        obtain ⟨d, hd, hk⟩ := works.keys e (List.mem_filter.mpr ⟨he, by simpa using hi⟩)
        exact ⟨d, hd, hk⟩
      cursor := by
        show (unbindTold i n.binding.target (freed i n s)).link.cursor =
          if s.link.cursor = some i then
            nextAfter (unbindTold i n.binding.target (freed i n s)).nodes.places i else s.link.cursor
        rw [works.link, nodes]
        rfl
      left := (works.startup).before left
      probe := fun z hz => by
        rw [hz]
        show (refreshReading z (resetAgreement z (setProbe i none (freed i n s)))).climate.probes.get? i = none
        rw [probeTold_probes]
        exact Table.get?_erase_same ..
      fire := fun z hz => by
        rw [hz]
        exact unboundFire_values z (freed i n s)
      hatch := fun hz => by
        rw [hz]
        rfl
      image := (kept.image_eq id).trans rfl
      rising := fun h => by
        show (unbindTold i n.binding.target (freed i n s)).nodes.rising
        rw [nodes]
        exact Table.erase_keeps h.1 }

theorem Unbound.next {j : Nat} (h : Unbound i n s t) (hs : TablesOk s) (hc : s.link.cursor = some i)
    (hj : NextInTurn (fun k => (t.node? k).isSome = true) (some i) j) : t.link.cursor = some j := by
  rw [h.cursor, if_pos hc]
  refine nextAfter_of_nextInTurn (Table.places_pairwise_lt (h.rising hs)) (fun k => ?_) hj
  constructor
  · intro hk
    obtain ⟨p, hp, rfl⟩ := List.mem_map.mp hk
    exact Table.get?_isSome hp
  · intro hk
    obtain ⟨y, hy⟩ := Option.isSome_iff_exists.mp hk
    exact List.mem_map.mpr ⟨(k, y), Table.mem_of_get? hy, rfl⟩

theorem answers_unbindNode {index : Byte} (h : HostReady s) (ht : tag ≠ 0)
    (e : unbindNodeRequest index (taken s) = .reply st data t) :
    Answers (.unbindNode tag index) tag 0x22 st data s t := answers_of_carryOut h ht rfl rfl e

end Sys2Proof.Machine

namespace Sys2Proof

open Machine

/-- Settles O29, by the checks; the entry and the block's work (`Bound`). -/
theorem bindNodeFillsEntry : Obligations.BindNodeFillsEntry := by
  intro s tag index id kind zone b l hready htag
  dsimp only
  have refused : (32 ≤ index.toNat ∨ id.toNat = 0 ∨ 126 < id.toNat ∨
      ((NodeKind.ofCode kind.toNat).bind fun k => targetOperand k zone b l) = none) →
      Refuses (.bindNode tag index id kind zone b l) tag 0x21 .badOperand s := fun h =>
    answers_bindNode hready htag (bindNodeRequest_refused h (taken s))
  refine ⟨fun h => refused (h.imp_right (Or.imp_right (Or.imp_right fun h => by rw [h]; rfl))),
    fun k hk hg => refused (.inr (.inr (.inr (by rw [hk]; exact hg)))), fun k g hi hid hid' hk hg => ?_⟩
  have e := bindNodeRequest_checked hi hid hid' hk hg (taken s)
  refine ⟨fun st h => answers_bindNode hready htag (e.trans (checked_fails h)), fun h => ?_⟩
  have made := bindNodeEffect_bound index.toNat { physicalId := id.toNat, target := g } (taken s)
  refine ⟨_, answers_bindNode hready htag (e.trans (checked_passes h)), made.node, made.others, made.settings,
    made.posted, made.probe, fun z hz => made.air z hz ?_, made.hatch, made.startup, made.roster, made.image⟩
  rw [hz] at h ⊢
  exact bindChecks_free h

/-- Settles O30, by the checks; the freed entry, the queue, the cursor and the block's work (`Unbound`). -/
theorem unbindNodeFreesEntry : Obligations.UnbindNodeFreesEntry := by
  intro s tag index hready htag
  refine ⟨fun h => answers_unbindNode hready htag ?_, fun hi hn => answers_unbindNode hready htag ?_,
    fun n hi hn => ?_⟩
  · unfold unbindNodeRequest
    rw [if_neg fun hi => absurd ((indexOk_iff index).mp hi) (Nat.not_lt.mpr h)]
    rfl
  · unfold unbindNodeRequest
    rw [if_pos ((indexOk_iff index).mpr hi), show (taken s).node? index.toNat = none from hn]
    rfl
  · have e : unbindNodeRequest index (taken s) = checked (unbindChecks (taken s) n) (taken s)
        (okPlain (unbindNodeEffect index.toNat n (taken s))) := by
      unfold unbindNodeRequest
      rw [if_pos ((indexOk_iff index).mpr hi), show (taken s).node? index.toNat = some n from hn]
    refine ⟨fun st h => answers_unbindNode hready htag (e.trans (checked_fails h)), fun h => ?_⟩
    have gone := unbindNodeEffect_unbound index.toNat n (taken s)
    refine ⟨_, answers_unbindNode hready htag (e.trans (checked_passes h)), gone.node, gone.others, gone.settings,
      gone.roster, gone.posted, gone.removed, gone.keys, fun hc => gone.cursor.trans (if_neg hc),
      fun j hs hc hj => gone.next hs hc hj, fun _ hmem => ?_, gone.probe, gone.fire, gone.hatch, gone.image⟩
    rw [gone.left.1] at hmem
    simpa using (List.mem_filter.mp hmem).2

end Sys2Proof
end

section
/-! The paired sample of a PROBE report (R86) where the node table is not in canonical form. -/

namespace Sys2Proof.Machine

namespace Doubled

/-- An ONLINE node as it stands in the table. -/
def node (id : Nat) (g : Target) : Node :=
  { binding := ⟨id, g⟩, health := .online, misses := 0, accepted := none, rate := 0, assembly := none }

/-- The lead probe of ROOM, polled. -/
def lead : Node := node 126 (.probe 8)

def poll : Transaction :=
  { node := some 3, physicalId := 126, origin := .routine, code := 0, data := [], ack := 0, rate := 0, counted := true }

/-- The lead probe's report: 40.0 % and 20.0 degrees. -/
def report : List Byte :=
  let body : List Byte := [126, 1, 0, 0, 0, 5, 1, 0x90, 0, 200, 0]
  body ++ fieldHalf (crc body)

/-- Two probes of ROOM, 3 and 7, whose entries stand behind that of index 5: the lead probe's new entry goes before
it, so the lead probe stands in the table twice. The other probe reads 60.0 %. -/
def start : State :=
  { State.reset with
    nodes := [(5, node 1 .terminal), (3, lead), (7, node 125 (.probe 8))]
    climate := { State.reset.climate with
      probes := [(7, ⟨some ⟨600, 200, false⟩, some 5⟩)]
      air := State.reset.climate.air.set 8 { AirReading.restarted with window := some ⟨0, 0, 10⟩ } }
    link := { State.reset.link with activity := .awaiting poll 20 } }

end Doubled

open Doubled

/-- The state a command leaves. -/
def leftBy (c : Instr) (s : State) : Option State :=
  match exec c s with
  | .next t => some t
  | .fault _ => none
  | .refused _ => none

set_option maxRecDepth 8000 in
theorem Doubled.read : (readReport report).map (fun r => (r.physicalId, r.kind, readState .probe r.state)) =
    some (126, 1, some (.probe ⟨400, 200, false⟩)) := by decide

set_option maxRecDepth 8000 in
/-- The lead probe is paired with itself: no disagreement is counted. -/
theorem Doubled.sampled : ((leftBy (.fieldReportReceived report) start).map fun t => (t.airAt 8).window) =
    some (some ⟨1, 0, 10⟩) := by decide

theorem leftBy_of_takes {c : Instr} {s t : State} (h : Takes c s t) : leftBy c s = some (settle t) := by
  unfold leftBy
  rw [h]

theorem settle_airAt (t : State) (z : Fin 9) : (settle t).airAt z = t.airAt z := by
  rw [settle_frame]
  rfl

end Sys2Proof.Machine

namespace Sys2Proof

open Machine Machine.Doubled

/-- Refutes O44: in a node table that is not in canonical form the lead probe's entry is put before the one that
stands there, the lead probe is its own second probe, and the difference from the other probe's reading, above the
tolerance, is not counted as a disagreement. -/
theorem not_climateTimersExpire : ¬ Obligations.ClimateTimersExpire := by
  intro h
  obtain ⟨-, -, -, -, reports, -⟩ := h start 0 rfl
  obtain ⟨r, hr, hread⟩ := Option.map_eq_some_iff.mp Doubled.read
  simp only [Prod.mk.injEq] at hread
  obtain ⟨hid, hkind, hstate⟩ := hread
  obtain ⟨t, takes, -, -, -, paired⟩ := reports poll 3 lead report r 8 ⟨400, 200, false⟩
    ⟨rfl, ⟨20, rfl⟩, rfl, rfl, hr, hid, hkind⟩ rfl hstate
  obtain ⟨within, -⟩ := paired 7 ⟨0, 0, 10⟩ (600, 200) (by decide) (by decide) (by decide) rfl rfl (by decide)
  obtain ⟨window, -⟩ := within (by decide)
  have counted : ((leftBy (.fieldReportReceived report) start).map fun t => (t.airAt 8).window) =
      some (t.airAt 8).window := by
    rw [leftBy_of_takes takes, Option.map_some, settle_airAt]
  rw [Doubled.sampled, window] at counted
  revert counted
  decide

end Sys2Proof
end

section
/-! The ways out of a handover phase (R160 to R164): what the steps of the sequencer and of the Hatch Arbiter leave of
a context, of the hatch as its doors and its air stand, and of the records. -/

namespace Sys2Proof.Machine

variable {s t u : State} {c d i : Nat} {x y : Context} {o : HOutcome}

/-! ## What the steps leave -/

/-- The hatch's air, contents and report, the Custody Table and the settings stand. -/
structure Aside (s t : State) : Prop where
  air : t.hatch.air = s.hatch.air
  contents : t.hatch.contents = s.hatch.contents
  report : t.hatch.report = s.hatch.report
  custody : t.custody = s.custody
  settings : t.settings = s.settings

theorem Aside.refl : Aside s s := ⟨rfl, rfl, rfl, rfl, rfl⟩

theorem Aside.trans (h : Aside s t) (g : Aside t u) : Aside s u where
  air := g.air.trans h.air
  contents := g.contents.trans h.contents
  report := g.report.trans h.report
  custody := g.custody.trans h.custody
  settings := g.settings.trans h.settings

theorem Aside.roomDoor (h : Aside s t) : roomDoor t = roomDoor s := by
  simp only [Machine.roomDoor, h.report]

theorem Aside.storeDoor (h : Aside s t) : storeDoor t = storeDoor s := by
  simp only [Machine.storeDoor, h.report]

/-- The blocks that tell the terminal, the host and the hatch of a step. -/
def Allow.prompts : Allow := { Allow.linkOnly with notices := True }

theorem Moves.aside (m : Moves .prompts s t) : Aside s t :=
  ⟨by rw [m.hatch_eq id], by rw [m.hatch_eq id], by rw [m.hatch_eq id], m.custody_eq id, m.settings_eq id⟩

theorem context?_congr (h : t.handover.contexts = s.handover.contexts) (c : Nat) : t.context? c = s.context? c := by
  simp only [State.context?, h]

theorem Moves.prompts_context (m : Moves .prompts s t) (c : Nat) : t.context? c = s.context? c :=
  context?_congr (m.contexts_eq id) c

@[simp] theorem putContext_same (c : Nat) (x : Context) (s : State) : (putContext c x s).context? c = some x :=
  Table.get?_put_same ..

theorem putContext_other (h : d ≠ c) (x : Context) (s : State) : (putContext c x s).context? d = s.context? d :=
  Table.get?_put_other _ _ h

theorem putContext_aside (c : Nat) (x : Context) (s : State) : Aside s (putContext c x s) := ⟨rfl, rfl, rfl, rfl, rfl⟩

theorem liveContext?_eq (hx : s.context? c = some x) (hl : x.finish = none) : liveContext? s c = some x := by
  unfold liveContext?
  rw [hx]
  exact if_pos (by rw [Context.live, hl]; rfl)

theorem liveContext?_iff : liveContext? s c = some x ↔ s.context? c = some x ∧ x.finish = none := by
  constructor
  · intro h
    unfold liveContext? at h
    split at h
    · next y hy =>
      split at h
      · next hl =>
        cases h
        exact ⟨hy, by simpa [Context.live] using hl⟩
      · cases h
    · cases h
  · exact fun h => liveContext?_eq h.1 h.2

/-! ## Locks -/

/-- The locks worked out afresh: the queue and the locks commanded. -/
theorem updateLocks_frame (s : State) :
    ∃ q, updateLocks s = (s.withLink q).withHatch
      { s.hatch with roomLock := roomLockWanted s, storeLock := storeLockWanted s, exitLock := exitLockWanted s } := by
  obtain ⟨q, -, e⟩ := updateLocks_spec s
  exact ⟨q, e⟩

theorem updateLocks_aside (s : State) : Aside s (updateLocks s) := by
  obtain ⟨q, e⟩ := updateLocks_frame s
  rw [e]
  exact ⟨rfl, rfl, rfl, rfl, rfl⟩

theorem updateLocks_context (s : State) (c : Nat) : (updateLocks s).context? c = s.context? c := by
  obtain ⟨q, e⟩ := updateLocks_frame s
  rw [e]
  rfl

theorem updateLocks_owner (s : State) : (updateLocks s).hatch.owner = s.hatch.owner := by
  obtain ⟨q, e⟩ := updateLocks_frame s
  rw [e]
  rfl

theorem updateLocks_waiting (s : State) : (updateLocks s).hatch.waiting = s.hatch.waiting := by
  obtain ⟨q, e⟩ := updateLocks_frame s
  rw [e]
  rfl

theorem updateExit_frame (s : State) :
    ∃ q, updateExit s = (s.withLink q).withHatch { s.hatch with exitLock := exitLockWanted s } := by
  obtain ⟨q, -, e⟩ := commandExit_spec (exitLockWanted s) s
  exact ⟨q, e⟩

/-! ## Phases -/

theorem postHandover_prompts (c : Nat) (s : State) : Moves .prompts s (postHandover c s) :=
  postHandover_moves c .refl trivial

theorem promptClosed_prompts (c : Nat) (s : State) : Moves .prompts s (promptClosed c s) :=
  promptClosed_moves c .refl trivial

theorem manifestPrompt_prompts (c : Nat) (s : State) : Moves .prompts s (manifestPrompt c s) :=
  manifestPrompt_moves c .refl trivial

theorem setPhase_eq (hx : s.context? c = some x) (ph : Phase) :
    setPhase c ph s = postHandover c (putContext c { x with phase := ph, timer := phaseLimit s ph } s) := by
  unfold setPhase
  rw [hx]

theorem setPhase_context (hx : s.context? c = some x) (ph : Phase) :
    (setPhase c ph s).context? c = some { x with phase := ph, timer := phaseLimit s ph } := by
  rw [setPhase_eq hx, (postHandover_prompts c _).prompts_context, putContext_same]

theorem setPhase_aside (c : Nat) (ph : Phase) (s : State) : Aside s (setPhase c ph s) := by
  unfold setPhase
  split
  · exact .refl
  · exact (putContext_aside ..).trans (postHandover_prompts c _).aside

theorem setPhase_hatch (c : Nat) (ph : Phase) (s : State) : (setPhase c ph s).hatch = s.hatch := by
  unfold setPhase
  split
  · rfl
  · exact (postHandover_prompts c _).hatch_eq id

theorem setOutcome_context (hx : s.context? c = some x) (o : HOutcome) :
    (setOutcome c o s).context? c = some { x with pendingOutcome := some o } := by
  unfold setOutcome
  rw [hx]
  exact putContext_same ..

theorem setOutcome_aside (c : Nat) (o : HOutcome) (s : State) : Aside s (setOutcome c o s) := by
  unfold setOutcome
  split
  · exact .refl
  · exact putContext_aside ..

theorem setOutcome_hatch (c : Nat) (o : HOutcome) (s : State) : (setOutcome c o s).hatch = s.hatch := by
  unfold setOutcome
  split <;> rfl

/-! ## The grant evaluation of an owned hatch -/

/-- R141: the start of a purge run leaves the contexts and what stands beside. -/
theorem startPurge_aside (s : State) : Aside s (startPurge s) := by
  have works : Works .none s (startPurge s) := startPurge_works .refl
  have m : Moves { Allow.all with custody := False, settings := False, air := False } s (startPurge s) := by
    apply startPurge_moves .refl <;> trivial
  exact ⟨m.air_eq id, works.contents id, works.report id, m.custody_eq id, m.settings_eq id⟩

theorem startPurge_context (s : State) (c : Nat) : (startPurge s).context? c = s.context? c := by
  have m : Moves { Allow.all with contexts := False } s (startPurge s) := by
    apply startPurge_moves .refl <;> trivial
  exact context?_congr (m.contexts_eq id) c

theorem commandPurge_owner (p : PurgeCmd) (s : State) : (commandPurge p s).hatch.owner = s.hatch.owner := by
  unfold commandPurge
  split
  · rfl
  · obtain ⟨q, -, e⟩ := postCommand_link .hatch .purge [byteOf p.code] (s.withHatch { s.hatch with purgeCmd := p })
    rw [e]
    rfl

theorem postHatchAir_hatch (e : HatchEvent) (s : State) : (postHatchAir e s).hatch = s.hatch := rfl

theorem startPurge_owner (s : State) : (startPurge s).hatch.owner = .purge := by
  unfold startPurge
  dsimp only
  rw [postHatchAir_hatch, updateLocks_owner, commandPurge_owner]
  rfl

/-- No purge is pending at a DRY hatch (R139). -/
theorem purgePending_dry (h : s.hatch.air = .dry) : purgePending s = false := by
  unfold purgePending
  rw [h]
  rfl

/-- R140: where a context owns a DRY hatch no step applies. -/
theorem grantEval_dry (ho : s.hatch.owner = .context d) (ha : s.hatch.air = .dry) : grantEval s = s := by
  unfold grantEval
  rw [purgePending_dry ha, ho]
  split
  · rfl
  · split
    · next h => exact absurd h.1 Bool.false_ne_true
    · rfl

/-- R140: of an owned hatch the evaluation can start a purge run and nothing else. -/
theorem grantEval_owned (ho : s.hatch.owner = .context d) :
    grantEval s = s ∨ (grantEval s = startPurge s ∧ s.hatch.air = .wet) := by
  unfold grantEval
  split
  · exact .inl rfl
  · split
    · next h =>
      refine .inr ⟨rfl, ?_⟩
      cases ha : s.hatch.air with
      | wet => rfl
      | dry => exact absurd h.1 (by rw [purgePending_dry ha]; exact Bool.false_ne_true)
    · rw [ho]
      exact .inl rfl

theorem grantEval_owned_aside (ho : s.hatch.owner = .context d) : Aside s (grantEval s) := by
  rcases grantEval_owned ho with e | ⟨e, -⟩
  · rw [e]; exact .refl
  · rw [e]; exact startPurge_aside s

theorem grantEval_owned_context (ho : s.hatch.owner = .context d) (c : Nat) :
    (grantEval s).context? c = s.context? c := by
  rcases grantEval_owned ho with e | ⟨e, -⟩
  · rw [e]
  · rw [e]; exact startPurge_context s c

/-! ## A change of place -/

theorem climateTold_atRecord (i : Nat) (old : Option Location) (s : State) : AtRecord i s (climateTold i old s) := by
  have exposed : AtRecord i s (expose i s) := by
    cases h : s.record? i with
    | none => unfold expose; rw [h]; exact .refl
    | some r =>
      rw [expose]
      simp only [h]
      split
      · exact .refl
      · exact (placeWritten_putRecord ..).atRecord
  unfold climateTold
  split
  · exact .refl
  · split
    · exact .refl
    · split
      · split
        · exact exposed
        · exact .refl
      · exact .refl

/-- R52: a change of a record that keeps its state is no other record's. -/
theorem changeRecord_atRecord {r new : Record} (h : s.record? i = some r) (hs : new.state = r.state)
    (who : Claimant) (quiet : Bool) : AtRecord i s (changeRecord who quiet i new s) := by
  rw [changeRecord_eq h, if_neg (fun hne => hne hs)]
  obtain ⟨t, e, told⟩ := tellOthers_told who i r (basicChange quiet i new s)
  rw [e]
  exact (basicChange_atRecord ..).trans ((atRecord_of_tellings told.moves).trans (climateTold_atRecord ..))

/-- The records that are not BLOCKED stand. -/
def Spares (s t : State) : Prop :=
  ∀ j r, s.record? j = some r → r.state.isBlocked = false → t.record? j = some r

theorem Spares.trans (h : Spares s t) (g : Spares t u) : Spares s u :=
  fun j r hr hb => g j r (h j r hr hb) hb

theorem Spares.of_custody (h : t.custody = s.custody) : Spares s t :=
  fun j _ hr _ => (record?_congr h j).trans hr

/-- What a record's relocation by the sequencer touches. -/
def Allow.relocation : Allow :=
  { Allow.prompts with device := True, rack := True, custody := True, store := True }

/-- R153: a BLOCKED record's move to HATCH leaves the contexts and every record that is not BLOCKED. -/
theorem blockedToHatch_spares (c : Nat) (l : Label) (s : State) :
    Moves .relocation s (blockedToHatch c l s) ∧ Spares s (blockedToHatch c l s) := by
  unfold blockedToHatch
  split
  · next i hi =>
    unfold claim
    split
    · exact ⟨.refl, fun _ _ hr _ => hr⟩
    · next r hr =>
      split
      · next hb =>
        refine ⟨?_, fun j q hq hqb => ?_⟩
        · rw [changeRecord_eq hr, if_neg (fun h => h rfl)]
          apply climateTold_moves
          · apply rackTold_moves
            · apply basicChange_moves false i _ .refl <;> trivial
            all_goals trivial
          all_goals trivial
        · have hj : j ≠ i := by
            rintro rfl
            rw [hr] at hq
            cases hq
            dsimp only at hb
            rw [hqb] at hb
            cases hb
          exact ((changeRecord_atRecord (new := { r with location := .hatch }) hr rfl _ _).others j hj).trans hq
      · exact ⟨.refl, fun _ _ hr _ => hr⟩
  · exact ⟨.refl, fun _ _ hr _ => hr⟩

theorem blockedAll_spares (c : Nat) (ls : List Label) : ∀ s : State,
    Moves .relocation s (ls.foldl (fun s l => blockedToHatch c l s) s) ∧
      Spares s (ls.foldl (fun s l => blockedToHatch c l s) s) := by
  induction ls with
  | nil => exact fun s => ⟨.refl, fun _ _ hr _ => hr⟩
  | cons l ls ih =>
    intro s
    obtain ⟨m, h⟩ := blockedToHatch_spares c l s
    obtain ⟨m', h'⟩ := ih (blockedToHatch c l s)
    exact ⟨m.trans m', h.trans h'⟩

/-! ## A grant -/

/-- What a step leaves of context c and of the records: a record that is not BLOCKED stands, and with an empty hatch
all do. -/
structure Leaves (c : Nat) (s t : State) : Prop where
  context : t.context? c = s.context? c
  spares : Spares s t
  empty : s.hatch.contents = [] → t.custody = s.custody

theorem Leaves.refl : Leaves c s s := ⟨rfl, fun _ _ hr _ => hr, fun _ => rfl⟩

theorem Leaves.trans (h : Leaves c s t) (hc : t.hatch.contents = s.hatch.contents) (g : Leaves c t u) :
    Leaves c s u :=
  ⟨g.context.trans h.context, h.spares.trans g.spares,
    fun he => (g.empty (hc.trans he)).trans (h.empty he)⟩

theorem Leaves.of_aside (h : Aside s t) (hc : t.context? c = s.context? c) : Leaves c s t :=
  ⟨hc, .of_custody h.custody, fun _ => h.custody⟩

/-- The steps of a grant before the labels in the hatch are rejected. -/
def granted (d : Nat) (x : Context) (added : List Label) (s : State) : State :=
  manifestPrompt d (updateLocks (setPhase d x.direction.firstPhase
    (putContext d { x with rejected := x.rejected ++ added } s)))

theorem granted_aside (d : Nat) (x : Context) (added : List Label) (s : State) : Aside s (granted d x added s) :=
  (putContext_aside ..).trans ((setPhase_aside ..).trans ((updateLocks_aside _).trans (manifestPrompt_prompts d _).aside))

theorem setPhase_other (h : c ≠ d) (ph : Phase) (s : State) : (setPhase d ph s).context? c = s.context? c := by
  unfold setPhase
  split
  · rfl
  · rw [(postHandover_prompts d _).prompts_context, putContext_other h]

theorem granted_other (h : c ≠ d) (x : Context) (added : List Label) (s : State) :
    (granted d x added s).context? c = s.context? c := by
  unfold granted
  rw [(manifestPrompt_prompts d _).prompts_context, updateLocks_context, setPhase_other h, putContext_other h]

theorem grantContext_leaves (h : c ≠ d) (s : State) : Leaves c s (grantContext d s) := by
  unfold grantContext
  dsimp only
  have owned : Aside s (s.withHatch { s.hatch with owner := .context d, waiting := s.hatch.waiting.filter (· != d) }) :=
    ⟨rfl, rfl, rfl, rfl, rfl⟩
  split
  · exact .of_aside owned rfl
  · next x hx =>
    generalize hadded : List.take _ _ = added
    have hempty : s.hatch.contents = [] → added = [] := fun he => by
      rw [← hadded]
      show List.take _ s.hatch.contents = []
      rw [he]
      exact List.take_nil
    show Leaves c s (if added.isEmpty then _ else _)
    have steps := owned.trans (granted_aside d x added _)
    have context := granted_other h x added
      (s.withHatch { s.hatch with owner := .context d, waiting := s.hatch.waiting.filter (· != d) })
    change Leaves c s
      (if added.isEmpty then added.foldl (fun s l => blockedToHatch d l s) (granted d x added _)
       else if x.direction = .returning then
         promptRemove d (signalReject (added.foldl (fun s l => blockedToHatch d l s) (granted d x added _)))
       else signalReject (added.foldl (fun s l => blockedToHatch d l s) (granted d x added _)))
    generalize granted d x added _ = v at steps context ⊢
    obtain ⟨m, spares⟩ := blockedAll_spares d added v
    have base : Leaves c s (added.foldl (fun s l => blockedToHatch d l s) v) :=
      ⟨(context?_congr (m.contexts_eq id) c).trans context, (Spares.of_custody steps.custody).trans spares,
        fun he => by rw [hempty he]; exact steps.custody⟩
    have told : ∀ w : State, Moves .prompts (added.foldl (fun s l => blockedToHatch d l s) v) w → Leaves c s w :=
      fun w mw => ⟨(mw.prompts_context c).trans base.context, base.spares.trans (.of_custody mw.aside.custody),
        fun he => mw.aside.custody.trans (base.empty he)⟩
    split
    · exact base
    · split
      · exact told _ (promptRemove_moves d (signalReject_moves .refl trivial) trivial)
      · exact told _ (signalReject_moves .refl trivial)

/-- R140: a grant evaluation leaves a context that does not wait for the hatch. -/
theorem grantEval_leaves (h : s.hatch.owner = .nobody → c ∉ s.hatch.waiting) : Leaves c s (grantEval s) := by
  unfold grantEval
  split
  · exact .refl
  · split
    · exact .of_aside (startPurge_aside s) (startPurge_context s c)
    · split
      · next d ds ho hw =>
        have hd : c ≠ d := fun e => h ho (by rw [hw, e]; exact List.mem_cons_self)
        split
        · split
          · exact .refl
          · exact grantContext_leaves hd s
        · exact .refl
      · exact .refl

/-! ## The end of a context -/

/-- The blocks that the end of a context's orders touches. -/
def Allow.engaged : Allow := { Allow.prompts with orders := True }

/-- R73: an order that is done, or works its state out afresh, changes no record. -/
theorem ordersContextEnded_engaged (c : Nat) (s : State) : Moves .engaged s (ordersContextEnded c s) := by
  have each : ∀ (ks : List Nat) (s : State), Moves .engaged s (ks.foldl (fun s k =>
      match s.order? k with
      | none => s
      | some o =>
        if o.state = .inHandover c then
          if o.unhanded.isEmpty then finishOrder k .done s
          else postOrder k (putOrder k { o with state := workedOut s o } s)
        else s) s) := by
    intro ks
    induction ks with
    | nil => exact fun _ => .refl
    | cons k ks ih =>
      intro s
      refine Moves.trans ?_ (ih _)
      dsimp only
      split
      · exact .refl
      · next o ho =>
        split
        · split
          · next he =>
            unfold finishOrder
            rw [ho]
            dsimp only
            rw [List.isEmpty_iff.mp he]
            split
            · exact .refl
            · exact postOrder_moves k (putOrder_moves k _ .refl trivial) trivial
          · exact postOrder_moves k (putOrder_moves k _ .refl trivial) trivial
        · exact .refl
  exact each s.orders.places s

theorem Moves.engaged_aside (m : Moves .engaged s t) : Aside s t :=
  ⟨by rw [m.hatch_eq id], by rw [m.hatch_eq id], by rw [m.hatch_eq id], m.custody_eq id, m.settings_eq id⟩

/-- R138: a context that leaves the hatch. -/
theorem leaveHatch_leaves (c : Nat) (s : State) : Leaves c s (leaveHatch c s) := by
  unfold leaveHatch
  dsimp only
  generalize hh : ({ s.hatch with owner := _, yielded := _, waiting := _ } : Hatch) = h
  have hw : c ∉ h.waiting := by
    rw [← hh]
    intro hm
    simpa using (List.mem_filter.mp hm).2
  have left : Aside s (s.withHatch h) := by
    rw [← hh]
    exact ⟨rfl, rfl, rfl, rfl, rfl⟩
  have locks := left.trans (updateLocks_aside (s.withHatch h))
  refine (Leaves.of_aside locks (updateLocks_context ..)).trans locks.contents (grantEval_leaves fun _ => ?_)
  rw [updateLocks_waiting]
  exact hw

theorem endContext_eq (h : liveContext? s c = some x) (o : HOutcome) :
    endContext c o s = promptEnd c o (postHandover c (ordersContextEnded c (leaveHatch c (updateExit
      (putContext c { x with phase := .ended, timer := none, finish := some (x.phase, o) } s))))) := by
  unfold endContext
  rw [h]

/-- R168: what the end of a context leaves. -/
theorem endContext_spec (hx : s.context? c = some x) (hl : x.finish = none) (o : HOutcome) :
    (endContext c o s).context? c = some { x with phase := .ended, timer := none, finish := some (x.phase, o) } ∧
      Spares s (endContext c o s) ∧ (s.hatch.contents = [] → (endContext c o s).custody = s.custody) := by
  rw [endContext_eq (liveContext?_eq hx hl)]
  generalize hp : putContext c { x with phase := .ended, timer := none, finish := some (x.phase, o) } s = p
  have put : Aside s p := by rw [← hp]; exact putContext_aside ..
  have held : p.context? c = some { x with phase := .ended, timer := none, finish := some (x.phase, o) } := by
    rw [← hp]; exact putContext_same ..
  have exit : Aside p (updateExit p) ∧ (updateExit p).context? c = p.context? c := by
    obtain ⟨q, e⟩ := updateExit_frame p
    rw [e]
    exact ⟨⟨rfl, rfl, rfl, rfl, rfl⟩, rfl⟩
  obtain ⟨exit, exitContext⟩ := exit
  have left : Leaves c (updateExit p) (leaveHatch c (updateExit p)) := leaveHatch_leaves c _
  have after : ∀ w, Moves .engaged w (promptEnd c o (postHandover c (ordersContextEnded c w))) := fun w => by
    apply promptEnd_moves c o _ trivial
    exact postHandover_moves c (ordersContextEnded_engaged c w) trivial
  have ended := after (leaveHatch c (updateExit p))
  refine ⟨?_, ?_, fun he => ?_⟩
  · rw [context?_congr (ended.contexts_eq id), left.context, exitContext, held]
  · exact (Spares.of_custody (put.trans exit).custody).trans
      (left.spares.trans (.of_custody ended.engaged_aside.custody))
  · rw [ended.engaged_aside.custody, left.empty ((put.trans exit).contents.trans he), (put.trans exit).custody]

/-! ## WAIT_DRY and UNLOADING -/

/-- R162: the end condition of UNLOADING. -/
theorem testUnloading_spec (hx : s.context? c = some x) (hl : x.finish = none) (hp : x.phase = .unloading)
    (ho : x.pendingOutcome = some o) :
    (testUnloading c s).context? c =
        some (if s.hatch.contents = [] ∧ storeDoor s = .closed then
          { x with phase := .ended, timer := none, finish := some (.unloading, o) } else x) ∧
      (testUnloading c s).custody = s.custody := by
  unfold testUnloading
  rw [liveContext?_eq hx hl]
  dsimp only
  rw [ho]
  dsimp only
  by_cases h : s.hatch.contents = [] ∧ storeDoor s = .closed
  · rw [if_pos ⟨hp, h.1, h.2⟩, if_pos h]
    obtain ⟨context, -, custody⟩ := endContext_spec hx hl o
    rw [hp, ho] at context
    exact ⟨context, custody h.1⟩
  · rw [if_neg (fun k => h ⟨k.2.1, k.2.2⟩), if_neg h]
    exact ⟨hx, rfl⟩

/-- R161: WAIT_DRY passes on where the context owns a DRY hatch. -/
theorem testWaitDry_spec (hx : s.context? c = some x) (hl : x.finish = none) (hp : x.phase = .waitDry)
    (ht : x.timer = none) (ho : x.pendingOutcome = some o) :
    ∃ y, (testWaitDry c s).context? c = some y ∧ LeftDrying s c o x y ∧ (testWaitDry c s).custody = s.custody := by
  unfold testWaitDry
  rw [liveContext?_eq hx hl]
  dsimp only
  by_cases h : s.hatch.owner = .context c ∧ s.hatch.air = .dry
  · rw [if_pos ⟨hp, h.1, h.2⟩]
    have phase := setPhase_context hx .unloading
    have aside := (setPhase_aside c .unloading s).trans (updateLocks_aside _)
    have context := (updateLocks_context (setPhase c .unloading s) c).trans phase
    have owner : (updateLocks (setPhase c .unloading s)).hatch.owner = .context c := by
      rw [updateLocks_owner, setPhase_hatch]
      exact h.1
    have entered : enterPhase c .unloading s = updateLocks (setPhase c .unloading s) := by
      unfold enterPhase
      dsimp only
      rw [if_pos owner]
      exact grantEval_dry owner (aside.air.trans h.2)
    rw [entered]
    obtain ⟨ended, custody⟩ := testUnloading_spec context hl rfl ho
    refine ⟨_, ended, ?_, custody.trans aside.custody⟩
    unfold LeftDrying
    rw [if_pos h, aside.contents, aside.storeDoor, ← ho]
    split
    · rfl
    · rfl
  · rw [if_neg (fun k => h ⟨k.2.1, k.2.2⟩)]
    refine ⟨x, hx, ?_, rfl⟩
    unfold LeftDrying
    rw [if_neg h, ← hp, ← ht, ← ho]

theorem LeftDrying.congr (h : Aside s t) (ho : t.hatch.owner = s.hatch.owner) (hd : LeftDrying t c o x y) :
    LeftDrying s c o x y := by
  unfold LeftDrying at hd ⊢
  rw [← ho, ← h.air, ← h.contents, ← h.storeDoor]
  exact hd

/-- R161, R162: a context that goes to WAIT_DRY with a pending outcome. -/
theorem enterWaitDry_left (accepted : Bool) (hx : s.context? c = some x) (hl : x.finish = none)
    (ho : x.pendingOutcome = some o) :
    ∃ y, (enterWaitDry accepted c s).context? c = some y ∧ LeftDrying s c o x y ∧
      (enterWaitDry accepted c s).custody = s.custody := by
  unfold enterWaitDry
  dsimp only
  have phase := setPhase_context hx .waitDry
  have prompt : Moves .prompts (setPhase c .waitDry s)
      (if accepted then setPhase c .waitDry s else promptClosed c (setPhase c .waitDry s)) := by
    split
    · exact .refl
    · exact promptClosed_prompts ..
  generalize (if accepted then setPhase c .waitDry s else promptClosed c (setPhase c .waitDry s)) = p at prompt
  have aside : Aside s (updateLocks p) :=
    (setPhase_aside c .waitDry s).trans (prompt.aside.trans (updateLocks_aside p))
  have owner : (updateLocks p).hatch.owner = s.hatch.owner := by
    rw [updateLocks_owner, prompt.hatch_eq id, setPhase_hatch]
  have context : (updateLocks p).context? c = some { x with phase := .waitDry, timer := none } := by
    rw [updateLocks_context, prompt.prompts_context]
    exact phase
  generalize updateLocks p = v at aside owner context
  by_cases hd : v.hatch.owner = .context c
  · rw [if_pos hd]
    rcases grantEval_owned hd with e | ⟨e, hwet⟩
    · rw [e]
      obtain ⟨y, hy, hleft, custody⟩ := testWaitDry_spec context hl rfl rfl ho
      exact ⟨y, hy, hleft.congr aside owner, custody.trans aside.custody⟩
    · rw [e]
      have purged : LeftDrying (startPurge v) c o x { x with phase := .waitDry, timer := none, pendingOutcome := some o } := by
        unfold LeftDrying
        rw [if_neg fun k => by rw [startPurge_owner] at k; exact absurd k.1 nofun]
      obtain ⟨y, hy, hleft, custody⟩ := testWaitDry_spec ((startPurge_context v c).trans context) hl rfl rfl ho
      have hy' : LeftDrying (startPurge v) c o x y := hleft
      refine ⟨y, hy, ?_, custody.trans ((startPurge_aside v).custody.trans aside.custody)⟩
      unfold LeftDrying at hy' ⊢
      rw [if_neg fun k => by rw [startPurge_owner] at k; exact absurd k.1 nofun] at hy'
      rw [if_neg fun k => by rw [← aside.air, hwet] at k; exact absurd k.2 nofun]
      exact hy'
  · rw [if_neg hd]
    obtain ⟨y, hy, hleft, custody⟩ := testWaitDry_spec context hl rfl rfl ho
    exact ⟨y, hy, hleft.congr aside owner, custody.trans aside.custody⟩

end Sys2Proof.Machine
end

section
/-! The recalls (R160, R164), and claims of the sequencer that end no order: PICKED, RECEIVED, OUT (R156, R158). -/

namespace Sys2Proof.Machine

variable {s t u : State} {c d i : Nat} {x y : Context} {o : HOutcome} {r : Record}

/-! ## The recalls -/

/-- R140: an owner in a phase that does not yield keeps its hatch. -/
theorem grantEval_unyielding (ho : s.hatch.owner = .context c) (hx : s.context? c = some x)
    (hp : x.phase.yieldable = false) : grantEval s = s := by
  unfold grantEval
  split
  · rfl
  · split
    · next h =>
      have := h.2
      unfold purgeMayTake at this
      rw [ho] at this
      dsimp only at this
      rw [hx] at this
      dsimp only at this
      rw [hp] at this
      cases this
    · rw [ho]

/-- A recall as it is entered: its limit runs. -/
def Context.recalled (x : Context) (s : State) (ph : Phase) (o : HOutcome) : Context :=
  { x with phase := ph, timer := some (s.param .recallLimit * 60000), pendingOutcome := some o }

/-- R160, R164: the recall entered, before its end condition is tested. -/
theorem recallEntered {ph : Phase} (hx : s.context? c = some x) (hl : phaseLimit s ph = some (s.param .recallLimit * 60000))
    (hp : ph.yieldable = false) (o : HOutcome) :
    let v := manifestPrompt c (enterPhase c ph (setOutcome c o s))
    v.context? c = some (x.recalled s ph o) ∧ Aside s v ∧ v.hatch.owner = s.hatch.owner := by
  have outcome := setOutcome_context hx o
  have outcomeAside := setOutcome_aside c o s
  have phase := setPhase_context outcome ph
  have limit : phaseLimit (setOutcome c o s) ph = phaseLimit s ph := by
    unfold phaseLimit
    simp only [param_congr outcomeAside.settings]
  rw [limit, hl] at phase
  have aside := outcomeAside.trans ((setPhase_aside c ph _).trans (updateLocks_aside _))
  have context := (updateLocks_context (setPhase c ph (setOutcome c o s)) c).trans phase
  have owner : (updateLocks (setPhase c ph (setOutcome c o s))).hatch.owner = s.hatch.owner := by
    rw [updateLocks_owner, setPhase_hatch, setOutcome_hatch]
  have entered : enterPhase c ph (setOutcome c o s) = updateLocks (setPhase c ph (setOutcome c o s)) := by
    unfold enterPhase
    dsimp only
    split
    · next h => exact grantEval_unyielding h context hp
    · rfl
  intro v
  have prompt : Moves .prompts (updateLocks (setPhase c ph (setOutcome c o s))) v := by
    show Moves .prompts _ (manifestPrompt c (enterPhase c ph (setOutcome c o s)))
    rw [entered]
    exact manifestPrompt_prompts c _
  exact ⟨(prompt.prompts_context c).trans context, aside.trans prompt.aside,
    (congrArg Hatch.owner (prompt.hatch_eq id)).trans owner⟩

/-- R160: RECALL within its limit. -/
theorem testRecall_left (hx : s.context? c = some x) (hl : x.finish = none) (hp : x.phase = .recall)
    (ht : x.timer.isSome = true) (ho : x.pendingOutcome = some o) :
    ∃ y, (testRecall c s).context? c = some y ∧
      (if x.takenEntries = 0 ∧ roomDoor s = .closed then LeftDrying s c o x y else y = x) := by
  have hnone : x.timer.isNone = false := by
    cases htimer : x.timer with
    | none => rw [htimer] at ht; cases ht
    | some _ => rfl
  unfold testRecall
  rw [liveContext?_eq hx hl]
  dsimp only
  rw [hnone]
  by_cases hd : roomDoor s = .closed
  · rw [if_pos ⟨hp, hd⟩, if_neg Bool.false_ne_true]
    by_cases hz : x.takenEntries = 0
    · rw [if_pos hz]
      obtain ⟨y, hy, hleft, -⟩ := enterWaitDry_left false hx hl ho
      exact ⟨y, hy, by rw [if_pos ⟨hz, hd⟩]; exact hleft⟩
    · rw [if_neg hz]
      exact ⟨x, hx, by rw [if_neg fun k => hz k.1]⟩
  · rw [if_neg (fun k => hd k.2)]
    exact ⟨x, hx, by rw [if_neg fun k => hd k.2]⟩

/-- R164: RECALL_RETURN within its limit. -/
theorem testRecallReturn_left (hx : s.context? c = some x) (hl : x.finish = none) (hp : x.phase = .recallReturn)
    (ht : x.timer.isSome = true) (ho : x.pendingOutcome = some o) :
    (testRecallReturn c s).context? c = some
      (if s.hatch.contents = [] ∧ roomDoor s = .closed then
        { x with phase := .ended, timer := none, pendingOutcome := some o, finish := some (.recallReturn, o) }
       else x) := by
  have hnone : x.timer.isNone = false := by
    cases htimer : x.timer with
    | none => rw [htimer] at ht; cases ht
    | some _ => rfl
  unfold testRecallReturn
  rw [liveContext?_eq hx hl]
  dsimp only
  by_cases hd : roomDoor s = .closed
  · rw [if_pos ⟨hp, hd⟩, ho, hnone]
    cases hc : s.hatch.contents with
    | nil =>
      obtain ⟨context, -, -⟩ := endContext_spec hx hl o
      rw [hp, ho] at context
      rw [if_pos (c := ([] : List Label) = [] ∧ roomDoor s = .closed) ⟨rfl, hd⟩]
      exact context
    | cons l ls =>
      dsimp only
      rw [if_neg Bool.false_ne_true, if_neg (fun k => List.cons_ne_nil l ls k.1)]
      exact hx
  · rw [if_neg (fun k => hd k.2), if_neg (c := s.hatch.contents = [] ∧ roomDoor s = .closed) (fun k => hd k.2)]
    exact hx

/-- R160: the recall of an outbound context. -/
theorem enterRecall_left (hx : s.context? c = some x) (hl : x.finish = none) (o : HOutcome) :
    ∃ y, (enterRecall c o s).context? c = some y ∧ LeftRecalled s c .outbound o x y := by
  obtain ⟨context, aside, owner⟩ := recallEntered (ph := .recall) hx rfl rfl o
  obtain ⟨y, hy, hleft⟩ := testRecall_left context hl rfl rfl rfl
  refine ⟨y, hy, ?_⟩
  rw [aside.roomDoor] at hleft
  unfold LeftRecalled
  dsimp only
  have taken : (x.recalled s .recall o).takenEntries = x.takenEntries := rfl
  rw [taken] at hleft
  split
  · next h =>
    rw [if_pos h] at hleft
    exact hleft.congr aside owner
  · next h =>
    rw [if_neg h] at hleft
    exact hleft

/-- R164: the recall of a returning context. -/
theorem enterRecallReturn_left (hx : s.context? c = some x) (hl : x.finish = none) (o : HOutcome) :
    ∃ y, (enterRecallReturn c o s).context? c = some y ∧ LeftRecalled s c .returning o x y := by
  obtain ⟨context, aside, owner⟩ := recallEntered (ph := .recallReturn) hx rfl rfl o
  have left := testRecallReturn_left context hl rfl rfl rfl
  refine ⟨_, left, ?_⟩
  rw [aside.roomDoor, aside.contents]
  unfold LeftRecalled
  dsimp only
  split
  · rfl
  · rfl

theorem enterRecallOf_left (hx : s.context? c = some x) (hl : x.finish = none) (g : Direction) (o : HOutcome) :
    ∃ y, (enterRecallOf g c o s).context? c = some y ∧ LeftRecalled s c g o x y := by
  cases g with
  | outbound => exact enterRecall_left hx hl o
  | returning => exact enterRecallReturn_left hx hl o

/-! ## A claim that ends no order -/

/-- A record in the same state, place and hands. -/
structure SamePlace (r q : Record) : Prop where
  state : q.state = r.state
  location : q.location = r.location
  custodian : q.custodian = r.custodian

theorem SamePlace.refl (r : Record) : SamePlace r r := ⟨rfl, rfl, rfl⟩

theorem SamePlace.trans {q p : Record} (h : SamePlace r q) (g : SamePlace q p) : SamePlace r p :=
  ⟨g.state.trans h.state, g.location.trans h.location, g.custodian.trans h.custodian⟩

/-- A step at record i that leaves its state, place and hands. -/
structure KeepsPlace (i : Nat) (s t : State) : Prop where
  others : ∀ j, j ≠ i → t.record? j = s.record? j
  place : ∀ r, s.record? i = some r → ∃ q, t.record? i = some q ∧ SamePlace r q

theorem KeepsPlace.refl : KeepsPlace i s s := ⟨fun _ _ => rfl, fun r hr => ⟨r, hr, .refl r⟩⟩

theorem KeepsPlace.trans (h : KeepsPlace i s t) (g : KeepsPlace i t u) : KeepsPlace i s u where
  others j hj := (g.others j hj).trans (h.others j hj)
  place r hr := by
    obtain ⟨q, hq, hrq⟩ := h.place r hr
    obtain ⟨p, hp, hqp⟩ := g.place q hq
    exact ⟨p, hp, hrq.trans hqp⟩

theorem KeepsPlace.of_custody (h : t.custody = s.custody) : KeepsPlace i s t :=
  ⟨fun j _ => record?_congr h j, fun r hr => ⟨r, (record?_congr h i).trans hr, .refl r⟩⟩

/-- A record of which one field that is neither state nor place nor hands is written. -/
theorem keepsPlace_written {q : Record} (hr : s.record? i = some r) (hq : SamePlace r q) :
    KeepsPlace i s (writeRecord i (putRecord i q s)) where
  others := (placeWritten_putRecord i q s).others
  place r' hr' := by
    cases hr.symm.trans hr'
    exact ⟨q, (record?_congr (writeRecord_custody ..) i).trans (putRecord_same ..), hq⟩

theorem expose_keepsPlace (i : Nat) (s : State) : KeepsPlace i s (expose i s) := by
  cases h : s.record? i with
  | none => unfold expose; rw [h]; exact .refl
  | some r =>
    rw [expose_record h]
    split
    · exact .refl
    · exact keepsPlace_written h ⟨rfl, rfl, rfl⟩

theorem dropOrderSlot_keepsPlace (i : Nat) (s : State) : KeepsPlace i s (dropOrderSlot i s) := by
  cases h : s.record? i with
  | none => unfold dropOrderSlot; rw [h]; exact .refl
  | some r =>
    rw [dropOrderSlot_record h]
    exact keepsPlace_written h ⟨rfl, rfl, rfl⟩

theorem climateTold_keepsPlace (i : Nat) (old : Option Location) (s : State) :
    KeepsPlace i s (climateTold i old s) := by
  unfold climateTold
  split
  · exact .refl
  · split
    · exact .refl
    · split
      · split
        · exact expose_keepsPlace i s
        · exact .refl
      · exact .refl

theorem rackTold_keepsPlace (i : Nat) (old : Record) (s : State) : KeepsPlace i s (rackTold i old s) := by
  have m : Moves { Allow.all with custody := False } s (rackTold i old s) := rackTold_moves i old .refl trivial trivial
  exact .of_custody (m.custody_eq id)

/-- What a claim of the sequencer touches where no order ends by it. -/
def Allow.claims : Allow := { Allow.relocation with orders := True }

theorem evaluateOrder_claims (k : Nat) (s : State) : Moves .claims s (evaluateOrder k s) := by
  apply evaluateOrder_moves k .refl <;> trivial

theorem markHanded_keepsPlace (k i : Nat) (s : State) : KeepsPlace i s (markHanded k i s) := by
  unfold markHanded
  split
  · exact .refl
  · next o ho =>
    have put : ∀ p : Order, KeepsPlace i s (putOrder k p s) := fun p => .of_custody rfl
    have posted : ∀ v : State, KeepsPlace i v (postOrder k v) := fun v => by
      rw [postOrder_frame]
      exact .of_custody rfl
    exact ((put _).trans (dropOrderSlot_keepsPlace i _)).trans (posted _)

/-- R74: a record that becomes PICKED, RECEIVED or OUT ends no order. -/
theorem orderTold_calm (h : s.record? i = some r) (hs : r.state = .picked ∨ r.state = .received ∨ r.state = .out)
    (who : Claimant) : Moves .claims s (orderTold who i s) ∧ KeepsPlace i s (orderTold who i s) := by
  unfold orderTold
  rw [h]
  dsimp only
  split
  · exact ⟨.refl, .refl⟩
  · next k hk =>
    split
    · exact ⟨.refl, .refl⟩
    · split
      · exact ⟨.refl, .refl⟩
      · rcases hs with hs | hs | hs
        · rw [hs]
          have m : Moves { Allow.claims with custody := False } s (evaluateOrder k s) := by
            apply evaluateOrder_moves k .refl <;> trivial
          exact ⟨evaluateOrder_claims k s, .of_custody (m.custody_eq id)⟩
        · rw [hs]
          exact ⟨.refl, .refl⟩
        · rw [hs]
          refine ⟨?_, markHanded_keepsPlace k i s⟩
          apply markHanded_moves k i .refl <;> trivial

/-- A claim of the sequencer that makes a record PICKED, RECEIVED or OUT: the record as claimed, every other record
as it stands. -/
structure Claimed (i : Nat) (new : Record → Record) (s t : State) : Prop where
  moves : Moves .claims s t
  others : ∀ j, j ≠ i → t.record? j = s.record? j
  record : ∀ r, s.record? i = some r → ∃ q, t.record? i = some q ∧ SamePlace (normalise (new r)) q

theorem claim_calm {new : Record → Record} (hnew : ∀ r, (new r).state = .picked ∨ (new r).state = .received ∨ (new r).state = .out)
    (c i : Nat) (s : State) : Claimed i new s (claim (.handover c) i (fun _ => true) new s) := by
  unfold claim
  split
  · next hr => exact ⟨.refl, fun _ _ => rfl, fun r h => by rw [hr] at h; cases h⟩
  · next r hr =>
    rw [if_pos rfl, changeRecord_eq hr]
    have changed := basicChange_record hr false (new r)
    have basic : Moves .claims s (basicChange false i (new r) s) := by
      apply basicChange_moves false i (new r) .refl <;> trivial
    have told : Moves .claims (basicChange false i (new r) s)
          (if (new r).state ≠ r.state then orderTold (.handover c) i (basicChange false i (new r) s)
           else basicChange false i (new r) s) ∧
        KeepsPlace i (basicChange false i (new r) s)
          (if (new r).state ≠ r.state then orderTold (.handover c) i (basicChange false i (new r) s)
           else basicChange false i (new r) s) := by
      split
      · exact orderTold_calm changed (hnew r) (.handover c)
      · exact ⟨.refl, .refl⟩
    obtain ⟨toldMoves, toldPlace⟩ := told
    generalize (if (new r).state ≠ r.state then orderTold (.handover c) i (basicChange false i (new r) s)
           else basicChange false i (new r) s) = v at toldMoves toldPlace
    have others : Moves .claims v (tellOthers (.handover c) i r v) := by
      show Moves .claims v (climateTold i (some r.location) (rackTold i r v))
      apply climateTold_moves i _ (rackTold_moves i r .refl trivial trivial) <;> trivial
    have place : KeepsPlace i v (tellOthers (.handover c) i r v) :=
      (rackTold_keepsPlace i r v).trans (climateTold_keepsPlace i (some r.location) _)
    refine ⟨basic.trans (toldMoves.trans others), fun j hj => ?_, fun q hq => ?_⟩
    · rw [(toldPlace.trans place).others j hj, (basicChange_atRecord ..).others j hj]
    · cases hr.symm.trans hq
      exact (toldPlace.trans place).place _ changed

/-! ## A manifest resolved -/

/-- A manifest without the entries of a list of records. -/
def Context.without (x : Context) (is : List Nat) : Context :=
  { x with manifest := x.manifest.filter fun e => !is.contains e.record }

theorem without_nil (x : Context) : x.without [] = x := by
  have e : x.manifest.filter (fun e => !([] : List Nat).contains e.record) = x.manifest :=
    List.filter_eq_self.mpr fun _ _ => rfl
  unfold Context.without
  rw [e]

theorem without_holds (x : Context) (is : List Nat) (i : Nat) :
    (x.without is).holds i = (x.holds i && !is.contains i) := by
  unfold Context.holds Context.without
  dsimp only
  induction x.manifest with
  | nil => rfl
  | cons e es ih =>
    rw [List.filter_cons]
    by_cases h : e.record = i
    · subst h
      cases hc : is.contains e.record with
      | true =>
        rw [hc] at ih
        simpa using ih
      | false => simp
    · split
      · simp only [List.any_cons, beq_eq_false_iff_ne.mpr h, Bool.false_or]
        exact ih
      · simp only [List.any_cons, beq_eq_false_iff_ne.mpr h, Bool.false_or]
        exact ih

theorem without_cons (x : Context) (i : Nat) (is : List Nat) : (x.without [i]).without is = x.without (i :: is) := by
  unfold Context.without
  dsimp only
  rw [List.filter_filter]
  congr 1
  refine List.filter_congr fun e _ => ?_
  by_cases h : e.record = i
  · simp [h]
  · simp [h]

theorem without_of_not_holds (h : x.holds i = false) : x.without [i] = x := by
  have e : (x.manifest.filter fun e => !([i].contains e.record)) = x.manifest := by
    refine List.filter_eq_self.mpr fun e he => ?_
    have hne : e.record ≠ i := fun k => by
      have := List.any_eq_false.mp h e he
      simp [k] at this
    simpa using hne
  unfold Context.without
  rw [e]

theorem dropManifest_eq (hx : s.context? c = some x) (i : Nat) : dropManifest c i s = putContext c (x.without [i]) s := by
  have e : (fun e : ManifestEntry => e.record != i) = fun e => !([i].contains e.record) := by
    funext e
    simp only [List.contains_cons, List.contains_nil, Bool.or_false, bne]
  unfold dropManifest Context.without
  rw [hx, e]

/-- What the handling of a list of records, held by context c of s, leaves: context c as y; each record held as
claimed, every other one as it stands. -/
structure Handled (c : Nat) (x y : Context) (is : List Nat) (new : Record → Record) (s t : State) : Prop where
  context : t.context? c = some y
  moves : Moves { Allow.claims with contexts := True } s t
  others : ∀ j, ¬(j ∈ is ∧ x.holds j = true) → t.record? j = s.record? j
  records : ∀ j r, j ∈ is → x.holds j = true → s.record? j = some r →
    ∃ q, t.record? j = some q ∧ SamePlace (normalise (new r)) q

/-- What of a claim a handling needs: the entry is off the manifest, then its record is claimed. -/
theorem Handled.step {y : Context} {is : List Nat} {new : Record → Record} {v w : State}
    (hput : Moves { Allow.claims with contexts := True } s v) (hcustody : v.custody = s.custody)
    (claimed : Claimed i new v w) (hi : x.holds i = true) {x' : Context} (hx' : ∀ j, x'.holds j = (x.holds j && j != i))
    (g : Handled c x' y is new w t) (hm : Moves { Allow.claims with contexts := True } v w) :
    Handled c x y (i :: is) new s t where
  context := g.context
  moves := hput.trans (hm.trans g.moves)
  others j hj := by
    have hne : j ≠ i := fun e => hj ⟨e ▸ List.mem_cons_self, e ▸ hi⟩
    rw [g.others j fun ⟨hm, hh⟩ => hj ⟨List.mem_cons_of_mem _ hm, by
      rw [hx' j] at hh
      exact (Bool.and_eq_true_iff.mp hh).1⟩, claimed.others j hne]
    exact record?_congr hcustody j
  records j r hm hh hr := by
    by_cases e : j = i
    · subst e
      obtain ⟨q, hq, hsame⟩ := claimed.record r ((record?_congr hcustody j).trans hr)
      refine ⟨q, (g.others j fun ⟨_, hh'⟩ => ?_).trans hq, hsame⟩
      rw [hx' j] at hh'
      simp at hh'
    · refine g.records j r ((List.mem_cons.mp hm).resolve_left e) ?_
        ((claimed.others j e).trans ((record?_congr hcustody j).trans hr))
      rw [hx' j, hh]
      simpa using e

theorem Handled.skip {y : Context} {is : List Nat} {new : Record → Record} (hi : x.holds i = false)
    (g : Handled c x y is new s t) : Handled c x y (i :: is) new s t where
  context := g.context
  moves := g.moves
  others j hj := g.others j fun ⟨hm, hh⟩ => hj ⟨List.mem_cons_of_mem _ hm, hh⟩
  records j r hm hh hr := by
    refine g.records j r ((List.mem_cons.mp hm).resolve_left fun e => ?_) hh hr
    rw [e, hi] at hh
    cases hh

theorem Handled.nil (hx : s.context? c = some x) (new : Record → Record) : Handled c x x [] new s s where
  context := hx
  moves := .refl
  others _ _ := rfl
  records _ _ hm := absurd hm List.not_mem_nil

section Calm

variable {new : Record → Record}
  (hnew : ∀ r, (new r).state = .picked ∨ (new r).state = .received ∨ (new r).state = .out)

include hnew

theorem resolveAll_handled (c : Nat) (es : List ManifestEntry) : ∀ (x : Context) (s : State), s.context? c = some x →
    Handled c x (x.without (es.map (·.record))) (es.map (·.record)) new s
      (es.foldl (fun s e =>
        match s.context? c with
        | none => s
        | some y =>
          if y.holds e.record then claim (.handover c) e.record (fun _ => true) new (dropManifest c e.record s)
          else s) s) := by
  induction es with
  | nil =>
    intro x s hx
    rw [List.map_nil, without_nil]
    exact .nil hx new
  | cons e es ih =>
    intro x s hx
    rw [List.foldl_cons, List.map_cons, hx]
    dsimp only
    cases hh : x.holds e.record with
    | false =>
      rw [if_neg Bool.false_ne_true, ← without_cons, without_of_not_holds hh]
      exact (ih x s hx).skip hh
    | true =>
      rw [if_pos rfl, dropManifest_eq hx, ← without_cons]
      have claimed := claim_calm hnew c e.record (putContext c (x.without [e.record]) s)
      have context : (claim (.handover c) e.record (fun _ => true) new
          (putContext c (x.without [e.record]) s)).context? c = some (x.without [e.record]) :=
        (context?_congr (claimed.moves.contexts_eq id) c).trans (putContext_same ..)
      refine Handled.step (putContext_moves c _ .refl trivial) rfl claimed hh (fun j => ?_)
        (ih (x.without [e.record]) _ context) ?_
      · rw [without_holds]
        by_cases hj : j = e.record
        · simp [hj]
        · simp [hj]
      · apply claim_moves _ _ _ _ .refl <;> trivial

/-- R156: the manifest records claimed, the manifest is empty. -/
theorem resolveManifest_handled (hx : s.context? c = some x) :
    Handled c x { x with manifest := [] } (x.manifest.map (·.record)) new s
      (resolveManifest c (fun _ => true) (fun _ r => new r) s) := by
  have all := resolveAll_handled hnew c (x.manifest.filter fun _ => true) x s hx
  have whole : (x.manifest.filter fun _ => true) = x.manifest := List.filter_eq_self.mpr fun _ _ => rfl
  have gone : x.without (x.manifest.map (·.record)) = { x with manifest := [] } := by
    have e : (x.manifest.filter fun e => !(x.manifest.map (·.record)).contains e.record) = [] := by
      refine List.filter_eq_nil_iff.mpr fun e he => ?_
      simpa using ⟨e, he, rfl⟩
    unfold Context.without
    rw [e]
  rw [whole, gone] at all
  unfold resolveManifest
  rw [hx]
  dsimp only
  rw [whole]
  exact all

/-! ## Records accepted -/

/-- The context after a list of records has been accepted: each distinct one that it held is counted. -/
def Context.acceptedAll (x : Context) (is : List Nat) : Context :=
  { x.without is with accepted := x.accepted + (is.filter x.holds).eraseDups.length }

omit hnew in
theorem acceptedAll_skip (h : x.holds i = false) (is : List Nat) : x.acceptedAll (i :: is) = x.acceptedAll is := by
  unfold Context.acceptedAll
  rw [← without_cons, without_of_not_holds h, List.filter_cons_of_neg (by rw [h]; exact Bool.false_ne_true)]

omit hnew in
theorem acceptedAll_cons (h : x.holds i = true) (is : List Nat) :
    x.acceptedAll (i :: is) = ({ x.without [i] with accepted := x.accepted + 1 } : Context).acceptedAll is := by
  have held : ∀ j, ({ x.without [i] with accepted := x.accepted + 1 } : Context).holds j =
      (x.holds j && j != i) := fun j => by
    refine (without_holds x [i] j).trans ?_
    by_cases hj : j = i
    · simp [hj]
    · simp [hj]
  have rest : is.filter ({ x.without [i] with accepted := x.accepted + 1 } : Context).holds =
      (is.filter x.holds).filter fun j => !j == i := by
    rw [List.filter_filter]
    refine List.filter_congr fun j _ => ?_
    rw [held, Bool.and_comm]
    rfl
  unfold Context.acceptedAll
  rw [rest, List.filter_cons_of_pos h, List.eraseDups_cons, List.length_cons, ← without_cons]
  show Context.mk _ _ _ _ _ _ _ _ _ = Context.mk _ _ _ _ _ _ _ _ _
  congr 1
  show x.accepted + (_ + 1) = x.accepted + 1 + _
  omega

theorem acceptAll_handled (c : Nat) (is : List Nat) : ∀ (x : Context) (s : State), s.context? c = some x →
    Handled c x (x.acceptedAll is) is new s (is.foldl (fun s i => acceptOne c i new s) s) := by
  induction is with
  | nil =>
    intro x s hx
    have e : x.acceptedAll [] = x := by
      unfold Context.acceptedAll
      rw [without_nil]
      rfl
    rw [e]
    exact .nil hx new
  | cons i is ih =>
    intro x s hx
    rw [List.foldl_cons]
    cases hh : x.holds i with
    | false =>
      have e : acceptOne c i new s = s := by
        unfold acceptOne
        rw [hx]
        exact if_neg (by rw [hh]; exact Bool.false_ne_true)
      rw [e, acceptedAll_skip hh]
      exact (ih x s hx).skip hh
    | true =>
      have e : acceptOne c i new s = claim (.handover c) i (fun _ => true) new
          (putContext c { x.without [i] with accepted := x.accepted + 1 } s) := by
        have drop : (x.manifest.filter fun e => e.record != i) = (x.without [i]).manifest :=
          List.filter_congr fun e _ => by
            by_cases he : e.record = i
            · simp [he]
            · simp [he]
        unfold acceptOne
        rw [hx]
        dsimp only
        rw [if_pos hh, drop]
        rfl
      rw [e, acceptedAll_cons hh]
      have claimed := claim_calm hnew c i (putContext c { x.without [i] with accepted := x.accepted + 1 } s)
      have context : (claim (.handover c) i (fun _ => true) new
          (putContext c { x.without [i] with accepted := x.accepted + 1 } s)).context? c =
          some { x.without [i] with accepted := x.accepted + 1 } :=
        (context?_congr (claimed.moves.contexts_eq id) c).trans (putContext_same ..)
      refine Handled.step (putContext_moves c _ .refl trivial) rfl claimed hh (fun j => ?_) (ih _ _ context) ?_
      · refine (without_holds x [i] j).trans ?_
        by_cases hj : j = i
        · simp [hj]
        · simp [hj]
      · apply claim_moves _ _ _ _ .refl <;> trivial

end Calm

/-! ## LOADING broken off -/

theorem LeftDrying.of_hatch (h : t.hatch = s.hatch) (hd : LeftDrying t c o x y) : LeftDrying s c o x y := by
  unfold LeftDrying at hd ⊢
  simp only [storeDoor, h] at hd ⊢
  exact hd

theorem mem_records_of_holds (h : x.holds i = true) : i ∈ x.manifest.map (·.record) := by
  obtain ⟨e, he, hi⟩ := List.any_eq_true.mp h
  exact List.mem_map.mpr ⟨e, he, by simpa using hi⟩

/-- R156: LOADING broken off: every manifest record is PICKED at HATCH, and the context goes to WAIT_DRY. -/
theorem abandonLoading_left (hx : s.context? c = some x) (hl : x.finish = none) (o : HOutcome) :
    ∃ y, (abandonLoading c o s).context? c = some y ∧ LeftDrying s c o { x with manifest := [] } y ∧
      ∀ i, x.holds i = true → (s.record? i).isSome = true → RecordIs (abandonLoading c o s) i .picked .hatch := by
  have handled := resolveManifest_handled (new := Record.pickedAtHatch) (fun _ => .inl rfl) hx
  unfold abandonLoading
  generalize resolveManifest c (fun _ => true) (fun _ r => r.pickedAtHatch) s = v at handled
  have outcome := setOutcome_context handled.context o
  obtain ⟨y, hy, hleft, custody⟩ := enterWaitDry_left false outcome hl rfl
  refine ⟨y, hy, ?_, fun i hi hr => ?_⟩
  · exact LeftDrying.of_hatch ((setOutcome_hatch c o v).trans (handled.moves.hatch_eq id)) hleft
  · obtain ⟨r, hr⟩ := Option.isSome_iff_exists.mp hr
    obtain ⟨q, hq, hsame⟩ := handled.records i r (mem_records_of_holds hi) hi hr
    exact ⟨q, (record?_congr (custody.trans (setOutcome_aside c o v).custody) i).trans hq,
      hsame.state, hsame.location⟩

end Sys2Proof.Machine
end

section
/-! The host's decisions over a handover (R158, R159, R165). -/

namespace Sys2Proof.Machine

variable {s t u : State} {c i : Nat} {x y : Context} {o : HOutcome} {tag context : Byte} {st : Status} {data : List Byte}

/-! ## Acceptance -/

/-- The records of the taken entries. -/
def Context.takenRecords (x : Context) : List Nat := (x.manifest.filter (·.taken)).map (·.record)

theorem mem_takenRecords (x : Context) (i : Nat) : i ∈ x.takenRecords ↔ x.isTaken i = true := by
  unfold Context.takenRecords Context.isTaken
  rw [List.mem_map, List.any_eq_true]
  constructor
  · rintro ⟨e, he, rfl⟩
    obtain ⟨hm, ht⟩ := List.mem_filter.mp he
    exact ⟨e, hm, by simp [ht]⟩
  · rintro ⟨e, hm, h⟩
    obtain ⟨hi, ht⟩ := Bool.and_eq_true_iff.mp h
    exact ⟨e, List.mem_filter.mpr ⟨hm, ht⟩, by simpa using hi⟩

theorem holds_of_isTaken (h : x.isTaken i = true) : x.holds i = true := by
  obtain ⟨e, hm, he⟩ := List.any_eq_true.mp h
  exact List.any_eq_true.mpr ⟨e, hm, (Bool.and_eq_true_iff.mp he).1⟩

/-- R158: what an outbound handover keeps when its taken records are accepted. -/
theorem acceptedAll_taken (x : Context) : x.acceptedAll x.takenRecords =
    { x with manifest := x.manifest.filter fun e => !x.isTaken e.record,
             accepted := x.accepted + x.takenRecords.eraseDups.length } := by
  have held : x.takenRecords.filter x.holds = x.takenRecords :=
    List.filter_eq_self.mpr fun i hi => holds_of_isTaken ((mem_takenRecords x i).mp hi)
  have left : (x.manifest.filter fun e => !x.takenRecords.contains e.record) =
      x.manifest.filter fun e => !x.isTaken e.record := by
    refine List.filter_congr fun e _ => ?_
    congr 1
    rw [Bool.eq_iff_iff, List.contains_iff_mem]
    exact mem_takenRecords x e.record
  unfold Context.acceptedAll Context.without
  rw [held, left]

theorem acceptedAll_whole (x : Context) : x.acceptedAll (x.manifest.map (·.record)) =
    { x with manifest := [], accepted := x.accepted + (x.manifest.map (·.record)).eraseDups.length } := by
  have held : (x.manifest.map (·.record)).filter x.holds = x.manifest.map (·.record) := by
    refine List.filter_eq_self.mpr fun i hi => ?_
    obtain ⟨e, he, rfl⟩ := List.mem_map.mp hi
    exact List.any_eq_true.mpr ⟨e, he, by simp⟩
  have gone : (x.manifest.filter fun e => !(x.manifest.map (·.record)).contains e.record) = [] := by
    refine List.filter_eq_nil_iff.mpr fun e he => ?_
    simpa using ⟨e, he, rfl⟩
  unfold Context.acceptedAll Context.without
  rw [held, gone]

theorem promptDone_prompts (c : Nat) (s : State) : Moves .prompts s (promptDone c s) :=
  promptDone_moves c .refl trivial

/-- R158: a handover accepted whose manifest is not empty, or which returns, goes to WAIT_DRY. -/
theorem acceptedDrying (hx : s.context? c = some x) (hl : x.finish = none) :
    ∃ y, (enterWaitDry true c (promptDone c (setOutcome c .accepted s))).context? c = some y ∧
      LeftDrying s c .accepted x y ∧
      (enterWaitDry true c (promptDone c (setOutcome c .accepted s))).custody = s.custody := by
  have outcome := setOutcome_context hx .accepted
  have prompt := promptDone_prompts c (setOutcome c .accepted s)
  obtain ⟨y, hy, hleft, custody⟩ :=
    enterWaitDry_left true ((prompt.prompts_context c).trans outcome) hl rfl
  refine ⟨y, hy, ?_, custody.trans ((prompt.custody_eq id).trans (setOutcome_aside c .accepted s).custody)⟩
  exact LeftDrying.of_hatch ((prompt.hatch_eq id).trans (setOutcome_hatch c .accepted s)) hleft

/-- R158: an outbound handover accepted. -/
theorem acceptEffect_outbound (hx : s.context? c = some x) (hl : x.finish = none) (hd : x.direction = .outbound) :
    ∃ y, (acceptEffect c s).context? c = some y ∧
      (∀ i, x.isTaken i = true → (s.record? i).isSome = true → ∃ q, (acceptEffect c s).record? i = some q ∧
        q.state = .out ∧ q.location = .courier x.courier ∧ q.custodian = some x.courier) ∧
      ((x.acceptedAll x.takenRecords).manifest = [] →
        y = { x.acceptedAll x.takenRecords with
          phase := .ended, timer := none, finish := some (x.phase, .accepted) }) ∧
      ((x.acceptedAll x.takenRecords).manifest ≠ [] → LeftDrying s c .accepted (x.acceptedAll x.takenRecords) y) := by
  have handled := acceptAll_handled (new := fun r => r.outWithCourier x.courier) (fun _ => .inr (.inr rfl)) c
    x.takenRecords x s hx
  have e : acceptEffect c s =
      match liveContext? (x.takenRecords.foldl (fun s i => acceptOne c i (fun r => r.outWithCourier x.courier) s) s) c with
      | none => x.takenRecords.foldl (fun s i => acceptOne c i (fun r => r.outWithCourier x.courier) s) s
      | some y =>
        if y.manifest.isEmpty then endContext c .accepted (promptDone c
          (x.takenRecords.foldl (fun s i => acceptOne c i (fun r => r.outWithCourier x.courier) s) s))
        else enterWaitDry true c (promptDone c (setOutcome c .accepted
          (x.takenRecords.foldl (fun s i => acceptOne c i (fun r => r.outWithCourier x.courier) s) s))) := by
    unfold acceptEffect
    rw [liveContext?_eq hx hl]
    dsimp only
    rw [hd]
    rfl
  rw [e]
  generalize x.takenRecords.foldl (fun s i => acceptOne c i (fun r => r.outWithCourier x.courier) s) s = v at handled
  have live : (x.acceptedAll x.takenRecords).finish = none := hl
  rw [liveContext?_eq handled.context live]
  dsimp only
  have out : ∀ i, x.isTaken i = true → (s.record? i).isSome = true → ∃ q, v.record? i = some q ∧
      q.state = .out ∧ q.location = .courier x.courier ∧ q.custodian = some x.courier := by
    intro i hi hr
    obtain ⟨r, hr⟩ := Option.isSome_iff_exists.mp hr
    obtain ⟨q, hq, hsame⟩ := handled.records i r ((mem_takenRecords x i).mpr hi) (holds_of_isTaken hi) hr
    exact ⟨q, hq, hsame.state, hsame.location, hsame.custodian⟩
  cases hm : (x.acceptedAll x.takenRecords).manifest with
  | nil =>
    have prompt := promptDone_prompts c v
    obtain ⟨ended, spares, -⟩ := endContext_spec ((prompt.prompts_context c).trans handled.context) live .accepted
    rw [if_pos (show ([] : List ManifestEntry).isEmpty = true from rfl)]
    refine ⟨_, ended, fun i hi hr => ?_, fun _ => ?_, fun h => absurd rfl h⟩
    · obtain ⟨q, hq, hstate, hplace, hands⟩ := out i hi hr
      refine ⟨q, spares i q ((record?_congr (prompt.custody_eq id) i).trans hq) ?_, hstate, hplace, hands⟩
      rw [hstate]
      rfl
    · rw [← hm]
      rfl
  | cons e es =>
    obtain ⟨y, hy, hleft, custody⟩ := acceptedDrying handled.context live
    rw [if_neg (show ¬(e :: es).isEmpty = true from Bool.false_ne_true)]
    refine ⟨y, hy, fun i hi hr => ?_, fun h => absurd h (List.cons_ne_nil e es), fun _ => ?_⟩
    · obtain ⟨q, hq, hplaced⟩ := out i hi hr
      exact ⟨q, (record?_congr custody i).trans hq, hplaced⟩
    · exact LeftDrying.of_hatch (handled.moves.hatch_eq id) hleft

/-- R158: a returning handover accepted. -/
theorem acceptEffect_returning (hx : s.context? c = some x) (hl : x.finish = none) (hd : x.direction = .returning) :
    ∃ y, (acceptEffect c s).context? c = some y ∧
      (∀ i, x.holds i = true → (s.record? i).isSome = true → RecordIs (acceptEffect c s) i .received .hatch) ∧
      LeftDrying s c .accepted (x.acceptedAll (x.manifest.map (·.record))) y := by
  have handled := acceptAll_handled (new := fun r => { r with state := .received, location := .hatch })
    (fun _ => .inr (.inl rfl)) c (x.manifest.map (·.record)) x s hx
  have e : acceptEffect c s = enterWaitDry true c (promptDone c (setOutcome c .accepted
      ((x.manifest.map (·.record)).foldl (fun s i => acceptOne c i
        (fun r => { r with state := .received, location := .hatch }) s) s))) := by
    unfold acceptEffect
    rw [liveContext?_eq hx hl]
    dsimp only
    rw [hd]
  rw [e]
  generalize (x.manifest.map (·.record)).foldl (fun s i => acceptOne c i
    (fun r => { r with state := .received, location := .hatch }) s) s = v at handled
  obtain ⟨y, hy, hleft, custody⟩ := acceptedDrying handled.context hl
  refine ⟨y, hy, fun i hi hr => ?_, LeftDrying.of_hatch (handled.moves.hatch_eq id) hleft⟩
  obtain ⟨r, hr⟩ := Option.isSome_iff_exists.mp hr
  obtain ⟨q, hq, hsame⟩ := handled.records i r (mem_records_of_holds hi) hi hr
  exact ⟨q, (record?_congr custody i).trans hq, hsame.state, hsame.location⟩

/-! ## The requests -/

/-- What a decision over a handover touches. -/
def Allow.deciding : Allow :=
  { Allow.all with host := False, nodes := False, settings := False, climate := False, fire := False, roster := False,
                   image := False }

theorem Direction.outbound_or_returning (g : Direction) : g = .outbound ∨ g = .returning := by
  cases g
  · exact .inl rfl
  · exact .inr rfl

theorem awaitsRelease_iff : awaitsRelease s c = true ↔ ∃ x, liveContext? s c = some x ∧ x.phase = .awaitRelease := by
  unfold awaitsRelease
  cases h : liveContext? s c with
  | none => simp
  | some x => simp

theorem answers_acceptHandover (h : HostReady s) (ht : tag ≠ 0)
    (e : acceptHandoverRequest context (taken s) = .reply st data t) :
    Answers (.acceptHandover tag context) tag 0x81 st data s t := answers_of_carryOut h ht rfl rfl e

theorem answers_disputeHandover (h : HostReady s) (ht : tag ≠ 0)
    (e : disputeHandoverRequest context (taken s) = .reply st data t) :
    Answers (.disputeHandover tag context) tag 0x82 st data s t := answers_of_carryOut h ht rfl rfl e

theorem answers_abortHandover (h : HostReady s) (ht : tag ≠ 0)
    (e : abortHandoverRequest context (taken s) = .reply st data t) :
    Answers (.abortHandover tag context) tag 0x83 st data s t := answers_of_carryOut h ht rfl rfl e

theorem abortHandoverRequest_eq {f : State → State} (hc : context.toNat < 2)
    (hx : liveContext? s context.toNat = some x) (hf : abortEffect context.toNat x = some f) :
    abortHandoverRequest context s = okPlain (f s) := by
  unfold abortHandoverRequest
  rw [if_pos ((contextOk_iff context).mpr hc), hx, Option.bind_some, hf]

theorem abortHandoverRequest_refused (hc : context.toNat < 2)
    (h : (liveContext? s context.toNat).bind (abortEffect context.toNat) = none) :
    abortHandoverRequest context s = refuse .wrongState s := by
  unfold abortHandoverRequest
  rw [if_pos ((contextOk_iff context).mpr hc), h]

theorem Moves.deciding (m : Moves .deciding s t) : KeepsLayout s t ∧ t.fire = s.fire ∧ t.climate = s.climate :=
  ⟨m.keepsLayout id id id id, m.fire_eq id, m.climate_eq id⟩

theorem acceptEffect_deciding (c : Nat) (s : State) : Moves .deciding s (acceptEffect c s) := by
  apply acceptEffect_moves c .refl <;> trivial

theorem disputeEffect_deciding (c : Nat) (s : State) : Moves .deciding s (disputeEffect c s) := by
  apply disputeEffect_moves c .refl <;> trivial

theorem abortEffect_deciding {f : State → State} (hf : abortEffect c x = some f) (s : State) :
    Moves .deciding s (f s) := by
  apply abortEffect_moves hf .refl <;> trivial

end Sys2Proof.Machine

namespace Sys2Proof

open Machine

/-- Settles O57, by the decision and the phase. -/
theorem hostDecidesHandover : Obligations.HostDecidesHandover := by
  intro s tag context hready htag
  dsimp only
  have notOk : 2 ≤ context.toNat → contextOk context = false := fun h =>
    eq_false_of_ne_true fun k => absurd ((contextOk_iff context).mp k) (Nat.not_lt.mpr h)
  have isOk : context.toNat < 2 → contextOk context = true := (contextOk_iff context).mpr
  have notLocked : lockout s = false → (!lockout (taken s)) = true := fun h => by
    rw [show lockout (taken s) = lockout s from rfl, h]
    rfl
  have notWaiting : (¬∃ x, liveContext? s context.toNat = some x ∧ x.phase = .awaitRelease) →
      awaitsRelease (taken s) context.toNat = false := fun h =>
    eq_false_of_ne_true fun k => h (awaitsRelease_iff.mp k)
  have refuse := fun {st} => answers_acceptHandover (context := context) (st := st) (data := []) (t := taken s) hready htag
  have refuse' := fun {st} => answers_disputeHandover (context := context) (st := st) (data := []) (t := taken s) hready htag
  have refuse'' := fun {st} => answers_abortHandover (context := context) (st := st) (data := []) (t := taken s) hready htag
  refine ⟨fun hl => ?_, fun hc => ⟨fun hl => ?_, ?_, ?_⟩, fun hc hl hf => ?_, fun hc hw => ⟨fun hl hf => ?_, ?_⟩,
    fun x hc hx hp => ⟨fun hl hf => ?_, ?_⟩, fun hc hn => ?_, fun x hc hx => ?_⟩
  · refine refuse (checked_fails (firstFailure_fail ?_))
    rw [show lockout (taken s) = lockout s from rfl, hl]
    rfl
  · exact refuse (checked_fails ((firstFailure_pass (notLocked hl)).trans (firstFailure_fail (notOk hc))))
  · exact refuse' (checked_fails (firstFailure_fail (notOk hc)))
  · refine refuse'' ?_
    unfold abortHandoverRequest
    rw [if_neg fun k => by rw [notOk hc] at k; cases k]
    rfl
  · refine refuse (checked_fails ((firstFailure_pass (notLocked hl)).trans ((firstFailure_pass (isOk hc)).trans
      (firstFailure_fail ?_))))
    rw [show (taken s).device.storeFault = s.device.storeFault from rfl, hf]
    rfl
  · refine refuse (checked_fails ((firstFailure_pass (notLocked hl)).trans ((firstFailure_pass (isOk hc)).trans
      ((firstFailure_pass ?_).trans (firstFailure_fail (notWaiting hw))))))
    rw [show (taken s).device.storeFault = s.device.storeFault from rfl, hf]
    rfl
  · exact refuse' (checked_fails ((firstFailure_pass (isOk hc)).trans (firstFailure_fail (notWaiting hw))))
  · obtain ⟨hcontext, hlive⟩ := liveContext?_iff.mp hx
    have fault : (!(taken s).device.storeFault) = true := by
      rw [show (taken s).device.storeFault = s.device.storeFault from rfl, hf]
      rfl
    have waits : awaitsRelease (taken s) context.toNat = true := awaitsRelease_iff.mpr ⟨x, hx, hp⟩
    have accepted := answers_acceptHandover (context := context) hready htag (checked_passes
      ((firstFailure_pass (notLocked hl)).trans ((firstFailure_pass (isOk hc)).trans
        ((firstFailure_pass fault).trans (firstFailure_pass waits)))))
    have keeps := (acceptEffect_deciding context.toNat (taken s)).deciding
    rcases x.direction.outbound_or_returning with hd | hd
    · obtain ⟨y, hy, out, ended, drying⟩ := acceptEffect_outbound (s := taken s) hcontext hlive hd
      rw [acceptedAll_taken, hp] at ended
      rw [acceptedAll_taken] at drying
      exact ⟨_, y, accepted, keeps, hy, fun _ => ⟨out, ended, drying⟩, fun h => absurd (hd.symm.trans h) nofun⟩
    · obtain ⟨y, hy, received, drying⟩ := acceptEffect_returning (s := taken s) hcontext hlive hd
      rw [acceptedAll_whole] at drying
      exact ⟨_, y, accepted, keeps, hy, fun h => absurd (hd.symm.trans h) nofun, fun _ => ⟨received, drying⟩⟩
  · obtain ⟨hcontext, hlive⟩ := liveContext?_iff.mp hx
    have waits : awaitsRelease (taken s) context.toNat = true := awaitsRelease_iff.mpr ⟨x, hx, hp⟩
    have disputed := answers_disputeHandover (context := context) hready htag (checked_passes
      ((firstFailure_pass (isOk hc)).trans (firstFailure_pass waits)))
    obtain ⟨y, hy, left⟩ := enterRecallOf_left (s := taken s) hcontext hlive x.direction .disputed
    have e : disputeEffect context.toNat (taken s) = enterRecallOf x.direction context.toNat .disputed (taken s) := by
      unfold disputeEffect
      rw [show liveContext? (taken s) context.toNat = some x from hx]
    exact ⟨_, y, disputed, (disputeEffect_deciding ..).deciding, by rw [e]; exact hy, left⟩
  · refine refuse'' (abortHandoverRequest_refused hc ?_)
    rw [show liveContext? (taken s) context.toNat = none from hn]
    rfl
  · obtain ⟨hcontext, hlive⟩ := liveContext?_iff.mp hx
    have aborted : ∀ {f}, abortEffect context.toNat x = some f →
        Answers (.abortHandover tag context) tag 0x83 .ok [] s (f (taken s)) ∧
          KeepsLayout s (f (taken s)) ∧ (f (taken s)).fire = s.fire ∧ (f (taken s)).climate = s.climate := fun hf =>
      ⟨answers_abortHandover hready htag (abortHandoverRequest_eq (s := taken s) hc hx hf),
        (abortEffect_deciding hf (taken s)).deciding⟩
    refine ⟨fun hp => ?_, fun hp => ?_, fun hp => ?_, fun hp => ?_, fun hp => ?_, fun hp => ?_⟩
    · refine refuse'' (abortHandoverRequest_refused hc ?_)
      rw [show liveContext? (taken s) context.toNat = some x from hx, Option.bind_some]
      unfold abortEffect
      simp only [List.mem_cons, List.not_mem_nil, or_false] at hp
      rcases hp with hp | hp | hp | hp <;> rw [hp]
    · obtain ⟨answers, keeps⟩ := aborted (show abortEffect context.toNat x = some (endContext context.toNat .hostAbort) by
        unfold abortEffect; rw [hp])
      obtain ⟨ended, -, -⟩ := endContext_spec (s := taken s) hcontext hlive .hostAbort
      rw [hp] at ended
      exact ⟨_, _, answers, keeps, ended, rfl⟩
    · obtain ⟨answers, keeps⟩ := aborted (show abortEffect context.toNat x = some (abandonLoading context.toNat .hostAbort) by
        unfold abortEffect; rw [hp])
      obtain ⟨y, hy, left, picked⟩ := abandonLoading_left (s := taken s) hcontext hlive .hostAbort
      exact ⟨_, y, answers, keeps, hy, left, picked⟩
    · obtain ⟨answers, keeps⟩ := aborted (show abortEffect context.toNat x = some (enterRecall context.toNat .hostAbort) by
        unfold abortEffect; rw [hp])
      obtain ⟨y, hy, left⟩ := enterRecall_left (s := taken s) hcontext hlive .hostAbort
      exact ⟨_, y, answers, keeps, hy, left⟩
    · obtain ⟨answers, keeps⟩ := aborted (show abortEffect context.toNat x = some (enterRecallReturn context.toNat .hostAbort) by
        unfold abortEffect; rw [hp])
      obtain ⟨y, hy, left⟩ := enterRecallReturn_left (s := taken s) hcontext hlive .hostAbort
      exact ⟨_, y, answers, keeps, hy, left⟩
    · obtain ⟨answers, keeps⟩ := aborted (show abortEffect context.toNat x = some (enterRecallOf x.direction context.toNat .hostAbort) by
        unfold abortEffect; rw [hp])
      obtain ⟨y, hy, left⟩ := enterRecallOf_left (s := taken s) hcontext hlive x.direction .hostAbort
      exact ⟨_, y, answers, keeps, hy, left⟩

end Sys2Proof
end

section
/-! The phase limits (R153 to R164): the recall limit resolves the records that are still out, and an order that fails
by it releases further ones. -/

namespace Sys2Proof.Machine

variable {s t u : State} {c d i j : Nat} {x y z : Context} {o : HOutcome} {r : Record}

/-! ## A manifest that is resolved -/

/-- A context whose manifest has lost entries and which else stands. -/
structure Shrunk (x y : Context) : Prop where
  same : y = { x with manifest := y.manifest }
  entries : ∀ e ∈ y.manifest, e ∈ x.manifest

theorem Shrunk.refl (x : Context) : Shrunk x x := ⟨rfl, fun _ h => h⟩

theorem Shrunk.trans (h : Shrunk x y) (g : Shrunk y z) : Shrunk x z :=
  ⟨by rw [g.same, h.same], fun e he => h.entries e (g.entries e he)⟩

theorem without_shrunk (x : Context) (is : List Nat) : Shrunk x (x.without is) :=
  ⟨rfl, fun _ he => (List.mem_filter.mp he).1⟩

theorem Shrunk.holds (h : Shrunk x y) (hi : y.holds i = true) : x.holds i = true := by
  obtain ⟨e, he, hr⟩ := List.any_eq_true.mp hi
  exact List.any_eq_true.mpr ⟨e, h.entries e he, hr⟩

/-- What a claim that resolves a record needs to know of it: how it lies while its entry stands (pending), and how when
the entry is gone (resolved). -/
structure Resolution where
  covers : Nat → Prop
  pending : Record → Prop
  resolved : Record → Prop
  pending_same : ∀ {r q}, SamePlace r q → pending r → pending q
  resolved_same : ∀ {r q}, SamePlace r q → resolved r → resolved q
  released : ∀ {r new}, pending r → releaseOf r = some new →
    resolved (normalise new) ∧ r.state = .staged ∧ new.state.isBlocked = true
  unreleased : ∀ {r}, resolved r → releaseOf r = none

/-- Context c of s is y, live, and each record covered lies as its entry calls for. -/
structure Resolution.At (R : Resolution) (c : Nat) (y : Context) (s : State) : Prop where
  context : s.context? c = some y
  live : y.finish = none
  records : ∀ i, R.covers i → ∃ r, s.record? i = some r ∧
    (y.holds i = true → R.pending r) ∧ (y.holds i = false → R.resolved r)

/-- A step of which the records covered stay as their entries call for. -/
def Resolution.Step (R : Resolution) (c : Nat) (s t : State) : Prop :=
  ∀ y, R.At c y s → ∃ z, Shrunk y z ∧ R.At c z t

variable {R : Resolution}

theorem Resolution.Step.refl : R.Step c s s := fun y h => ⟨y, .refl y, h⟩

theorem Resolution.Step.trans (h : R.Step c s t) (g : R.Step c t u) : R.Step c s u := fun y hy => by
  obtain ⟨z, hz, atz⟩ := h y hy
  obtain ⟨w, hw, atw⟩ := g z atz
  exact ⟨w, hz.trans hw, atw⟩

theorem Resolution.Step.foldl {α : Type} {f : State → α → State} (l : List α) (hf : ∀ a t, R.Step c t (f t a)) :
    ∀ s, R.Step c s (l.foldl f s) := by
  induction l with
  | nil => exact fun _ => .refl
  | cons a l ih => exact fun s => (hf a s).trans (ih (f s a))

/-- A step at one record that leaves its place, and the contexts. -/
theorem Resolution.Step.of_keepsPlace (hc : t.context? c = s.context? c) (h : KeepsPlace i s t) : R.Step c s t := by
  intro y hy
  refine ⟨y, .refl y, hc.trans hy.context, hy.live, fun j hj => ?_⟩
  obtain ⟨r, hr, hp, hd⟩ := hy.records j hj
  by_cases hji : j = i
  · subst hji
    obtain ⟨q, hq, hsame⟩ := h.place r hr
    exact ⟨q, hq, fun k => R.pending_same hsame (hp k), fun k => R.resolved_same hsame (hd k)⟩
  · exact ⟨r, (h.others j hji).trans hr, hp, hd⟩

/-- What touches neither the contexts nor the Custody Table. -/
theorem Resolution.Step.of_eq (hc : t.context? c = s.context? c) (hu : t.custody = s.custody) : R.Step c s t :=
  .of_keepsPlace (i := 0) hc (.of_custody hu)

/-! ## The sequencer is told -/

/-- One context told that a record has left STAGED or INBOUND (R152). -/
def toldOne (i : Nat) (s : State) (c : Nat) : State :=
  match liveContext? s c with
  | some x => if x.holds i then manifestPrompt c (dropManifest c i s) else s
  | none => s

theorem toldOne_other (h : c ≠ d) (i : Nat) (s : State) : (toldOne i s d).context? c = s.context? c := by
  unfold toldOne
  split
  · next x hx =>
    split
    · rw [(manifestPrompt_prompts d _).prompts_context, dropManifest_eq (liveContext?_iff.mp hx).1, putContext_other h]
    · rfl
  · rfl

theorem toldOne_same (hx : s.context? c = some x) (hl : x.finish = none) (i : Nat) :
    (toldOne i s c).context? c = some (x.without [i]) := by
  unfold toldOne
  rw [liveContext?_eq hx hl]
  dsimp only
  cases hh : x.holds i with
  | true => rw [if_pos rfl, (manifestPrompt_prompts c _).prompts_context, dropManifest_eq hx, putContext_same]
  | false => rw [if_neg Bool.false_ne_true, without_of_not_holds hh, hx]

theorem toldBoth (hc : c < 2) (hx : s.context? c = some x) (hl : x.finish = none) (i : Nat) :
    (toldOne i (toldOne i s 0) 1).context? c = some (x.without [i]) := by
  by_cases h : c = 0
  · subst h
    rw [toldOne_other Nat.zero_ne_one, toldOne_same hx hl]
  · obtain rfl : c = 1 := by omega
    exact toldOne_same ((toldOne_other Nat.one_ne_zero i s).trans hx) hl i

/-- R152: a record that has left STAGED or INBOUND leaves the manifest of the context that held it, where it stood
there before. -/
theorem handoverTold_context (hc : c < 2) (hx : s.context? c = some x) (hl : x.finish = none) (i : Nat) (old : Record) :
    ((handoverTold i old s).context? c = some x ∨ (handoverTold i old s).context? c = some (x.without [i])) ∧
      (∀ r, old.state = .staged → s.record? i = some r → r.state.isBlocked = true →
        (handoverTold i old s).context? c = some (x.without [i])) := by
  have both : (toldOne i (toldOne i s 0) 1).context? c = some (x.without [i]) := toldBoth hc hx hl i
  unfold handoverTold
  split
  · next new hstaged hnew =>
    split
    · next h =>
      refine ⟨.inl hx, fun r _ hr hb => ?_⟩
      cases hnew.symm.trans hr
      rcases h with h | h <;> rw [h] at hb <;> cases hb
    · exact ⟨.inr both, fun _ _ _ _ => both⟩
  · next new hinbound hnew =>
    split
    · exact ⟨.inl hx, fun r hs _ _ => by rw [hinbound] at hs; cases hs⟩
    · exact ⟨.inr both, fun _ _ _ _ => both⟩
  · next hnone _ =>
    exact ⟨.inl hx, fun r hs hr _ => absurd hr (hnone r hs)⟩

theorem handoverTold_custody (i : Nat) (old : Record) (s : State) : (handoverTold i old s).custody = s.custody := by
  have m : Moves .manifest s (handoverTold i old s) := handoverTold_moves i old .refl trivial trivial
  exact m.custody_eq id

/-! ## Releases -/

/-- The rack and the climate are told after the sequencer. -/
theorem tellOthers_orders (i : Nat) (old : Record) (s : State) :
    tellOthers .orders i old s = climateTold i (some old.location) (rackTold i old (handoverTold i old s)) := rfl

theorem rackAndClimate_step (i : Nat) (old : Record) (s : State) :
    R.Step c s (climateTold i (some old.location) (rackTold i old s)) := by
  have m : Moves { Allow.all with contexts := False } s (climateTold i (some old.location) (rackTold i old s)) := by
    apply climateTold_moves i _ (rackTold_moves i old .refl trivial trivial) <;> trivial
  exact .of_keepsPlace (context?_congr (m.contexts_eq id) c)
    ((rackTold_keepsPlace i old s).trans (climateTold_keepsPlace i _ _))

theorem dropOrderSlot_step (i : Nat) (s : State) : R.Step c s (dropOrderSlot i s) := by
  have m : Moves { Allow.all with contexts := False } s (dropOrderSlot i s) := by
    apply dropOrderSlot_moves i .refl <;> trivial
  exact .of_keepsPlace (context?_congr (m.contexts_eq id) c) (dropOrderSlot_keepsPlace i s)

/-- R80: a release by claim, told to the sequencer: a record that was pending is resolved, and off the manifest. -/
theorem releaseClaim_step {new : Record} (hc : c < 2) (hr : s.record? i = some r) (hn : releaseOf r = some new) :
    R.Step c s (handoverTold i r (basicChange false i new s)) := by
  intro y hy
  have changed := basicChange_record hr false new
  have m : Moves { Allow.all with contexts := False } s (basicChange false i new s) := by
    apply basicChange_moves false i new .refl <;> trivial
  have context : (basicChange false i new s).context? c = some y :=
    (context?_congr (m.contexts_eq id) c).trans hy.context
  have others : ∀ j, j ≠ i → (handoverTold i r (basicChange false i new s)).record? j = s.record? j := fun j hj =>
    (record?_congr (handoverTold_custody ..) j).trans ((basicChange_atRecord false i new s).others j hj)
  have record : (handoverTold i r (basicChange false i new s)).record? i = some (normalise new) :=
    (record?_congr (handoverTold_custody ..) i).trans changed
  obtain ⟨either, dropped⟩ := handoverTold_context hc context hy.live i r
  by_cases hi : R.covers i
  · obtain ⟨q, hq, pending, resolved⟩ := hy.records i hi
    cases hr.symm.trans hq
    cases hh : y.holds i with
    | false =>
      rw [R.unreleased (resolved hh)] at hn
      cases hn
    | true =>
      obtain ⟨hdone, hstaged, hblocked⟩ := R.released (pending hh) hn
      refine ⟨y.without [i], without_shrunk y [i], dropped _ hstaged changed hblocked, hy.live, fun j hj => ?_⟩
      by_cases hji : j = i
      · subst hji
        refine ⟨_, record, fun k => ?_, fun _ => hdone⟩
        rw [without_holds] at k
        simp at k
      · obtain ⟨q, hq, hp, hd⟩ := hy.records j hj
        have held : (y.without [i]).holds j = y.holds j := by
          rw [without_holds]
          simp [hji]
        exact ⟨q, (others j hji).trans hq, fun k => hp (held ▸ k), fun k => hd (held ▸ k)⟩
  · have covered : ∀ j, R.covers j → j ≠ i := fun j hj e => hi (e ▸ hj)
    rcases either with e | e
    · refine ⟨y, .refl y, e, hy.live, fun j hj => ?_⟩
      obtain ⟨q, hq, hp, hd⟩ := hy.records j hj
      exact ⟨q, (others j (covered j hj)).trans hq, hp, hd⟩
    · refine ⟨y.without [i], without_shrunk y [i], e, hy.live, fun j hj => ?_⟩
      obtain ⟨q, hq, hp, hd⟩ := hy.records j hj
      have held : (y.without [i]).holds j = y.holds j := by
        rw [without_holds]
        simp [covered j hj]
      exact ⟨q, (others j (covered j hj)).trans hq, fun k => hp (held ▸ k), fun k => hd (held ▸ k)⟩

theorem releaseEntry_step (hc : c < 2) (i : Nat) (s : State) : R.Step c s (releaseEntry i s) := by
  unfold releaseEntry
  split
  · exact .refl
  · next r hr =>
    split
    · next new hn =>
      rw [tellOthers_orders]
      exact (releaseClaim_step hc hr hn).trans (rackAndClimate_step i r _)
    · exact dropOrderSlot_step i s

theorem putOrder_step (k : Nat) (p : Order) (s : State) : R.Step c s (putOrder k p s) := .of_eq rfl rfl

theorem postOrder_step (k : Nat) (s : State) : R.Step c s (postOrder k s) := by
  rw [postOrder_frame]
  exact .of_eq rfl rfl

/-- R76, R80: an order that fails releases its entries. -/
theorem finishOrder_step (hc : c < 2) (k : Nat) (outcome : OOutcome) (s : State) :
    R.Step c s (finishOrder k outcome s) := by
  unfold finishOrder
  split
  · exact .refl
  · split
    · exact .refl
    · next o _ _ =>
      exact Resolution.Step.trans (putOrder_step k _ s)
        (Resolution.Step.trans (.foldl _ (releaseEntry_step hc) _) (postOrder_step k _))

/-- R79: of a record that becomes BLOCKED its order fails, if anything. -/
theorem orderTold_blocked (hr : s.record? i = some r) (hb : r.state.isBlocked = true) (who : Claimant) :
    orderTold who i s = s ∨ ∃ k, orderTold who i s = finishOrder k .failedBlocked s := by
  unfold orderTold
  rw [hr]
  dsimp only
  split
  · exact .inl rfl
  · next k _ =>
    split
    · exact .inl rfl
    · split
      · exact .inl rfl
      · cases hs : r.state with
        | blocked b => exact .inr ⟨k, rfl⟩
        | _ => rw [hs] at hb; cases hb

/-! ## The claims of a resolution -/

/-- R160, R164, R167: a covered record off the manifest, and claimed as resolved. -/
theorem resolve_at {new : Record → Record} (hc : c < 2) (hy : R.At c y s) (hi : R.covers i) (hh : y.holds i = true)
    (hnew : ∀ r, R.pending r → R.resolved (normalise (new r)) ∧ (new r).state.isBlocked = true) :
    ∃ z, Shrunk (y.without [i]) z ∧ R.At c z (claim (.handover c) i (fun _ => true) new (dropManifest c i s)) := by
  obtain ⟨r, hr, pending, -⟩ := hy.records i hi
  obtain ⟨hdone, hblocked⟩ := hnew r (pending hh)
  rw [dropManifest_eq hy.context]
  have hr' : (putContext c (y.without [i]) s).record? i = some r := hr
  have e : claim (.handover c) i (fun _ => true) new (putContext c (y.without [i]) s) =
      changeRecord (.handover c) false i (new r) (putContext c (y.without [i]) s) := by
    unfold claim
    rw [hr']
    exact if_pos rfl
  rw [e, changeRecord_eq hr']
  have changed := basicChange_record hr' false (new r)
  have m : Moves { Allow.all with contexts := False } (putContext c (y.without [i]) s)
      (basicChange false i (new r) (putContext c (y.without [i]) s)) := by
    apply basicChange_moves false i (new r) .refl <;> trivial
  have at' : R.At c (y.without [i]) (basicChange false i (new r) (putContext c (y.without [i]) s)) := by
    refine ⟨(context?_congr (m.contexts_eq id) c).trans (putContext_same ..), hy.live, fun j hj => ?_⟩
    by_cases hji : j = i
    · subst hji
      refine ⟨_, changed, fun k => ?_, fun _ => hdone⟩
      rw [without_holds] at k
      simp at k
    · obtain ⟨q, hq, hp, hd⟩ := hy.records j hj
      have held : (y.without [i]).holds j = y.holds j := by
        rw [without_holds]
        simp [hji]
      exact ⟨q, ((basicChange_atRecord false i (new r) _).others j hji).trans hq, fun k => hp (held ▸ k),
        fun k => hd (held ▸ k)⟩
  have told : R.Step c (basicChange false i (new r) (putContext c (y.without [i]) s))
      (if (new r).state ≠ r.state then orderTold (.handover c) i (basicChange false i (new r) (putContext c (y.without [i]) s))
       else basicChange false i (new r) (putContext c (y.without [i]) s)) := by
    split
    · rcases orderTold_blocked changed hblocked (.handover c) with e | ⟨k, e⟩
      · rw [e]; exact .refl
      · rw [e]; exact finishOrder_step hc k _ _
    · exact .refl
  exact told.trans (rackAndClimate_step i r _) _ at'

/-- What the resolution of a list of entries leaves: none of them stands in the manifest. -/
theorem resolveEach_at {new : Record → Record} (hc : c < 2)
    (hnew : ∀ r, R.pending r → R.resolved (normalise (new r)) ∧ (new r).state.isBlocked = true)
    (es : List ManifestEntry) (hes : ∀ e ∈ es, R.covers e.record) : ∀ (y : Context) (s : State), R.At c y s →
    ∃ z, Shrunk y z ∧ (∀ e ∈ es, z.holds e.record = false) ∧ R.At c z (es.foldl (fun s e =>
      match s.context? c with
      | none => s
      | some y =>
        if y.holds e.record then claim (.handover c) e.record (fun _ => true) new (dropManifest c e.record s)
        else s) s) := by
  induction es with
  | nil => exact fun y s hy => ⟨y, .refl y, fun _ h => absurd h List.not_mem_nil, hy⟩
  | cons e es ih =>
    intro y s hy
    have rest := ih fun a ha => hes a (List.mem_cons_of_mem _ ha)
    rw [List.foldl_cons, hy.context]
    dsimp only
    have gone : ∀ {z w : Context}, z.holds e.record = false → Shrunk z w → (∀ a ∈ es, w.holds a.record = false) →
        ∀ a ∈ e :: es, w.holds a.record = false := by
      intro z w hz hw hrest a ha
      rcases List.mem_cons.mp ha with rfl | ha
      · exact eq_false_of_ne_true fun k => by rw [hw.holds k] at hz; cases hz
      · exact hrest a ha
    cases hh : y.holds e.record with
    | false =>
      rw [if_neg Bool.false_ne_true]
      obtain ⟨z, hz, hnone, hat⟩ := rest y s hy
      exact ⟨z, hz, gone hh hz hnone, hat⟩
    | true =>
      rw [if_pos rfl]
      obtain ⟨w, hw, hat⟩ := resolve_at hc hy (hes e List.mem_cons_self) hh hnew
      obtain ⟨z, hz, hnone, hat'⟩ := rest w _ hat
      have off : (y.without [e.record]).holds e.record = false := by
        rw [without_holds]
        simp
      exact ⟨z, ((without_shrunk y [e.record]).trans hw).trans hz, gone off (hw.trans hz) hnone, hat'⟩

/-! ## The recall limits -/

/-- R160: the taken records of a context in RECALL. -/
def recallResolution (x : Context) : Resolution where
  covers i := x.isTaken i = true
  pending r := r.state = .staged ∧ r.location = .courier x.courier
  resolved r := r.state = .blocked .handoverUnresolved ∧ r.location = .courier x.courier ∧ r.custodian = some x.courier
  pending_same h p := ⟨h.state.trans p.1, h.location.trans p.2⟩
  resolved_same h p := ⟨h.state.trans p.1, h.location.trans p.2.1, h.custodian.trans p.2.2⟩
  released := by
    rintro r new ⟨hs, hl⟩ h
    unfold releaseOf at h
    rw [hs, hl] at h
    cases h
    exact ⟨⟨rfl, rfl, by simp [normalise, custodianOf]⟩, hs, rfl⟩
  unreleased := by
    rintro r ⟨hs, hl, -⟩
    unfold releaseOf
    rw [hs, hl]

/-- R164: the manifest records of a context in RECALL_RETURN. -/
def returnResolution (x : Context) : Resolution where
  covers i := x.holds i = true
  pending r := r.state = .inbound ∧ r.location = .hatch
  resolved r := r.state = .blocked .handoverUnresolved ∧ r.location = .hatch
  pending_same h p := ⟨h.state.trans p.1, h.location.trans p.2⟩
  resolved_same h p := ⟨h.state.trans p.1, h.location.trans p.2⟩
  released := by
    rintro r new ⟨hs, hl⟩ h
    unfold releaseOf at h
    rw [hs, hl] at h
    cases h
  unreleased := by
    rintro r ⟨hs, hl⟩
    unfold releaseOf
    rw [hs, hl]

/-- A recall whose limit has expired, before its records are resolved. -/
def Context.stopped (x : Context) : Context := { x with timer := none }

theorem stopPhaseTimer_eq (hx : s.context? c = some x) : stopPhaseTimer c s = putContext c x.stopped s := by
  unfold stopPhaseTimer
  rw [hx]
  rfl

theorem resolveManifest_eq (hx : s.context? c = some x) (pick : ManifestEntry → Bool) (new : Record → Record) :
    resolveManifest c pick (fun _ => new) s = (x.manifest.filter pick).foldl (fun s e =>
      match s.context? c with
      | none => s
      | some y =>
        if y.holds e.record then claim (.handover c) e.record (fun _ => true) new (dropManifest c e.record s)
        else s) s := by
  unfold resolveManifest
  rw [hx] <;> rfl

/-- What the resolution of a recall leaves of its context and of the hatch. -/
structure Resolved (R : Resolution) (c : Nat) (x z : Context) (s t : State) : Prop where
  shrunk : Shrunk x.stopped z
  at' : R.At c z t
  hatch : t.hatch = s.hatch

/-- The limit is stopped, the picked entries are resolved, and the prompt is posted where it shows them. -/
theorem resolved_of_expired {new : Record → Record} {pick : ManifestEntry → Bool} (R : Resolution) (hc : c < 2)
    (hx : s.context? c = some x) (hl : x.finish = none)
    (hcover : ∀ i, R.covers i ↔ ∃ e ∈ x.manifest.filter pick, e.record = i)
    (hpending : ∀ i, R.covers i → ∃ r, s.record? i = some r ∧ R.pending r)
    (hnew : ∀ r, R.pending r → R.resolved (normalise (new r)) ∧ (new r).state.isBlocked = true) {p : Prop} [Decidable p] :
    ∃ z, Resolved R c x z s
        (if p then resolveManifest c pick (fun _ => new) (stopPhaseTimer c s)
         else manifestPrompt c (resolveManifest c pick (fun _ => new) (stopPhaseTimer c s))) ∧
      (∀ e ∈ z.manifest, e ∈ x.manifest ∧ pick e = false) ∧ ∀ i, R.covers i → z.holds i = false := by
  have held : ∀ i, R.covers i → x.stopped.holds i = true := fun i hi => by
    obtain ⟨e, he, rfl⟩ := (hcover i).mp hi
    exact List.any_eq_true.mpr ⟨e, (List.mem_filter.mp he).1, by simp⟩
  have start : R.At c x.stopped (putContext c x.stopped s) := by
    refine ⟨putContext_same .., hl, fun i hi => ?_⟩
    obtain ⟨r, hr, hp⟩ := hpending i hi
    exact ⟨r, hr, fun _ => hp, fun h => by rw [held i hi] at h; cases h⟩
  have m : Moves { Allow.all with hatch := False } s (resolveManifest c pick (fun _ => new) (stopPhaseTimer c s)) := by
    apply resolveManifest_moves c pick _ (stopPhaseTimer_moves c .refl trivial) <;> trivial
  have hatch := m.hatch_eq id
  rw [stopPhaseTimer_eq hx] at hatch ⊢
  have e := resolveManifest_eq (s := putContext c x.stopped s) (putContext_same ..) pick new
  obtain ⟨z, hz, hnone, hat⟩ := resolveEach_at hc hnew (x.stopped.manifest.filter pick)
    (fun e he => (hcover e.record).mpr ⟨e, he, rfl⟩) x.stopped _ start
  rw [← e] at hat
  generalize resolveManifest c pick (fun _ => new) (putContext c x.stopped s) = v at hat hatch ⊢
  refine ⟨z, ⟨hz, ?_, ?_⟩, fun e he => ⟨hz.entries e he, ?_⟩, fun i hi => ?_⟩
  · split
    · exact hat
    · have prompt := manifestPrompt_prompts c v
      exact ⟨(prompt.prompts_context c).trans hat.context, hat.live, fun i hi => by
        obtain ⟨r, hr, h⟩ := hat.records i hi
        exact ⟨r, (record?_congr (prompt.custody_eq id) i).trans hr, h⟩⟩
  · split
    · exact hatch
    · exact ((manifestPrompt_prompts c v).hatch_eq id).trans hatch
  · refine eq_false_of_ne_true fun hp => ?_
    have off := hnone e (List.mem_filter.mpr ⟨hz.entries e he, hp⟩)
    have on : z.holds e.record = true := List.any_eq_true.mpr ⟨e, he, by simp⟩
    rw [on] at off
    cases off
  · obtain ⟨e, he, rfl⟩ := (hcover i).mp hi
    exact hnone e he

theorem inLimit_iff {ph : Phase} (hx : s.context? c = some x) (hl : x.finish = none) :
    inLimit s c ph = true ↔ x.phase = ph ∧ x.timer.isSome = true := by
  unfold inLimit
  rw [liveContext?_eq hx hl]
  simp

theorem LeftDrying.manifest (h : LeftDrying s c o x y) : y.manifest = x.manifest := by
  unfold LeftDrying at h
  split at h
  · split at h
    · rw [h]
    · rw [h]
  · rw [h]

/-- R160: the expiry of the recall limit in RECALL. -/
theorem recallLimitExpired_recall (hc : c < 2) (hx : s.context? c = some x) (hl : x.finish = none)
    (hp : x.phase = .recall) (ht : x.timer.isSome = true) (ho : x.pendingOutcome = some o)
    (hout : ∀ i, x.isTaken i = true → RecordIs s i .staged (.courier x.courier)) :
    ∃ y, (recallLimitExpired c s).context? c = some y ∧
      (∀ i, x.isTaken i = true → ∃ q, (recallLimitExpired c s).record? i = some q ∧
        q.state = .blocked .handoverUnresolved ∧ q.location = .courier x.courier ∧ q.custodian = some x.courier) ∧
      (∀ e ∈ y.manifest, e ∈ x.manifest ∧ e.taken = false) ∧
      (roomDoor s = .closed → LeftDrying s c o { x with manifest := y.manifest } y) ∧
      (roomDoor s = .opened → y = { x with manifest := y.manifest, timer := none }) := by
  have cover : ∀ i, (recallResolution x).covers i ↔ ∃ e ∈ x.manifest.filter (·.taken), e.record = i := fun i => by
    show x.isTaken i = true ↔ _
    rw [← mem_takenRecords, Context.takenRecords, List.mem_map]
  obtain ⟨z, hz, entries, off⟩ := resolved_of_expired (new := fun r => r.unresolvedAtCourier x.courier)
    (p := x.takenEntries = 0) (recallResolution x) hc hx hl cover hout fun r hr =>
      ⟨⟨by simp [Record.unresolvedAtCourier, Record.blockedAt, normalise, hr.1, CState.isBlocked], rfl,
        by simp [Record.unresolvedAtCourier, Record.blockedAt, normalise, custodianOf, hr.1, CState.isBlocked]⟩,
        by simp [Record.unresolvedAtCourier, Record.blockedAt, hr.1, CState.isBlocked]⟩
  have e : recallLimitExpired c s = testRecall c
      (if x.takenEntries = 0 then resolveTaken c x (stopPhaseTimer c s)
       else manifestPrompt c (resolveTaken c x (stopPhaseTimer c s))) := by
    unfold recallLimitExpired
    rw [liveContext?_eq hx hl]
    exact if_pos ((inLimit_iff hx hl).mpr ⟨hp, ht⟩)
  have out : ∀ i, x.isTaken i = true → ∃ q, (if x.takenEntries = 0 then resolveTaken c x (stopPhaseTimer c s)
       else manifestPrompt c (resolveTaken c x (stopPhaseTimer c s))).record? i = some q ∧
        q.state = .blocked .handoverUnresolved ∧ q.location = .courier x.courier ∧ q.custodian = some x.courier := by
    intro i hi
    obtain ⟨r, hr, -, hd⟩ := hz.at'.records i hi
    exact ⟨r, hr, hd (off i hi)⟩
  rw [e]
  change Resolved (recallResolution x) c x z s (if x.takenEntries = 0 then resolveTaken c x (stopPhaseTimer c s)
       else manifestPrompt c (resolveTaken c x (stopPhaseTimer c s))) at hz
  generalize (if x.takenEntries = 0 then resolveTaken c x (stopPhaseTimer c s)
       else manifestPrompt c (resolveTaken c x (stopPhaseTimer c s))) = v at hz out
  have same : z = { x with timer := none, manifest := z.manifest } := hz.shrunk.same
  have hzl := hz.at'.live
  have hzp : z.phase = .recall := by rw [same]; exact hp
  have hzt : z.timer = none := by rw [same]
  have hzo : z.pendingOutcome = some o := by rw [same]; exact ho
  have door : roomDoor v = roomDoor s := by simp only [roomDoor, hz.hatch]
  have none : z.manifest.filter (·.taken) = [] :=
    List.filter_eq_nil_iff.mpr fun e he => by rw [(entries e he).2]; exact Bool.false_ne_true
  have still : resolveTaken c z v = v := by
    unfold resolveTaken
    rw [resolveManifest_eq hz.at'.context, none]
    rfl
  have test : testRecall c v = if roomDoor s = .closed then enterWaitDry false c v else v := by
    unfold testRecall
    rw [liveContext?_eq hz.at'.context hzl]
    dsimp only
    rw [hzt, still, door]
    by_cases hd : roomDoor s = .closed
    · rw [if_pos ⟨hzp, hd⟩, if_pos hd]
      rfl
    · rw [if_neg (fun k => hd k.2), if_neg hd]
  rw [test]
  by_cases hd : roomDoor s = .closed
  · rw [if_pos hd]
    obtain ⟨y, hy, left, custody⟩ := enterWaitDry_left false hz.at'.context hzl hzo
    have manifest : y.manifest = z.manifest := left.manifest
    refine ⟨y, hy, fun i hi => ?_, fun e he => entries e (manifest ▸ he), fun _ => ?_, fun h => ?_⟩
    · obtain ⟨q, hq, h⟩ := out i hi
      exact ⟨q, (record?_congr custody i).trans hq, h⟩
    · have left' := LeftDrying.of_hatch hz.hatch left
      rw [manifest]
      rw [same] at left'
      exact left'
    · rw [hd] at h
      cases h
  · rw [if_neg hd]
    exact ⟨z, hz.at'.context, out, entries, fun h => absurd h hd, fun _ => same⟩

/-- R164: the expiry of the recall limit in RECALL_RETURN. -/
theorem recallLimitExpired_return (hc : c < 2) (hx : s.context? c = some x) (hl : x.finish = none)
    (hp : x.phase = .recallReturn) (ht : x.timer.isSome = true) (ho : x.pendingOutcome = some o)
    (hin : ∀ i, x.holds i = true → RecordIs s i .inbound .hatch) :
    ∃ y, (recallLimitExpired c s).context? c = some y ∧
      (∀ i, x.holds i = true → RecordIs (recallLimitExpired c s) i (.blocked .handoverUnresolved) .hatch) ∧
      (roomDoor s = .closed → s.hatch.contents = [] →
        y = { x with manifest := [], phase := .ended, timer := none, finish := some (.recallReturn, o) }) ∧
      (roomDoor s = .closed → s.hatch.contents ≠ [] → LeftDrying s c o { x with manifest := [] } y) ∧
      (roomDoor s = .opened → y = { x with manifest := [], timer := none }) := by
  have cover : ∀ i, (returnResolution x).covers i ↔ ∃ e ∈ x.manifest.filter (fun _ => true), e.record = i := fun i => by
    have whole : (x.manifest.filter fun _ => true) = x.manifest := List.filter_eq_self.mpr fun _ _ => rfl
    rw [whole]
    show x.holds i = true ↔ _
    unfold Context.holds
    rw [List.any_eq_true]
    simp
  obtain ⟨z, hz, entries, off⟩ := resolved_of_expired (new := Record.unresolvedAtHatch)
    (p := x.manifest = []) (returnResolution x) hc hx hl cover hin fun r hr =>
      ⟨⟨by simp [Record.unresolvedAtHatch, Record.blockedAt, normalise, hr.1, CState.isBlocked], rfl⟩,
        by simp [Record.unresolvedAtHatch, Record.blockedAt, hr.1, CState.isBlocked]⟩
  have notRecall : inLimit s c .recall = false := eq_false_of_ne_true fun h => by
    have := ((inLimit_iff hx hl).mp h).1
    rw [hp] at this
    cases this
  have e : recallLimitExpired c s = testRecallReturn c
      (if x.manifest = [] then resolveManifest c (fun _ => true) (fun _ r => r.unresolvedAtHatch) (stopPhaseTimer c s)
       else manifestPrompt c
        (resolveManifest c (fun _ => true) (fun _ r => r.unresolvedAtHatch) (stopPhaseTimer c s))) := by
    unfold recallLimitExpired
    rw [liveContext?_eq hx hl]
    dsimp only
    rw [if_neg (by rw [notRecall]; exact Bool.false_ne_true), if_pos ((inLimit_iff hx hl).mpr ⟨hp, ht⟩)]
  rw [e]
  change Resolved (returnResolution x) c x z s
    (if x.manifest = [] then resolveManifest c (fun _ => true) (fun _ r => r.unresolvedAtHatch) (stopPhaseTimer c s)
     else manifestPrompt c
      (resolveManifest c (fun _ => true) (fun _ r => r.unresolvedAtHatch) (stopPhaseTimer c s))) at hz
  generalize (if x.manifest = [] then resolveManifest c (fun _ => true) (fun _ r => r.unresolvedAtHatch)
    (stopPhaseTimer c s) else manifestPrompt c
      (resolveManifest c (fun _ => true) (fun _ r => r.unresolvedAtHatch) (stopPhaseTimer c s))) = v at hz
  have out : ∀ i, x.holds i = true → RecordIs v i (.blocked .handoverUnresolved) .hatch := by
    intro i hi
    obtain ⟨r, hr, -, hd⟩ := hz.at'.records i hi
    exact ⟨r, hr, hd (off i hi)⟩
  have empty : z.manifest = [] := List.eq_nil_iff_forall_not_mem.mpr fun e he =>
    absurd (entries e he).2 (fun h => by cases h)
  have same : z = { x with manifest := [], timer := none } := by
    have h := hz.shrunk.same
    rw [empty] at h
    exact h
  have hzl := hz.at'.live
  have hzp : z.phase = .recallReturn := by rw [same]; exact hp
  have hzt : z.timer = none := by rw [same]
  have hzo : z.pendingOutcome = some o := by rw [same]; exact ho
  have door : roomDoor v = roomDoor s := by simp only [roomDoor, hz.hatch]
  have test : testRecallReturn c v = if roomDoor s = .closed then
      (if s.hatch.contents = [] then endContext c o v else enterWaitDry false c v) else v := by
    unfold testRecallReturn
    rw [liveContext?_eq hz.at'.context hzl]
    dsimp only
    rw [hzt, hzo, door, hz.hatch]
    by_cases hd : roomDoor s = .closed
    · rw [if_pos ⟨hzp, hd⟩, if_pos hd]
      cases s.hatch.contents with
      | nil => rfl
      | cons l ls => rfl
    · rw [if_neg (fun k => hd k.2), if_neg hd]
  rw [test]
  have kept : ∀ {w : State}, w.custody = v.custody → ∀ i, x.holds i = true →
      RecordIs w i (.blocked .handoverUnresolved) .hatch := fun hw i hi => by
    obtain ⟨q, hq, h⟩ := out i hi
    exact ⟨q, (record?_congr hw i).trans hq, h⟩
  by_cases hd : roomDoor s = .closed
  · rw [if_pos hd]
    by_cases he : s.hatch.contents = []
    · rw [if_pos he]
      obtain ⟨ended, -, custody⟩ := endContext_spec hz.at'.context hzl o
      rw [hzp] at ended
      refine ⟨_, ended, kept (custody (by rw [hz.hatch]; exact he)), fun _ _ => by rw [same],
        fun _ h => absurd he h, fun h => by rw [hd] at h; cases h⟩
    · rw [if_neg he]
      obtain ⟨y, hy, left, custody⟩ := enterWaitDry_left false hz.at'.context hzl hzo
      refine ⟨y, hy, kept custody, fun _ h => absurd h he, fun _ _ => ?_, fun h => by rw [hd] at h; cases h⟩
      have left' := LeftDrying.of_hatch hz.hatch left
      rw [same] at left'
      exact left'
  · rw [if_neg hd]
    exact ⟨z, hz.at'.context, out, fun h => absurd h hd, fun h => absurd h hd, fun _ => same⟩

end Sys2Proof.Machine

namespace Sys2Proof

open Machine

/-- Settles O58, by the phase. -/
theorem phaseLimitsExpire : Obligations.PhaseLimitsExpire := by
  intro s c x hup hx ht
  dsimp only
  obtain ⟨hcontext, hlive⟩ := liveContext?_iff.mp hx
  have running : ∀ {ph}, x.phase = ph → inLimit (startEvent s) c.val ph = true := fun hp =>
    (inLimit_iff (s := startEvent s) hcontext hlive).mpr ⟨hp, ht⟩
  have stopped : ∀ {ph ph'}, x.phase = ph → ph ≠ ph' → inLimit (startEvent s) c.val ph' = false := fun hp hne =>
    eq_false_of_ne_true fun h => hne (hp.symm.trans ((inLimit_iff (s := startEvent s) hcontext hlive).mp h).1)
  have deciding : ∀ {t}, Moves .deciding (startEvent s) t → KeepsLayout s t ∧ t.fire = s.fire ∧ t.climate = s.climate :=
    fun m => m.deciding
  refine ⟨fun hp => ?_, fun hp => ?_, fun hp => ?_, fun hp => ?_, fun hp => ?_, fun o hp ho hout => ?_,
    fun o hp ho hin => ?_⟩
  · obtain ⟨ended, -, -⟩ := endContext_spec (s := startEvent s) hcontext hlive .timedOut
    rw [hp] at ended
    obtain ⟨hlayout, hfire, hclimate⟩ := deciding (by
      apply endContext_moves c.val .timedOut .refl <;> trivial : Moves .deciding _ (endContext c.val .timedOut (startEvent s)))
    exact ⟨_, _, takes_event (f := waitLimitExpired c.val) hup (if_pos (running hp)), hlayout, hfire, hclimate, ended, rfl⟩
  · obtain ⟨y, hy, left, picked⟩ := abandonLoading_left (s := startEvent s) hcontext hlive .timedOut
    obtain ⟨hlayout, hfire, hclimate⟩ := deciding (by
      apply abandonLoading_moves c.val .timedOut .refl <;> trivial : Moves .deciding _ (abandonLoading c.val .timedOut (startEvent s)))
    exact ⟨_, y, takes_event (f := loadingLimitExpired c.val) hup (if_pos (running hp)), hlayout, hfire, hclimate, hy,
      left, picked⟩
  · obtain ⟨y, hy, left⟩ := enterRecallReturn_left (s := startEvent s) hcontext hlive .timedOut
    obtain ⟨hlayout, hfire, hclimate⟩ := deciding (by
      apply enterRecallReturn_moves c.val .timedOut .refl <;> trivial :
        Moves .deciding _ (enterRecallReturn c.val .timedOut (startEvent s)))
    refine ⟨_, y, takes_event (f := loadingLimitExpired c.val) hup ?_, hlayout, hfire, hclimate, hy, left⟩
    unfold loadingLimitExpired
    rw [if_neg (by rw [stopped hp (by exact nofun)]; exact Bool.false_ne_true), if_pos (running hp)]
  · obtain ⟨y, hy, left⟩ := enterRecall_left (s := startEvent s) hcontext hlive .timedOut
    obtain ⟨hlayout, hfire, hclimate⟩ := deciding (by
      apply enterRecall_moves c.val .timedOut .refl <;> trivial :
        Moves .deciding _ (enterRecall c.val .timedOut (startEvent s)))
    exact ⟨_, y, takes_event (f := collectingLimitExpired c.val) hup (if_pos (running hp)), hlayout, hfire, hclimate, hy,
      left⟩
  · obtain ⟨y, hy, left⟩ := enterRecallOf_left (s := startEvent s) hcontext hlive x.direction .disputed
    obtain ⟨hlayout, hfire, hclimate⟩ := deciding (by
      apply enterRecallOf_moves x.direction c.val .disputed .refl <;> trivial :
        Moves .deciding _ (enterRecallOf x.direction c.val .disputed (startEvent s)))
    refine ⟨_, y, takes_event (f := releaseLimitExpired c.val) hup ?_, hlayout, hfire, hclimate, hy, left⟩
    unfold releaseLimitExpired disputeEffect
    rw [if_pos (running hp), show liveContext? (startEvent s) c.val = some x from hx]
  · obtain ⟨y, hy, left⟩ := recallLimitExpired_recall (s := startEvent s) c.isLt hcontext hlive hp ht ho hout
    obtain ⟨hlayout, hfire, hclimate⟩ := deciding (by
      apply recallLimitExpired_moves c.val .refl <;> trivial : Moves .deciding _ (recallLimitExpired c.val (startEvent s)))
    exact ⟨_, y, takes_event (f := recallLimitExpired c.val) hup rfl, hlayout, hfire, hclimate, hy, left⟩
  · obtain ⟨y, hy, left⟩ := recallLimitExpired_return (s := startEvent s) c.isLt hcontext hlive hp ht ho hin
    obtain ⟨hlayout, hfire, hclimate⟩ := deciding (by
      apply recallLimitExpired_moves c.val .refl <;> trivial : Moves .deciding _ (recallLimitExpired c.val (startEvent s)))
    exact ⟨_, y, takes_event (f := recallLimitExpired c.val) hup rfl, hlayout, hfire, hclimate, hy, left⟩

end Sys2Proof
end

section
/-! HATCH_DRY_OVERRIDE (R143): at a DRY hatch no step of the Hatch Arbiter and of the sequencer starts a purge run,
posts HATCH_AIR or changes an EXPOSED flag. -/

namespace Sys2Proof.Machine

variable {s t u : State} {c d i k : Nat} {x y : Context} {o : HOutcome} {r : Record} {tag : Byte} {st : Status}
  {data : List Byte}

/-! ## What stands at a DRY hatch -/

/-- The drying of the hatch: its air, its purge run, the purge commanded, the retry delay, the wet dwell. -/
def Hatch.drying (h : Hatch) : Air × Option PurgeRun × PurgeCmd × Option Nat × Option Nat :=
  (h.air, h.purge, h.purgeCmd, h.retry, h.wetDwell)

/-- A step at a DRY hatch that leaves its drying, the HATCH_AIR notice and the EXPOSED flags. -/
structure StaysDry (s t : State) : Prop where
  dry : t.hatch.air = .dry
  drying : t.hatch.drying = s.hatch.drying
  posted : t.notices.pending.get? 51 = s.notices.pending.get? 51
  exposed : ∀ i r, s.record? i = some r → ∃ q, t.record? i = some q ∧ q.exposed = r.exposed

theorem StaysDry.refl (h : s.hatch.air = .dry) : StaysDry s s := ⟨h, rfl, rfl, fun _ r hr => ⟨r, hr, rfl⟩⟩

/-- A further step that changes neither the hatch, nor a notice, nor a record. -/
def Allow.aloof : Allow := { Allow.all with hatch := False, notices := False, custody := False }

theorem StaysDry.aloof (h : StaysDry s u) (m : Moves .aloof u t) : StaysDry s t where
  dry := by rw [m.hatch_eq id]; exact h.dry
  drying := by rw [m.hatch_eq id]; exact h.drying
  posted := by rw [m.notices_eq id]; exact h.posted
  exposed i r hr := by
    obtain ⟨q, hq, he⟩ := h.exposed i r hr
    exact ⟨q, (record?_congr (m.custody_eq id) i).trans hq, he⟩

theorem StaysDry.hatch (h : StaysDry s u) (x : Hatch) (hx : x.drying = u.hatch.drying) : StaysDry s (u.withHatch x) where
  dry := (congrArg Prod.fst hx).trans h.dry
  drying := hx.trans h.drying
  posted := h.posted
  exposed := h.exposed

theorem StaysDry.post (h : StaysDry s u) {n : Notice} (hn : n.rank ≠ 51) : StaysDry s (post n u) where
  dry := h.dry
  drying := h.drying
  posted := (post_other (Ne.symm hn) u).trans h.posted
  exposed := h.exposed

theorem StaysDry.foldl {α : Type} {f : State → α → State} (l : List α)
    (hf : ∀ a u, StaysDry s u → StaysDry s (f u a)) (h : StaysDry s u) : StaysDry s (l.foldl f u) := by
  induction l generalizing u with
  | nil => exact h
  | cons a l ih => exact ih (hf a u h)

/-! ## Records and orders -/

/-- The write of a record whose flag stands. -/
theorem StaysDry.written {q : Record} (h : StaysDry s u) (hr : u.record? i = some r) (hq : q.exposed = r.exposed) :
    StaysDry s (writeRecord i (putRecord i q u)) := by
  have w := placeWritten_putRecord i q u
  have hatch : (writeRecord i (putRecord i q u)).hatch = u.hatch := by rw [w.frame]
  refine ⟨by rw [hatch]; exact h.dry, by rw [hatch]; exact h.drying, (w.notice 51 (by decide)).trans h.posted,
    fun j p hp => ?_⟩
  obtain ⟨p', hp', he⟩ := h.exposed j p hp
  by_cases hj : j = i
  · subst hj
    cases hr.symm.trans hp'
    exact ⟨q, (record?_congr (writeRecord_custody ..) j).trans (putRecord_same ..), hq.trans he⟩
  · exact ⟨p', (w.others j hj).trans hp', he⟩

theorem blockedNote_staysDry (quiet : Bool) (i : Nat) (before after : CState) (h : StaysDry s u) :
    StaysDry s (blockedNote quiet i before after u) := by
  have reference : ∀ n, StaysDry s (setNewest n u) := fun n => ⟨h.dry, h.drying, h.posted, h.exposed⟩
  have noted : ∀ n (v : State), StaysDry s (setNewest n u) → StaysDry s (post (blockedNotice v) (setNewest n u)) :=
    fun n v hv => hv.post (show (28 : Nat) ≠ 51 by decide)
  unfold blockedNote
  split
  · dsimp only
    split
    · exact reference _
    · exact noted _ _ (reference _)
  · dsimp only
    split
    · exact noted _ _ (reference _)
    · exact h.post (show (28 : Nat) ≠ 51 by decide)
  · exact h
  · exact h

theorem basicChange_staysDry {new : Record} (quiet : Bool) (h : StaysDry s u) (hr : u.record? i = some r)
    (hn : new.exposed = r.exposed) : StaysDry s (basicChange quiet i new u) := by
  rw [basicChange_eq hr]
  exact blockedNote_staysDry _ _ _ _ (h.written hr hn)

theorem dropOrderSlot_staysDry (i : Nat) (h : StaysDry s u) : StaysDry s (dropOrderSlot i u) := by
  unfold dropOrderSlot
  split
  · exact h
  · next r hr => exact h.written hr rfl

theorem rackTold_staysDry (i : Nat) (old : Record) (h : StaysDry s u) : StaysDry s (rackTold i old u) := by
  have posted : ∀ (p : Fin 12) e o v, StaysDry s v → StaysDry s (postRack p e o v) := fun p e o v hv =>
    hv.post (show 39 + p.val ≠ 51 by omega)
  have placed : ∀ p x, StaysDry s (setPosition p x u) := fun p x => ⟨h.dry, h.drying, h.posted, h.exposed⟩
  unfold rackTold
  split
  · dsimp only
    split
    · split
      · unfold emptyPosition
        dsimp only
        split
        · exact h
        · exact posted _ _ _ _ (placed _ _)
      · split
        · exact posted _ _ _ _ (placed _ _)
        · exact h
    · exact h
  · exact h

theorem handoverTold_staysDry (i : Nat) (old : Record) (h : StaysDry s u) : StaysDry s (handoverTold i old u) :=
  h.aloof (by apply handoverTold_moves i old .refl <;> trivial)

/-- A change that leaves a record in its place, or takes it to a place in no zone, is told on. -/
theorem tellOthers_staysDry {old : Record} (who : Claimant) (h : StaysDry s u) (hr : u.record? i = some r)
    (hl : r.location = old.location ∨ zoneOfLocation u r.location = none) : StaysDry s (tellOthers who i old u) := by
  have told : ∀ v, StaysDry s v → v.record? i = some r → v.settings = u.settings →
      StaysDry s (climateTold i (some old.location) (rackTold i old v)) := fun v hv hvr hvs => by
    have m : Moves .tellings v (rackTold i old v) := rackTold_moves i old .refl trivial trivial
    have still : climateTold i (some old.location) (rackTold i old v) = rackTold i old v := by
      have hw := (record?_congr (m.custody_eq id) i).trans hvr
      rcases hl with hl | hl
      · rw [← hl]
        exact climateTold_same hw
      · exact climateTold_nowhere hw ((zoneOfLocation_congr ((m.settings_eq id).trans hvs) _).trans hl)
    rw [still]
    exact rackTold_staysDry i old hv
  have still : StaysDry s (climateTold i (some old.location) u) := by
    have e : climateTold i (some old.location) u = u := by
      rcases hl with hl | hl
      · rw [← hl]
        exact climateTold_same hr
      · exact climateTold_nowhere hr hl
    rw [e]
    exact h
  have m : Moves .manifest u (handoverTold i old u) := handoverTold_moves i old .refl trivial trivial
  cases who with
  | handover _ => exact told u h hr rfl
  | rack =>
    have hw := (record?_congr (m.custody_eq id) i).trans hr
    have e : climateTold i (some old.location) (handoverTold i old u) = handoverTold i old u := by
      rcases hl with hl | hl
      · rw [← hl]
        exact climateTold_same hw
      · exact climateTold_nowhere hw ((zoneOfLocation_congr (m.settings_eq id) _).trans hl)
    show StaysDry s (climateTold i (some old.location) (handoverTold i old u))
    rw [e]
    exact handoverTold_staysDry i old h
  | _ => exact told _ (handoverTold_staysDry i old h) ((record?_congr (m.custody_eq id) i).trans hr) (m.settings_eq id)

theorem releaseOf_exposed {new : Record} (h : releaseOf r = some new) : new.exposed = r.exposed := by
  unfold releaseOf at h
  split at h
  · split at h
    · cases h; rfl
    · cases h
  all_goals cases h
  all_goals rfl

theorem releaseEntry_staysDry (i : Nat) (h : StaysDry s u) : StaysDry s (releaseEntry i u) := by
  unfold releaseEntry
  split
  · exact h
  · next r hr =>
    split
    · next new hn =>
      exact tellOthers_staysDry .orders (basicChange_staysDry false h hr (releaseOf_exposed hn))
        (basicChange_record hr false new) (.inl (released_of_claim hn).place)
    · exact dropOrderSlot_staysDry i h

theorem postOrder_staysDry (k : Nat) (h : StaysDry s u) : StaysDry s (postOrder k u) := by
  unfold postOrder
  split
  · exact h.post (show 10 + min k 15 ≠ 51 by omega)
  · exact h

theorem putOrder_staysDry (k : Nat) (p : Order) (h : StaysDry s u) : StaysDry s (putOrder k p u) :=
  h.aloof (putOrder_moves k p .refl trivial)

theorem finishOrder_staysDry (k : Nat) (outcome : OOutcome) (h : StaysDry s u) :
    StaysDry s (finishOrder k outcome u) := by
  unfold finishOrder
  split
  · exact h
  · split
    · exact h
    · exact postOrder_staysDry k (.foldl _ (fun i _ => releaseEntry_staysDry i) (putOrder_staysDry k _ h))

theorem evaluateOrder_staysDry (k : Nat) (h : StaysDry s u) : StaysDry s (evaluateOrder k u) := by
  unfold evaluateOrder
  split
  · exact h
  · split
    · exact postOrder_staysDry k (putOrder_staysDry k _ h)
    · exact h

theorem markHanded_staysDry (k i : Nat) (h : StaysDry s u) : StaysDry s (markHanded k i u) := by
  unfold markHanded
  split
  · exact h
  · exact postOrder_staysDry k (dropOrderSlot_staysDry i (putOrder_staysDry k _ h))

theorem orderTold_staysDry (who : Claimant) (i : Nat) (h : StaysDry s u) : StaysDry s (orderTold who i u) := by
  unfold orderTold
  split
  · exact h
  · split
    · exact h
    · split
      · exact h
      · split
        · exact h
        · split
          · exact evaluateOrder_staysDry _ h
          · exact evaluateOrder_staysDry _ h
          · exact evaluateOrder_staysDry _ h
          · exact evaluateOrder_staysDry _ h
          · split
            · split
              · exact postOrder_staysDry _ (putOrder_staysDry _ _ h)
              · exact h
            all_goals exact h
          · exact markHanded_staysDry _ i h
          · exact finishOrder_staysDry _ _ h
          all_goals exact h

/-! ## What the Order Queue leaves of the records -/

/-- A record as it lies, whatever its order does: its label, home, place and flag, and its state where it is BLOCKED. -/
structure Record.Lies (r q : Record) : Prop where
  label : q.label = r.label
  home : q.home = r.home
  location : q.location = r.location
  exposed : q.exposed = r.exposed
  blocked : r.state.isBlocked = true → q.state = r.state

theorem Record.Lies.refl (r : Record) : r.Lies r := ⟨rfl, rfl, rfl, rfl, fun _ => rfl⟩

theorem Record.Lies.trans {p q : Record} (h : r.Lies q) (g : q.Lies p) : r.Lies p where
  label := g.label.trans h.label
  home := g.home.trans h.home
  location := g.location.trans h.location
  exposed := g.exposed.trans h.exposed
  blocked hb := by
    have e := h.blocked hb
    rw [← e] at hb
    exact (g.blocked hb).trans e

/-- A step that leaves every record as it lies. -/
def Lying (s t : State) : Prop := ∀ j r, s.record? j = some r → ∃ q, t.record? j = some q ∧ r.Lies q

theorem Lying.refl : Lying s s := fun _ r hr => ⟨r, hr, .refl r⟩

theorem Lying.trans (h : Lying s t) (g : Lying t u) : Lying s u := fun j r hr => by
  obtain ⟨q, hq, hrq⟩ := h j r hr
  obtain ⟨p, hp, hqp⟩ := g j q hq
  exact ⟨p, hp, hrq.trans hqp⟩

theorem Lying.of_custody (h : t.custody = s.custody) : Lying s t := fun j r hr => ⟨r, (record?_congr h j).trans hr, .refl r⟩

theorem Lying.foldl {α : Type} {f : State → α → State} (l : List α) (hf : ∀ a u, Lying u (f u a)) :
    ∀ s, Lying s (l.foldl f s) := by
  induction l with
  | nil => exact fun _ => .refl
  | cons a l ih => exact fun s => (hf a s).trans (ih (f s a))

theorem lying_written {q : Record} (hr : s.record? i = some r) (hq : r.Lies q) : Lying s (writeRecord i (putRecord i q s)) := by
  intro j p hp
  by_cases hj : j = i
  · subst hj
    cases hr.symm.trans hp
    exact ⟨q, (record?_congr (writeRecord_custody ..) j).trans (putRecord_same ..), hq⟩
  · exact ⟨p, ((placeWritten_putRecord i q s).others j hj).trans hp, .refl p⟩

theorem releaseOf_lies {new : Record} (h : releaseOf r = some new) : r.Lies (normalise new) := by
  unfold releaseOf at h
  split at h
  · next hs hl =>
    split at h
    · cases h; exact ⟨rfl, rfl, rfl, rfl, fun hb => by rw [hs] at hb; cases hb⟩
    · cases h
  all_goals
    next hs hl =>
      cases h
      try exact ⟨rfl, rfl, rfl, rfl, fun hb => by rw [hs] at hb; cases hb⟩

theorem dropOrderSlot_lying (i : Nat) (s : State) : Lying s (dropOrderSlot i s) := by
  unfold dropOrderSlot
  split
  · exact .refl
  · next r hr => exact lying_written hr ⟨rfl, rfl, rfl, rfl, fun _ => rfl⟩

theorem releaseEntry_lying (i : Nat) (s : State) : Lying s (releaseEntry i s) := by
  unfold releaseEntry
  split
  · exact .refl
  · next r hr =>
    split
    · next new hn =>
      have told := tellOthers_still (old := r) .orders (basicChange_record hr false new) (.inl (released_of_claim hn).place)
      refine Lying.trans ?_ (.of_custody (told.moves.custody_eq id))
      intro j q hq
      by_cases hj : j = i
      · subst hj
        cases hr.symm.trans hq
        exact ⟨_, basicChange_record hr false new, releaseOf_lies hn⟩
      · exact ⟨q, ((basicChange_atRecord ..).others j hj).trans hq, .refl q⟩
    · exact dropOrderSlot_lying i s

theorem postOrder_lying (k : Nat) (s : State) : Lying s (postOrder k s) := by
  rw [postOrder_frame]
  exact .of_custody rfl

theorem putOrder_lying (k : Nat) (p : Order) (s : State) : Lying s (putOrder k p s) := .of_custody rfl

theorem finishOrder_lying (k : Nat) (outcome : OOutcome) (s : State) : Lying s (finishOrder k outcome s) := by
  unfold finishOrder
  split
  · exact .refl
  · split
    · exact .refl
    · exact ((putOrder_lying k _ s).trans (.foldl _ releaseEntry_lying _)).trans (postOrder_lying k _)

theorem markHanded_lying (k i : Nat) (s : State) : Lying s (markHanded k i s) := by
  unfold markHanded
  split
  · exact .refl
  · exact ((putOrder_lying k _ s).trans (dropOrderSlot_lying i _)).trans (postOrder_lying k _)

theorem evaluateOrder_lying (k : Nat) (s : State) : Lying s (evaluateOrder k s) := by
  have m : Moves { Allow.all with custody := False } s (evaluateOrder k s) := by
    apply evaluateOrder_moves k .refl <;> trivial
  exact .of_custody (m.custody_eq id)

/-- R72 to R74, R79: told of a change, the Order Queue leaves every record as it lies. -/
theorem orderTold_lying (who : Claimant) (i : Nat) (s : State) : Lying s (orderTold who i s) := by
  unfold orderTold
  split
  · exact .refl
  · split
    · exact .refl
    · next k _ =>
      split
      · exact .refl
      · split
        · exact .refl
        · split
          · exact evaluateOrder_lying k s
          · exact evaluateOrder_lying k s
          · exact evaluateOrder_lying k s
          · exact evaluateOrder_lying k s
          · split
            · split
              · exact (putOrder_lying k _ s).trans (postOrder_lying k _)
              · exact .refl
            all_goals exact .refl
          · exact markHanded_lying k i s
          · exact finishOrder_lying k _ s
          all_goals exact .refl

/-! ## Changes and claims -/

/-- A change that leaves the flag, at its place or to one in no zone. -/
theorem changeRecord_staysDry {new : Record} (who : Claimant) (h : StaysDry s u) (hr : u.record? i = some r)
    (hn : new.exposed = r.exposed) (hl : new.location = r.location ∨ zoneOfLocation u new.location = none) :
    StaysDry s (changeRecord who false i new u) := by
  rw [changeRecord_eq hr]
  have changed := basicChange_record hr false new
  have basic := basicChange_staysDry false h hr hn
  have settings : (basicChange false i new u).settings = u.settings := by
    have m : Moves { Allow.all with settings := False } u (basicChange false i new u) := by
      apply basicChange_moves false i new .refl <;> trivial
    exact m.settings_eq id
  split
  · obtain ⟨q, hq, lies⟩ := orderTold_lying who i _ i _ changed
    have m : Moves { Allow.all with settings := False } (basicChange false i new u)
        (orderTold who i (basicChange false i new u)) := by
      apply orderTold_moves who i .refl <;> trivial
    refine tellOthers_staysDry who (orderTold_staysDry who i basic) hq (hl.imp lies.location.trans fun hz => ?_)
    rw [lies.location, zoneOfLocation_congr ((m.settings_eq id).trans settings)]
    exact hz
  · exact tellOthers_staysDry who basic changed (hl.imp id (zoneOfLocation_congr settings _).trans)

theorem claim_staysDry {expected : Record → Bool} {new : Record → Record} (who : Claimant) (i : Nat)
    (hn : ∀ r, (new r).exposed = r.exposed) (hl : ∀ r v, zoneOfLocation v (new r).location = none) (h : StaysDry s u) :
    StaysDry s (claim who i expected new u) := by
  unfold claim
  split
  · exact h
  · next r hr =>
    split
    · exact changeRecord_staysDry who h hr (hn r) (.inr (hl r u))
    · exact h

/-! ## The Hatch Arbiter and the sequencer -/

theorem updateLocks_staysDry (h : StaysDry s u) : StaysDry s (updateLocks u) := by
  obtain ⟨q, e⟩ := updateLocks_frame u
  rw [e]
  exact StaysDry.hatch (u := u.withLink q) ⟨h.dry, h.drying, h.posted, h.exposed⟩ _ rfl

theorem updateExit_staysDry (h : StaysDry s u) : StaysDry s (updateExit u) := by
  obtain ⟨q, e⟩ := updateExit_frame u
  rw [e]
  exact StaysDry.hatch (u := u.withLink q) ⟨h.dry, h.drying, h.posted, h.exposed⟩ _ rfl

theorem postHandover_staysDry (c : Nat) (h : StaysDry s u) : StaysDry s (postHandover c u) := by
  unfold postHandover
  split
  · exact h.post (show 26 + min c 1 ≠ 51 by omega)
  · exact h

theorem putContext_staysDry (c : Nat) (x : Context) (h : StaysDry s u) : StaysDry s (putContext c x u) :=
  h.aloof (putContext_moves c x .refl trivial)

theorem manifestPrompt_staysDry (c : Nat) (h : StaysDry s u) : StaysDry s (manifestPrompt c u) :=
  h.aloof (manifestPrompt_moves c .refl trivial)

theorem promptClosed_staysDry (c : Nat) (h : StaysDry s u) : StaysDry s (promptClosed c u) :=
  h.aloof (promptClosed_moves c .refl trivial)

theorem promptEnd_staysDry (c : Nat) (o : HOutcome) (h : StaysDry s u) : StaysDry s (promptEnd c o u) :=
  h.aloof (promptEnd_moves c o .refl trivial)

theorem setPhase_staysDry (c : Nat) (ph : Phase) (h : StaysDry s u) : StaysDry s (setPhase c ph u) := by
  unfold setPhase
  split
  · exact h
  · exact postHandover_staysDry c (putContext_staysDry c _ h)

theorem blockedToHatch_staysDry (c : Nat) (l : Label) (h : StaysDry s u) : StaysDry s (blockedToHatch c l u) := by
  unfold blockedToHatch
  split
  · exact claim_staysDry (.handover c) _ (fun _ => rfl) (fun _ _ => rfl) h
  · exact h

theorem grantContext_staysDry (c : Nat) (h : StaysDry s u) : StaysDry s (grantContext c u) := by
  unfold grantContext
  dsimp only
  have owned := h.hatch { u.hatch with owner := .context c, waiting := u.hatch.waiting.filter (· != c) } rfl
  split
  · exact owned
  · next x _ =>
    have rejected : ∀ v, StaysDry s v → ∀ ls : List Label,
        StaysDry s (ls.foldl (fun s l => blockedToHatch c l s) v) := fun v hv ls =>
      .foldl ls (fun l _ => blockedToHatch_staysDry c l) hv
    have entered : ∀ y, StaysDry s (manifestPrompt c (updateLocks (setPhase c x.direction.firstPhase (putContext c y
        (u.withHatch { u.hatch with owner := .context c, waiting := u.hatch.waiting.filter (· != c) }))))) := fun y =>
      manifestPrompt_staysDry c (updateLocks_staysDry (setPhase_staysDry c _ (putContext_staysDry c y owned)))
    split
    · exact rejected _ (entered _) _
    · split
      · exact (rejected _ (entered _) _).aloof (promptRemove_moves c (signalReject_moves .refl trivial) trivial)
      · exact (rejected _ (entered _) _).aloof (signalReject_moves .refl trivial)

/-- R140: at a DRY hatch the evaluation starts no purge run. -/
theorem grantEval_staysDry (h : StaysDry s u) : StaysDry s (grantEval u) := by
  unfold grantEval
  split
  · exact h
  · split
    · next hp =>
      rw [purgePending_dry h.dry] at hp
      exact absurd hp.1 Bool.false_ne_true
    · split
      · split
        · split
          · exact h
          · exact grantContext_staysDry _ h
        · exact h
      · exact h

theorem ordersContextEnded_staysDry (c : Nat) (h : StaysDry s u) : StaysDry s (ordersContextEnded c u) := by
  refine .foldl _ (fun k v hv => ?_) h
  split
  · exact hv
  · split
    · split
      · exact finishOrder_staysDry k _ hv
      · exact postOrder_staysDry k (putOrder_staysDry k _ hv)
    · exact hv

theorem leaveHatch_staysDry (c : Nat) (h : StaysDry s u) : StaysDry s (leaveHatch c u) :=
  grantEval_staysDry (updateLocks_staysDry (h.hatch _ rfl))

theorem endContext_staysDry (c : Nat) (o : HOutcome) (h : StaysDry s u) : StaysDry s (endContext c o u) := by
  unfold endContext
  split
  · exact h
  · exact promptEnd_staysDry c o (postHandover_staysDry c (ordersContextEnded_staysDry c (leaveHatch_staysDry c
      (updateExit_staysDry (putContext_staysDry c _ h)))))

theorem enterPhase_staysDry (c : Nat) (ph : Phase) (h : StaysDry s u) : StaysDry s (enterPhase c ph u) := by
  have entered := updateLocks_staysDry (setPhase_staysDry c ph h)
  unfold enterPhase
  dsimp only
  split
  · exact grantEval_staysDry entered
  · exact entered

theorem testUnloading_staysDry (c : Nat) (h : StaysDry s u) : StaysDry s (testUnloading c u) := by
  unfold testUnloading
  split
  · exact h
  · split
    · exact h
    · split
      · exact endContext_staysDry c _ h
      · exact h

theorem testWaitDry_staysDry (c : Nat) (h : StaysDry s u) : StaysDry s (testWaitDry c u) := by
  unfold testWaitDry
  split
  · exact h
  · split
    · exact testUnloading_staysDry c (enterPhase_staysDry c _ h)
    · exact h

theorem enterWaitDry_staysDry (accepted : Bool) (c : Nat) (h : StaysDry s u) : StaysDry s (enterWaitDry accepted c u) := by
  have evaluated : ∀ v, StaysDry s v → StaysDry s (if v.hatch.owner = .context c then grantEval v else v) := fun v hv => by
    split
    · exact grantEval_staysDry hv
    · exact hv
  refine testWaitDry_staysDry c (evaluated _ (updateLocks_staysDry ?_))
  split
  · exact setPhase_staysDry c _ h
  · exact promptClosed_staysDry c (setPhase_staysDry c _ h)

theorem resolveTaken_staysDry (c : Nat) (x : Context) (h : StaysDry s u) : StaysDry s (resolveTaken c x u) := by
  unfold resolveTaken resolveManifest
  split
  · exact h
  · refine .foldl _ (fun e v hv => ?_) h
    dsimp only
    split
    · exact hv
    · split
      · refine claim_staysDry (.handover c) _ (fun _ => rfl) (fun _ _ => rfl) ?_
        exact hv.aloof (dropManifest_moves c _ .refl trivial)
      · exact hv

theorem testRecall_staysDry (c : Nat) (h : StaysDry s u) : StaysDry s (testRecall c u) := by
  unfold testRecall
  split
  · exact h
  · split
    · split
      · exact enterWaitDry_staysDry false c (resolveTaken_staysDry c _ h)
      · split
        · exact enterWaitDry_staysDry false c h
        · exact h
    · exact h

theorem testRecallReturn_staysDry (c : Nat) (h : StaysDry s u) : StaysDry s (testRecallReturn c u) := by
  unfold testRecallReturn
  split
  · exact h
  · split
    · split
      · exact endContext_staysDry c _ h
      · split
        · exact enterWaitDry_staysDry false c h
        · exact h
    · exact h

theorem testOwner_staysDry (h : StaysDry s u) : StaysDry s (testOwner u) := by
  unfold testOwner
  split
  · next c _ =>
    unfold testPhase
    split
    · exact h
    · split
      · exact testWaitDry_staysDry c h
      · exact testUnloading_staysDry c h
      · exact testRecall_staysDry c h
      · exact testRecallReturn_staysDry c h
      all_goals exact h
  all_goals exact h

theorem returnHatch_staysDry (h : StaysDry s u) : StaysDry s (returnHatch u) :=
  grantEval_staysDry (testOwner_staysDry (updateLocks_staysDry (h.hatch _ rfl)))

/-! ## The sweep -/

theorem TablesOk.mem_recordsWhere (h : TablesOk s) (p : Record → Bool) :
    i ∈ recordsWhere s p ↔ ∃ r, s.record? i = some r ∧ p r = true := by
  constructor
  · intro hm
    obtain ⟨⟨k, r⟩, hq, rfl⟩ := List.mem_map.mp hm
    obtain ⟨hq, hp⟩ := List.mem_filter.mp hq
    exact ⟨r, Table.get?_of_mem h.records hq, hp⟩
  · rintro ⟨r, hr, hp⟩
    exact List.mem_map.mpr ⟨(i, r), List.mem_filter.mpr ⟨Table.mem_of_get? hr, hp⟩, rfl⟩

theorem expose_at (i : Nat) (s : State) (hr : s.record? i = some r) :
    (expose i s).record? i = some { r with exposed := true } := by
  rw [expose_record hr]
  split
  · next he => rw [hr, ← he]
  · exact (record?_congr (writeRecord_custody ..) i).trans (putRecord_same ..)

/-- R55: an exposure sweep marks the records listed, and no other. -/
theorem exposeAll_record (is : List Nat) : ∀ (s : State) (j : Nat) (r : Record), s.record? j = some r →
    (exposeAll is s).record? j = some { r with exposed := r.exposed || decide (j ∈ is) } := by
  induction is with
  | nil =>
    intro s j r hr
    simpa [exposeAll] using hr
  | cons i is ih =>
    intro s j r hr
    have each := ih (expose i s) j
    by_cases hj : j = i
    · subst hj
      exact (each _ (expose_at j s hr)).trans (by simp)
    · have other := (expose_keepsPlace i s).others j hj
      exact (each r (other.trans hr)).trans (by simp [hj])

/-- R55: the sweep of the hatch. -/
theorem hatchExposureSweep_record (h : TablesOk s) (hr : s.record? i = some r) :
    (hatchExposureSweep s).record? i = some { r with exposed := r.exposed || decide (r.location = .hatch) } := by
  have e : decide (i ∈ recordsWhere s fun r => r.location == .hatch) = decide (r.location = .hatch) := by
    refine decide_eq_decide.mpr ((h.mem_recordsWhere _).trans ⟨?_, fun hl => ⟨r, hr, by simpa using hl⟩⟩)
    rintro ⟨q, hq, hl⟩
    cases hr.symm.trans hq
    simpa using hl
  unfold hatchExposureSweep
  rw [exposeAll_record _ s i r hr, e]

theorem exposeAll_hatch (is : List Nat) (s : State) : (exposeAll is s).hatch = s.hatch := by
  have m : Moves { Allow.all with hatch := False } s (exposeAll is s) := by
    apply exposeAll_moves is .refl <;> trivial
  exact m.hatch_eq id

/-! ## The override -/

/-- The hatch dried by the host, before its owner is tested: its purge run stopped, its air DRY, its records swept. -/
def overridden (s : State) : State :=
  updateWetDwell (postHatchAir .override (hatchExposureSweep (setAirField .dry
    (if s.hatch.purge.isSome then stopRun s else s))))

theorem hatchDryOverrideEffect_eq (s : State) : hatchDryOverrideEffect s =
    if s.hatch.purge.isSome then returnHatch (overridden s)
    else grantEval (testOwner (updateLocks (overridden s))) := rfl

theorem updateWetDwell_dry (h : s.hatch.air = .dry) : updateWetDwell s = s.withHatch { s.hatch with wetDwell := none } := by
  unfold updateWetDwell
  refine if_neg ?_
  unfold wetDwellWanted
  rw [h]
  exact Bool.false_ne_true

theorem stopRun_hatch (s : State) :
    (stopRun s).hatch = { s.hatch with purgeCmd := .stop, purge := none } := by
  unfold stopRun commandPurge
  split
  · next h => rw [← h]; rfl
  · obtain ⟨q, -, e⟩ := postCommand_link .hatch .purge [byteOf PurgeCmd.stop.code] (s.withHatch { s.hatch with purgeCmd := .stop })
    rw [e]
    rfl

theorem stopRun_custody (s : State) : (stopRun s).custody = s.custody := by
  have m : Moves { Allow.all with custody := False } s (stopRun s) := by
    apply stopRun_moves .refl <;> trivial
  exact m.custody_eq id

/-- What the override leaves of the hatch and of the records. -/
structure Overridden (s t : State) : Prop where
  air : t.hatch.air = .dry
  purge : t.hatch.purge = none
  command : s.hatch.purge.isSome = true → t.hatch.purgeCmd = .stop
  retry : t.hatch.retry = none
  dwell : t.hatch.wetDwell = none
  records : ∀ i r, TablesOk s → s.record? i = some r → ∃ q, t.record? i = some q ∧
    q.exposed = (r.exposed || decide (r.location = .hatch))
  posted : t.notices.pending.get? 51 = some (.hatchAir .override .dry (s.hatch.report.map (·.rh)))

theorem overridden_overridden (s : State) : Overridden s (overridden s) := by
  unfold overridden
  have stopped : ∀ v, v = (if s.hatch.purge.isSome then stopRun s else s) → v.hatch.purge = none ∧
      (s.hatch.purge.isSome = true → v.hatch.purgeCmd = .stop) ∧ v.hatch.report = s.hatch.report ∧
      v.custody = s.custody ∧ (TablesOk s → TablesOk v) := fun v hv => by
    rw [hv]
    split
    · rw [stopRun_hatch]
      have m : Moves .all s (stopRun s) := by apply stopRun_moves .refl <;> trivial
      exact ⟨rfl, fun _ => rfl, rfl, stopRun_custody s, m.tablesOk⟩
    · next h => exact ⟨by simpa using h, fun k => absurd k h, rfl, rfl, id⟩
  generalize hv : (if s.hatch.purge.isSome then stopRun s else s) = v
  obtain ⟨purge, command, report, custody, tables⟩ := stopped v hv.symm
  have hatch : (postHatchAir .override (hatchExposureSweep (setAirField .dry v))).hatch = (setAirField .dry v).hatch :=
    exposeAll_hatch ..
  rw [updateWetDwell_dry (by rw [hatch]; rfl), hatch]
  refine ⟨rfl, purge, command, rfl, rfl, fun i r hok hr => ?_, ?_⟩
  · have hr' : (setAirField .dry v).record? i = some r := (record?_congr custody i).trans hr
    exact ⟨_, hatchExposureSweep_record (s := setAirField .dry v) (tables hok) hr', rfl⟩
  · rw [← report]
    have e : (hatchExposureSweep (setAirField .dry v)).hatch = (setAirField .dry v).hatch := exposeAll_hatch ..
    show (Table.put _ 51 _).get? 51 = _
    rw [Table.get?_put_same, e]
    rfl

theorem Overridden.staysDry (h : Overridden s t) (g : StaysDry t u) : Overridden s u := by
  have drying := g.drying
  unfold Hatch.drying at drying
  simp only [Prod.mk.injEq] at drying
  obtain ⟨-, purge, command, retry, dwell⟩ := drying
  refine ⟨g.dry, purge.trans h.purge, fun hp => command.trans (h.command hp), retry.trans h.retry, dwell.trans h.dwell,
    fun i r hok hr => ?_, g.posted.trans h.posted⟩
  obtain ⟨q, hq, he⟩ := h.records i r hok hr
  obtain ⟨p, hp, hpe⟩ := g.exposed i q hq
  exact ⟨p, hp, hpe.trans he⟩

/-- R143: what HATCH_DRY_OVERRIDE leaves. -/
theorem hatchDryOverrideEffect_overridden (s : State) : Overridden s (hatchDryOverrideEffect s) := by
  rw [hatchDryOverrideEffect_eq]
  have h := overridden_overridden s
  have dry := StaysDry.refl h.air
  split
  · exact h.staysDry (returnHatch_staysDry dry)
  · exact h.staysDry (grantEval_staysDry (testOwner_staysDry (updateLocks_staysDry dry)))

theorem answers_hatchDryOverride (h : HostReady s) (ht : tag ≠ 0)
    (e : hatchDryOverrideRequest (taken s) = .reply st data t) :
    Answers (.hatchDryOverride tag 0) tag 0x42 st data s t := answers_of_carryOut h ht rfl rfl e

end Sys2Proof.Machine

namespace Sys2Proof

open Machine

/-- Settles O42, by the checks in their order. -/
theorem hatchDryOverrideDries : Obligations.HatchDryOverrideDries := by
  intro s tag hready htag
  have notLocked : lockout s = false → (!lockout (taken s)) = true := fun h => by
    rw [show lockout (taken s) = lockout s from rfl, h]
    rfl
  refine ⟨fun hl => ?_, fun hl hw => ?_, fun hl ho ha => ?_⟩
  · refine answers_hatchDryOverride hready htag (checked_fails (firstFailure_fail ?_))
    rw [show lockout (taken s) = lockout s from rfl, hl]
    rfl
  · refine answers_hatchDryOverride hready htag (checked_fails ((firstFailure_pass (notLocked hl)).trans ?_))
    show firstFailure [(s.hatch.owner != .fire, Status.wrongState), (s.hatch.air == .wet, .wrongState)] = some .wrongState
    rcases hw with hw | hw
    · refine firstFailure_fail ?_
      rw [hw]
      rfl
    · by_cases ho : s.hatch.owner = .fire
      · refine firstFailure_fail ?_
        rw [ho]
        rfl
      · refine (firstFailure_pass (by simpa using ho)).trans (firstFailure_fail ?_)
        rw [hw]
        rfl
  · have answers := answers_hatchDryOverride hready htag (checked_passes ((firstFailure_pass (notLocked hl)).trans
      ((firstFailure_pass (show (s.hatch.owner != .fire) = true from by simpa using ho)).trans
        (firstFailure_pass (show (s.hatch.air == .wet) = true from by rw [ha]; rfl)))))
    have h := hatchDryOverrideEffect_overridden (taken s)
    have keeps : Moves .deciding (taken s) (hatchDryOverrideEffect (taken s)) := by
      apply hatchDryOverrideEffect_moves .refl <;> trivial
    exact ⟨_, answers, h.air, h.purge, h.command, h.retry, h.dwell, h.records, h.posted, keeps.deciding⟩

end Sys2Proof
end

section
/-! What the steps of a confirmation leave of the contexts, the orders and the homes of the records (R78, R167): a
context keeps its course but for its manifest, an ended one stands; a finished order stands, an unfinished one keeps
its entries until it finishes. -/

namespace Sys2Proof.Machine

variable {s t u : State} {c d i k : Nat} {x y z : Context} {o p q : Order} {r : Record}

/-! ## Contexts -/

/-- A context that keeps its course: at most its manifest loses entries, and nothing once it has ended. -/
structure Persists (x y : Context) : Prop where
  shrunk : Shrunk x y
  ended : x.finish ≠ none → y = x

theorem Persists.refl (x : Context) : Persists x x := ⟨.refl x, fun _ => rfl⟩

theorem Persists.trans (h : Persists x y) (g : Persists y z) : Persists x z :=
  ⟨h.shrunk.trans g.shrunk, fun hf => by
    have e := h.ended hf
    rw [← e] at hf
    exact (g.ended hf).trans e⟩

theorem Persists.finish (h : Persists x y) : y.finish = x.finish := by rw [h.shrunk.same]

theorem Persists.phase (h : Persists x y) : y.phase = x.phase := by rw [h.shrunk.same]

theorem Persists.courier (h : Persists x y) : y.courier = x.courier := by rw [h.shrunk.same]

/-- A step in which every context keeps its course. -/
def Persist (s t : State) : Prop := ∀ c x, s.context? c = some x → ∃ y, t.context? c = some y ∧ Persists x y

theorem Persist.refl : Persist s s := fun _ x hx => ⟨x, hx, .refl x⟩

theorem Persist.trans (h : Persist s t) (g : Persist t u) : Persist s u := fun c x hx => by
  obtain ⟨y, hy, hxy⟩ := h c x hx
  obtain ⟨z, hz, hyz⟩ := g c y hy
  exact ⟨z, hz, hxy.trans hyz⟩

/-- The blocks beside the contexts. -/
def Allow.uncontexted : Allow := { Allow.all with contexts := False }

theorem Persist.of_moves (m : Moves .uncontexted s t) : Persist s t := fun c x hx =>
  ⟨x, (context?_congr (m.contexts_eq id) c).trans hx, .refl x⟩

theorem Persist.foldl {α : Type} {f : State → α → State} (l : List α) (hf : ∀ a u, Persist u (f u a)) :
    ∀ s, Persist s (l.foldl f s) := by
  induction l with
  | nil => exact fun _ => .refl
  | cons a l ih => exact fun s => (hf a s).trans (ih (f s a))

theorem toldOne_persist (i : Nat) (s : State) (d : Nat) : Persist s (toldOne i s d) := by
  intro c x hx
  by_cases h : c = d
  · subst h
    by_cases hl : x.finish = none
    · exact ⟨_, toldOne_same hx hl i, without_shrunk x [i], fun hf => absurd hl hf⟩
    · refine ⟨x, ?_, .refl x⟩
      have dead : liveContext? s c = none := by
        cases hv : liveContext? s c with
        | none => rfl
        | some y =>
          obtain ⟨hy, hyl⟩ := liveContext?_iff.mp hv
          cases hx.symm.trans hy
          exact absurd hyl hl
      unfold toldOne
      rw [dead]
      exact hx
  · exact ⟨x, (toldOne_other h i s).trans hx, .refl x⟩

theorem handoverTold_persist (i : Nat) (old : Record) (s : State) : Persist s (handoverTold i old s) := by
  have both : Persist s (toldOne i (toldOne i s 0) 1) := (toldOne_persist i s 0).trans (toldOne_persist i _ 1)
  unfold handoverTold
  split
  · split
    · exact .refl
    · exact both
  · split
    · exact .refl
    · exact both
  · exact .refl

theorem rackTold_persist (i : Nat) (old : Record) (s : State) : Persist s (rackTold i old s) :=
  .of_moves (rackTold_moves i old .refl trivial trivial)

theorem climateTold_persist (i : Nat) (old : Option Location) (s : State) : Persist s (climateTold i old s) :=
  .of_moves (by apply climateTold_moves i old .refl <;> trivial)

theorem tellOthers_persist (who : Claimant) (i : Nat) (old : Record) (s : State) : Persist s (tellOthers who i old s) := by
  have rest : ∀ v, Persist s v → Persist s (climateTold i (some old.location) (rackTold i old v)) := fun v hv =>
    hv.trans ((rackTold_persist i old v).trans (climateTold_persist i _ _))
  cases who with
  | handover _ => exact rest s .refl
  | rack => exact (handoverTold_persist i old s).trans (climateTold_persist i _ _)
  | _ => exact rest _ (handoverTold_persist i old s)

theorem basicChange_persist (quiet : Bool) (i : Nat) (new : Record) (s : State) : Persist s (basicChange quiet i new s) :=
  .of_moves (by apply basicChange_moves quiet i new .refl <;> trivial)

theorem releaseEntry_persist (i : Nat) (s : State) : Persist s (releaseEntry i s) := by
  unfold releaseEntry
  split
  · exact .refl
  · split
    · exact (basicChange_persist false i _ s).trans (tellOthers_persist .orders i _ _)
    · exact .of_moves (by apply dropOrderSlot_moves i .refl <;> trivial)

theorem finishOrder_persist (k : Nat) (outcome : OOutcome) (s : State) : Persist s (finishOrder k outcome s) := by
  have put : ∀ o v, Persist v (putOrder k o v) := fun o v => .of_moves (putOrder_moves k o .refl trivial)
  have posted : ∀ v, Persist v (postOrder k v) := fun v => .of_moves (postOrder_moves k .refl trivial)
  unfold finishOrder
  split
  · exact .refl
  · split
    · exact .refl
    · exact ((put _ s).trans (.foldl _ releaseEntry_persist _)).trans (posted _)

theorem orderTold_persist (who : Claimant) (i : Nat) (s : State) : Persist s (orderTold who i s) := by
  have evaluated : ∀ k, Persist s (evaluateOrder k s) := fun k =>
    .of_moves (by apply evaluateOrder_moves k .refl <;> trivial)
  unfold orderTold
  split
  · exact .refl
  · split
    · exact .refl
    · next k _ =>
      split
      · exact .refl
      · split
        · exact .refl
        · split
          · exact evaluated k
          · exact evaluated k
          · exact evaluated k
          · exact evaluated k
          · split
            · split
              · exact .of_moves (postOrder_moves k (putOrder_moves k _ .refl trivial) trivial)
              · exact .refl
            all_goals exact .refl
          · exact .of_moves (by apply markHanded_moves k i .refl <;> trivial)
          · exact finishOrder_persist k _ s
          all_goals exact .refl

theorem changeRecord_persist (who : Claimant) (quiet : Bool) (i : Nat) (new : Record) (s : State) :
    Persist s (changeRecord who quiet i new s) := by
  cases hr : s.record? i with
  | none =>
    unfold changeRecord
    rw [hr]
    exact .refl
  | some r =>
    rw [changeRecord_eq hr]
    refine (basicChange_persist quiet i new s).trans (Persist.trans ?_ (tellOthers_persist who i r _))
    split
    · exact orderTold_persist who i _
    · exact .refl

theorem claim_persist (who : Claimant) (i : Nat) (expected : Record → Bool) (new : Record → Record) (s : State) :
    Persist s (claim who i expected new s) := by
  unfold claim
  split
  · exact .refl
  · split
    · exact changeRecord_persist _ _ _ _ _
    · exact .refl

/-- Context c, where it is occupied, is live. -/
def Unended (c : Nat) (s : State) : Prop := ∀ x, s.context? c = some x → x.finish = none

theorem Persist.unended (h : Persist s t) (hx : s.context? c = some x) (hl : x.finish = none) : Unended c t := by
  intro y hy
  obtain ⟨z, hz, hxz⟩ := h c x hx
  cases hz.symm.trans hy
  exact hxz.finish.trans hl

theorem dropManifest_persist (hl : Unended c s) (i : Nat) : Persist s (dropManifest c i s) := by
  cases hx : s.context? c with
  | none =>
    unfold dropManifest
    rw [hx]
    exact .refl
  | some x =>
    rw [dropManifest_eq hx]
    intro d y hy
    by_cases h : d = c
    · subst h
      cases hx.symm.trans hy
      exact ⟨_, putContext_same .., without_shrunk x [i], fun hf => absurd (hl x hx) hf⟩
    · exact ⟨y, (putContext_other h _ s).trans hy, .refl y⟩

theorem resolveManifest_persist (hx : s.context? c = some x) (hl : x.finish = none) (pick : ManifestEntry → Bool)
    (new : ManifestEntry → Record → Record) : Persist s (resolveManifest c pick new s) := by
  have each : ∀ (es : List ManifestEntry) (s : State), (∃ x, s.context? c = some x ∧ x.finish = none) →
      Persist s (es.foldl (fun s e =>
        match s.context? c with
        | none => s
        | some y =>
          if y.holds e.record then
            claim (.handover c) e.record (fun _ => true) (new e) (dropManifest c e.record s)
          else s) s) := by
    intro es
    induction es with
    | nil => exact fun _ _ => .refl
    | cons e es ih =>
      rintro s ⟨x, hx, hl⟩
      rw [List.foldl_cons, hx]
      dsimp only
      have step : Persist s (if x.holds e.record then
          claim (.handover c) e.record (fun _ => true) (new e) (dropManifest c e.record s) else s) := by
        split
        · refine (dropManifest_persist (fun y hy => ?_) e.record).trans (claim_persist _ _ _ _ _)
          cases hx.symm.trans hy
          exact hl
        · exact .refl
      obtain ⟨y, hy, hxy⟩ := step c x hx
      exact step.trans (ih _ ⟨y, hy, hxy.finish.trans hl⟩)
  unfold resolveManifest
  rw [hx]
  exact each _ s ⟨x, hx, hl⟩

/-- R167: the resolution of a manifest at a fire. -/
theorem fireResolve_persist (hx : s.context? c = some x) (hl : x.finish = none) : Persist s (fireResolve c x s) := by
  unfold fireResolve
  split
  · exact .refl
  · exact .refl
  all_goals exact resolveManifest_persist hx hl _ _

/-! ## Orders -/

/-- An order on its course: a finished one stands, an unfinished one keeps its entries until it finishes. -/
structure OrderRuns (o y : Order) : Prop where
  finished : o.state.isFinished = true → y = o
  running : o.state.isFinished = false →
    (y.state.isFinished = true ∧ y.deadline = none) ∨ (y.state.isFinished = false ∧ y.entries = o.entries)

theorem OrderRuns.refl (o : Order) : OrderRuns o o := ⟨fun _ => rfl, fun h => .inr ⟨h, rfl⟩⟩

theorem OrderRuns.trans (h : OrderRuns o p) (g : OrderRuns p q) : OrderRuns o q where
  finished hf := by
    have e := h.finished hf
    rw [← e] at hf
    exact (g.finished hf).trans e
  running hf := by
    rcases h.running hf with ⟨hp, hd⟩ | ⟨hp, he⟩
    · rw [g.finished hp]
      exact .inl ⟨hp, hd⟩
    · rcases g.running hp with done | ⟨hq, he'⟩
      · exact .inl done
      · exact .inr ⟨hq, he'.trans he⟩

/-- A step in which every order runs on and every record keeps its home. -/
structure OrdersRun (s t : State) : Prop where
  orders : ∀ k o, s.order? k = some o → ∃ y, t.order? k = some y ∧ OrderRuns o y
  homes : ∀ i r, s.record? i = some r → ∃ q, t.record? i = some q ∧ q.home = r.home

theorem OrdersRun.refl : OrdersRun s s := ⟨fun _ o ho => ⟨o, ho, .refl o⟩, fun _ r hr => ⟨r, hr, rfl⟩⟩

theorem OrdersRun.trans (h : OrdersRun s t) (g : OrdersRun t u) : OrdersRun s u where
  orders k o ho := by
    obtain ⟨p, hp, hop⟩ := h.orders k o ho
    obtain ⟨q, hq, hpq⟩ := g.orders k p hp
    exact ⟨q, hq, hop.trans hpq⟩
  homes i r hr := by
    obtain ⟨q, hq, hrq⟩ := h.homes i r hr
    obtain ⟨p, hp, hqp⟩ := g.homes i q hq
    exact ⟨p, hp, hqp.trans hrq⟩

theorem OrdersRun.foldl {α : Type} {f : State → α → State} (l : List α) (hf : ∀ a u, OrdersRun u (f u a)) :
    ∀ s, OrdersRun s (l.foldl f s) := by
  induction l with
  | nil => exact fun _ => .refl
  | cons a l ih => exact fun s => (hf a s).trans (ih (f s a))

theorem order?_congr (h : t.orders = s.orders) (k : Nat) : t.order? k = s.order? k := by
  simp only [State.order?, h]

theorem OrdersRun.of_eq (ho : t.orders = s.orders) (hu : t.custody = s.custody) : OrdersRun s t :=
  ⟨fun k o h => ⟨o, (order?_congr ho k).trans h, .refl o⟩, fun i r hr => ⟨r, (record?_congr hu i).trans hr, rfl⟩⟩

/-- The blocks beside the orders and the Custody Table. -/
def Allow.unordered : Allow := { Allow.all with orders := False, custody := False }

theorem OrdersRun.of_moves (m : Moves .unordered s t) : OrdersRun s t := .of_eq (m.orders_eq id) (m.custody_eq id)

theorem OrdersRun.of_lying (ho : t.orders = s.orders) (h : Lying s t) : OrdersRun s t :=
  ⟨fun k o hk => ⟨o, (order?_congr ho k).trans hk, .refl o⟩, fun i r hr => by
    obtain ⟨q, hq, lies⟩ := h i r hr
    exact ⟨q, hq, lies.home⟩⟩

theorem basicChange_ordersRun {new : Record} (quiet : Bool) (hr : s.record? i = some r) (hn : new.home = r.home) :
    OrdersRun s (basicChange quiet i new s) := by
  have at' := basicChange_atRecord quiet i new s
  refine ⟨fun k o ho => ⟨o, (order?_congr at'.orders k).trans ho, .refl o⟩, fun j q hq => ?_⟩
  by_cases hj : j = i
  · subst hj
    cases hr.symm.trans hq
    exact ⟨_, basicChange_record hr quiet new, hn⟩
  · exact ⟨q, (at'.others j hj).trans hq, rfl⟩

theorem expose_ordersRun (i : Nat) (s : State) : OrdersRun s (expose i s) := by
  cases h : s.record? i with
  | none =>
    unfold expose
    rw [h]
    exact .refl
  | some r =>
    rw [expose_record h]
    split
    · exact .refl
    · refine ⟨fun k o ho => ⟨o, (order?_congr (placeWritten_putRecord ..).atRecord.orders k).trans ho, .refl o⟩, fun j q hq => ?_⟩
      by_cases hj : j = i
      · subst hj
        cases h.symm.trans hq
        exact ⟨_, (record?_congr (writeRecord_custody ..) j).trans (putRecord_same ..), rfl⟩
      · exact ⟨q, ((placeWritten_putRecord ..).others j hj).trans hq, rfl⟩

theorem climateTold_ordersRun (i : Nat) (old : Option Location) (s : State) : OrdersRun s (climateTold i old s) := by
  unfold climateTold
  split
  · exact .refl
  · split
    · exact .refl
    · split
      · split
        · exact expose_ordersRun i s
        · exact .refl
      · exact .refl

theorem tellOthers_ordersRun (who : Claimant) (i : Nat) (old : Record) (s : State) :
    OrdersRun s (tellOthers who i old s) := by
  obtain ⟨t, e, told⟩ := tellOthers_told who i old s
  rw [e]
  exact (OrdersRun.of_eq (told.moves.orders_eq id) (told.moves.custody_eq id)).trans (climateTold_ordersRun i _ t)

theorem releaseEntry_ordersRun (i : Nat) (s : State) : OrdersRun s (releaseEntry i s) :=
  .of_lying (releaseEntry_spec i s).1.orders (releaseEntry_lying i s)

theorem postOrder_ordersRun (k : Nat) (s : State) : OrdersRun s (postOrder k s) := by
  rw [postOrder_frame]
  exact .of_eq rfl rfl

/-- An order put that runs on from the one that stood there. -/
theorem putOrder_ordersRun (ho : s.order? k = some o) (hp : OrderRuns o p) : OrdersRun s (putOrder k p s) := by
  refine ⟨fun j q hq => ?_, fun _ r hr => ⟨r, hr, rfl⟩⟩
  by_cases hj : j = k
  · subst hj
    cases ho.symm.trans hq
    exact ⟨p, Table.get?_put_same .., hp⟩
  · exact ⟨q, (Table.get?_put_other _ _ hj).trans hq, .refl q⟩

theorem putOrder_posted (ho : s.order? k = some o) (hp : OrderRuns o p) : OrdersRun s (postOrder k (putOrder k p s)) :=
  (putOrder_ordersRun ho hp).trans (postOrder_ordersRun k _)

theorem finishOrder_ordersRun (k : Nat) (outcome : OOutcome) (s : State) : OrdersRun s (finishOrder k outcome s) := by
  unfold finishOrder
  split
  · exact .refl
  · next o ho =>
    split
    · exact .refl
    · next hf =>
      have done : OrderRuns o { o with state := .finished outcome, deadline := none } :=
        ⟨fun h => absurd h hf, fun _ => .inl ⟨rfl, rfl⟩⟩
      exact ((putOrder_ordersRun ho done).trans (.foldl _ releaseEntry_ordersRun _)).trans (postOrder_ordersRun k _)

theorem workedOut_unfinished (s : State) (o : Order) : (workedOut s o).isFinished = false := by
  unfold workedOut
  split <;> rfl

theorem evaluateOrder_ordersRun (k : Nat) (s : State) : OrdersRun s (evaluateOrder k s) := by
  unfold evaluateOrder
  split
  · exact .refl
  · next o ho =>
    split
    · next hw =>
      have waiting := unfinished_of_waiting (Bool.and_eq_true_iff.mp hw).1
      refine putOrder_posted ho ⟨fun h => ?_, fun _ => .inr ⟨workedOut_unfinished s o, rfl⟩⟩
      rw [waiting] at h
      cases h
    · exact .refl

/-- R72, R73, R79: of a change to another state than OUT an order runs on. -/
theorem orderTold_ordersRun (who : Claimant) (hr : s.record? i = some r) (hs : r.state ≠ .out) :
    OrdersRun s (orderTold who i s) := by
  unfold orderTold
  rw [hr]
  dsimp only
  split
  · exact .refl
  · next k _ =>
    split
    · exact .refl
    · next o ho =>
      split
      · exact .refl
      · next hf =>
        split
        · exact evaluateOrder_ordersRun k s
        · exact evaluateOrder_ordersRun k s
        · exact evaluateOrder_ordersRun k s
        · exact evaluateOrder_ordersRun k s
        · split
          · split
            · exact putOrder_posted ho ⟨fun h => absurd h hf, fun _ => .inr ⟨rfl, rfl⟩⟩
            · exact .refl
          all_goals exact .refl
        · next h => exact absurd h hs
        · exact finishOrder_ordersRun k _ s
        all_goals exact .refl

theorem changeRecord_ordersRun {new : Record} (who : Claimant) (quiet : Bool) (hr : s.record? i = some r)
    (hs : new.state ≠ .out) (hn : new.home = r.home) : OrdersRun s (changeRecord who quiet i new s) := by
  rw [changeRecord_eq hr]
  refine (basicChange_ordersRun quiet hr hn).trans (OrdersRun.trans ?_ (tellOthers_ordersRun who i r _))
  split
  · exact orderTold_ordersRun who (basicChange_record hr quiet new) hs
  · exact .refl

theorem claim_ordersRun {expected : Record → Bool} {new : Record → Record} (who : Claimant) (i : Nat)
    (hs : ∀ r, expected r = true → (new r).state ≠ .out) (hn : ∀ r, (new r).home = r.home) (s : State) :
    OrdersRun s (claim who i expected new s) := by
  unfold claim
  split
  · exact .refl
  · next r hr =>
    split
    · next he => exact changeRecord_ordersRun who false hr (hs r he) (hn r)
    · exact .refl

theorem resolveManifest_ordersRun {new : ManifestEntry → Record → Record} (hs : ∀ e r, (new e r).state ≠ .out)
    (hn : ∀ e r, (new e r).home = r.home) (c : Nat) (pick : ManifestEntry → Bool) (s : State) :
    OrdersRun s (resolveManifest c pick new s) := by
  unfold resolveManifest
  split
  · exact .refl
  · refine .foldl _ (fun e v => ?_) s
    split
    · exact .refl
    · split
      · refine OrdersRun.trans (.of_moves (dropManifest_moves c e.record .refl trivial)) ?_
        exact claim_ordersRun _ _ (fun r _ => hs e r) (hn e) _
      · exact .refl

theorem blockedAt_ne_out (r : Record) (reason : Reason) (loc : Location) : (r.blockedAt reason loc).state ≠ .out := by
  unfold Record.blockedAt
  dsimp only
  split
  · next h =>
    intro e
    rw [e] at h
    cases h
  · exact nofun

theorem fireResolve_ordersRun (c : Nat) (x : Context) (s : State) : OrdersRun s (fireResolve c x s) := by
  have hatch : ∀ r : Record, r.unresolvedAtHatch.state ≠ .out := fun r => blockedAt_ne_out r _ _
  have courier : ∀ (r : Record) id, (r.unresolvedAtCourier id).state ≠ .out := fun r id =>
    blockedAt_ne_out r .handoverUnresolved (.courier id)
  have picked : ∀ r : Record, r.pickedAtHatch.state ≠ .out := fun r => nofun
  have either : ∀ (e : ManifestEntry) (r : Record),
      (if e.taken then r.unresolvedAtCourier x.courier else r.unresolvedAtHatch).state ≠ .out ∧
        (if e.taken then r.unresolvedAtCourier x.courier else r.unresolvedAtHatch).home = r.home := fun e r => by
    split
    · exact ⟨courier r _, rfl⟩
    · exact ⟨hatch r, rfl⟩
  unfold fireResolve
  split
  · exact .refl
  · exact .refl
  · exact resolveManifest_ordersRun (fun _ r => picked r) (fun _ _ => rfl) ..
  · exact resolveManifest_ordersRun (fun e r => (either e r).1) (fun e r => (either e r).2) ..
  · exact resolveManifest_ordersRun (fun e r => (either e r).1) (fun e r => (either e r).2) ..
  · exact resolveManifest_ordersRun (fun e r => (either e r).1) (fun e r => (either e r).2) ..
  · exact resolveManifest_ordersRun (fun _ r => hatch r) (fun _ _ => rfl) ..
  · exact resolveManifest_ordersRun (fun _ r => hatch r) (fun _ _ => rfl) ..
  · exact resolveManifest_ordersRun (fun _ r => hatch r) (fun _ _ => rfl) ..
  · exact resolveManifest_ordersRun (fun _ r => picked r) (fun _ _ => rfl) ..
  · exact resolveManifest_ordersRun (fun _ r => picked r) (fun _ _ => rfl) ..

end Sys2Proof.Machine
end

section
/-! The end of the live contexts at a confirmation (R127, R167): what a grant gives its context, and what the end of one
context leaves of the other. -/

namespace Sys2Proof.Machine

variable {s t u : State} {c d i k : Nat} {x y z : Context} {o : HOutcome} {p : Order}

/-! ## Grants -/

/-- A context as it is granted the hatch: in its first phase, with labels of the hatch rejected. -/
def Context.granted (x : Context) (s : State) (ls : List Label) : Context :=
  { x with phase := x.direction.firstPhase, timer := phaseLimit s x.direction.firstPhase, rejected := x.rejected ++ ls }

/-- What a grant leaves of its context and of the hatch's ownership. -/
structure Granted (d : Nat) (x : Context) (s t : State) : Prop where
  context : ∃ ls, t.context? d = some (x.granted s ls)
  owner : t.hatch.owner = .context d
  waiting : t.hatch.waiting = s.hatch.waiting.filter (· != d)

theorem phaseLimit_congr (h : t.settings = s.settings) (ph : Phase) : phaseLimit t ph = phaseLimit s ph := by
  unfold phaseLimit
  simp only [param_congr h]

theorem granted_own (d : Nat) (x : Context) (added : List Label) (s : State) :
    (granted d x added s).context? d = some (x.granted s added) ∧
      (granted d x added s).hatch.owner = s.hatch.owner ∧ (granted d x added s).hatch.waiting = s.hatch.waiting := by
  have prompt := manifestPrompt_prompts d (updateLocks (setPhase d x.direction.firstPhase
    (putContext d { x with rejected := x.rejected ++ added } s)))
  have phase := setPhase_context (putContext_same d { x with rejected := x.rejected ++ added } s) x.direction.firstPhase
  refine ⟨?_, ?_, ?_⟩
  · unfold granted
    rw [prompt.prompts_context, updateLocks_context]
    exact phase
  · unfold granted
    rw [prompt.hatch_eq id, updateLocks_owner, setPhase_hatch]
    rfl
  · unfold granted
    rw [prompt.hatch_eq id, updateLocks_waiting, setPhase_hatch]
    rfl

/-- R153: the context that is granted the hatch. -/
theorem grantContext_granted (hx : s.context? d = some x) : Granted d x s (grantContext d s) := by
  unfold grantContext
  dsimp only
  rw [show (s.withHatch { s.hatch with owner := .context d, waiting := s.hatch.waiting.filter (· != d) }).context? d =
    some x from hx]
  dsimp only
  generalize List.take _ _ = added
  obtain ⟨context, owner, waiting⟩ := granted_own d x added
    (s.withHatch { s.hatch with owner := .context d, waiting := s.hatch.waiting.filter (· != d) })
  change Granted d x s
    (if added.isEmpty then added.foldl (fun s l => blockedToHatch d l s) (granted d x added _)
     else if x.direction = .returning then
       promptRemove d (signalReject (added.foldl (fun s l => blockedToHatch d l s) (granted d x added _)))
     else signalReject (added.foldl (fun s l => blockedToHatch d l s) (granted d x added _)))
  generalize granted d x added _ = v at context owner waiting ⊢
  obtain ⟨m, -⟩ := blockedAll_spares d added v
  have base : Granted d x s (added.foldl (fun s l => blockedToHatch d l s) v) :=
    ⟨⟨added, (context?_congr (m.contexts_eq id) d).trans context⟩, by rw [m.hatch_eq id]; exact owner,
      by rw [m.hatch_eq id]; exact waiting⟩
  have told : ∀ w : State, Moves .prompts (added.foldl (fun s l => blockedToHatch d l s) v) w → Granted d x s w :=
    fun w mw => by
      obtain ⟨⟨ls, hls⟩, howner, hwaiting⟩ := base
      exact ⟨⟨ls, (mw.prompts_context d).trans hls⟩, by rw [mw.hatch_eq id]; exact howner,
        by rw [mw.hatch_eq id]; exact hwaiting⟩
  split
  · exact base
  · split
    · exact told _ (promptRemove_moves d (signalReject_moves .refl trivial) trivial)
    · exact told _ (signalReject_moves .refl trivial)

theorem commandPurge_waiting (p : PurgeCmd) (s : State) : (commandPurge p s).hatch.waiting = s.hatch.waiting := by
  unfold commandPurge
  split
  · rfl
  · obtain ⟨q, -, e⟩ := postCommand_link .hatch .purge [byteOf p.code] (s.withHatch { s.hatch with purgeCmd := p })
    rw [e]
    rfl

theorem startPurge_waiting (s : State) : (startPurge s).hatch.waiting = s.hatch.waiting := by
  unfold startPurge
  dsimp only
  rw [postHatchAir_hatch, updateLocks_waiting, commandPurge_waiting]
  rfl

theorem grantContext_absent (hx : s.context? d = none) :
    grantContext d s = s.withHatch { s.hatch with owner := .context d, waiting := s.hatch.waiting.filter (· != d) } := by
  unfold grantContext
  dsimp only
  rw [show (s.withHatch { s.hatch with owner := .context d, waiting := s.hatch.waiting.filter (· != d) }).context? d =
    none from hx]

/-- R140: a grant evaluation adds no context to those that wait. -/
theorem grantEval_waiting (h : c ∈ (grantEval s).hatch.waiting) : c ∈ s.hatch.waiting := by
  unfold grantEval at h
  split at h
  · exact h
  · split at h
    · rw [startPurge_waiting] at h
      exact h
    · split at h
      · split at h
        · next x hx =>
          split at h
          · exact h
          · rw [(grantContext_granted hx).waiting] at h
            exact (List.mem_filter.mp h).1
        · exact h
      · exact h

/-- Of context c, x, what a step leaves that may grant it the hatch: it stands where the hatch zone is in fire, or
where it does not wait. -/
structure Courses (c : Nat) (x : Context) (s t : State) : Prop where
  context : ∃ y, t.context? c = some y ∧ y.courier = x.courier ∧ y.finish = x.finish ∧
    (c ∉ s.hatch.waiting ∨ (s.zoneFire s.hatchZone).state.inFire = true → y = x)

/-- R140, R138: of a context the grant evaluation can make the owner, and in fire it does nothing. -/
theorem grantEval_courses (hx : s.context? c = some x) : Courses c x s (grantEval s) := by
  by_cases hw : c ∈ s.hatch.waiting
  · by_cases hf : (s.zoneFire s.hatchZone).state.inFire = true
    · have e : grantEval s = s := if_pos (.inr hf)
      rw [e]
      exact ⟨x, hx, rfl, rfl, fun _ => rfl⟩
    · have free : ¬(c ∉ s.hatch.waiting ∨ (s.zoneFire s.hatchZone).state.inFire = true) := fun h =>
        h.elim (fun k => k hw) hf
      have still : Courses c x s s := ⟨x, hx, rfl, rfl, fun _ => rfl⟩
      unfold grantEval
      split
      · exact still
      · split
        · exact ⟨x, (startPurge_context s c).trans hx, rfl, rfl, fun _ => rfl⟩
        · split
          · next d ds ho hwaiting =>
            split
            · next w hw =>
              split
              · exact still
              · by_cases hd : c = d
                · subst hd
                  cases hx.symm.trans hw
                  obtain ⟨ls, hls⟩ := (grantContext_granted hx).context
                  exact ⟨_, hls, rfl, rfl, fun h => absurd h free⟩
                · exact ⟨x, (grantContext_leaves hd s).context.trans hx, rfl, rfl, fun _ => rfl⟩
            · exact still
          · exact still
  · exact ⟨x, (grantEval_leaves (c := c) fun _ => hw).context.trans hx, rfl, rfl, fun _ => rfl⟩

/-! ## The end of a context -/

/-- The state in which an ending context has left the hatch, before the grant evaluation. -/
def released (c : Nat) (x : Context) (o : HOutcome) (s : State) : State :=
  let v := updateExit (putContext c { x with phase := .ended, timer := none, finish := some (x.phase, o) } s)
  updateLocks (v.withHatch { v.hatch with
    owner := if v.hatch.owner = .context c then .nobody else v.hatch.owner,
    yielded := if v.hatch.yielded = some c then none else v.hatch.yielded,
    waiting := v.hatch.waiting.filter (· != c) })

/-- What the released hatch keeps. -/
structure Released' (c : Nat) (s t : State) : Prop where
  owner : t.hatch.owner = if s.hatch.owner = .context c then .nobody else s.hatch.owner
  waiting : t.hatch.waiting = s.hatch.waiting.filter (· != c)
  fire : t.fire = s.fire
  settings : t.settings = s.settings
  others : ∀ d, d ≠ c → t.context? d = s.context? d

theorem released_spec (c : Nat) (x : Context) (o : HOutcome) (s : State) : Released' c s (released c x o s) := by
  unfold released
  dsimp only
  obtain ⟨q, e⟩ := updateExit_frame
    (putContext c { x with phase := .ended, timer := none, finish := some (x.phase, o) } s)
  rw [e]
  obtain ⟨q', e'⟩ := updateLocks_frame (State.withHatch (State.withHatch (State.withLink (putContext c
    { x with phase := .ended, timer := none, finish := some (x.phase, o) } s) q) _) _)
  rw [e']
  exact ⟨rfl, rfl, rfl, rfl, fun d hd => putContext_other hd _ s⟩

theorem endContext_released (h : liveContext? s c = some x) (o : HOutcome) :
    endContext c o s = promptEnd c o (postHandover c (ordersContextEnded c (grantEval (released c x o s)))) :=
  endContext_eq h o

/-- What follows the grant evaluation at the end of a context. -/
theorem endContext_engaged (c : Nat) (o : HOutcome) (s : State) :
    Moves .engaged s (promptEnd c o (postHandover c (ordersContextEnded c s))) := by
  apply promptEnd_moves c o _ trivial
  exact postHandover_moves c (ordersContextEnded_engaged c s) trivial

theorem hatchZone_congr (h : t.settings = s.settings) : t.hatchZone = s.hatchZone := by
  simp only [State.hatchZone, State.param, h]

/-- R168: what the end of context c leaves of another one. -/
theorem endContext_courses (hd : d ≠ c) (hx : s.context? d = some x) (o : HOutcome) :
    Courses d x s (endContext c o s) := by
  cases hl : liveContext? s c with
  | none =>
    have e : endContext c o s = s := by
      unfold endContext
      rw [hl]
    rw [e]
    exact ⟨x, hx, rfl, rfl, fun _ => rfl⟩
  | some w =>
    rw [endContext_released hl]
    have left := released_spec c w o s
    obtain ⟨y, hy, courier, finish, same⟩ := (grantEval_courses ((left.others d hd).trans hx)).context
    have ended := endContext_engaged c o (grantEval (released c w o s))
    refine ⟨y, (context?_congr (ended.contexts_eq id) d).trans hy, courier, finish, fun h => same (h.imp ?_ ?_)⟩
    · intro hw hm
      rw [left.waiting] at hm
      exact hw (List.mem_filter.mp hm).1
    · rw [zoneFire_congr left.fire, hatchZone_congr left.settings]
      exact id

/-- R138: an ended context waits no more, and its end adds none to those that wait. -/
theorem endContext_waiting (h : liveContext? s c = some x) (o : HOutcome)
    (hd : d ∈ (endContext c o s).hatch.waiting) : d ∈ s.hatch.waiting ∧ d ≠ c := by
  rw [endContext_released h, (endContext_engaged c o _).hatch_eq id] at hd
  have hd := grantEval_waiting hd
  rw [(released_spec c x o s).waiting] at hd
  obtain ⟨hm, hne⟩ := List.mem_filter.mp hd
  exact ⟨hm, by simpa using hne⟩

/-- R138: in fire the end of a context gives the hatch to none. -/
theorem endContext_owner (hf : (s.zoneFire s.hatchZone).state.inFire = true) (c : Nat) (o : HOutcome)
    (h : (endContext c o s).hatch.owner = .fire) : s.hatch.owner = .fire := by
  cases hl : liveContext? s c with
  | none =>
    have e : endContext c o s = s := by
      unfold endContext
      rw [hl]
    rw [e] at h
    exact h
  | some x =>
    have left := released_spec c x o s
    have e : grantEval (released c x o s) = released c x o s := by
      refine if_pos (.inr ?_)
      rw [zoneFire_congr left.fire, hatchZone_congr left.settings]
      exact hf
    rw [endContext_released hl, (endContext_engaged c o _).hatch_eq id, e, left.owner] at h
    split at h
    · cases h
    · exact h

theorem blockedToHatch_ordersRun (c : Nat) (l : Label) (s : State) : OrdersRun s (blockedToHatch c l s) := by
  unfold blockedToHatch
  split
  · refine claim_ordersRun (new := fun r => { r with location := .hatch }) _ _ (fun r h e => ?_) (fun _ => rfl) s
    have blocked := (Bool.and_eq_true_iff.mp h).1
    rw [show r.state = .out from e] at blocked
    cases blocked
  · exact .refl

theorem grantContext_ordersRun (d : Nat) (s : State) : OrdersRun s (grantContext d s) := by
  unfold grantContext
  dsimp only
  split
  · exact .of_eq rfl rfl
  · next x _ =>
    have entered : ∀ w ph, OrdersRun s (manifestPrompt d (updateLocks (setPhase d ph (putContext d w
        (s.withHatch { s.hatch with owner := .context d, waiting := s.hatch.waiting.filter (· != d) }))))) := fun w ph =>
      OrdersRun.trans (t := s.withHatch { s.hatch with owner := .context d, waiting := s.hatch.waiting.filter (· != d) })
        (.of_eq rfl rfl) (.of_moves (manifestPrompt_moves d (updateLocks_moves (setPhase_moves d ph
          (putContext_moves d w .refl trivial) trivial trivial) trivial trivial) trivial))
    have rejected : ∀ (ls : List Label) v, OrdersRun s v → OrdersRun s (ls.foldl (fun s l => blockedToHatch d l s) v) :=
      fun ls v hv => hv.trans (.foldl ls (fun l u => blockedToHatch_ordersRun d l u) v)
    split
    · exact rejected _ _ (entered _ _)
    · split
      · exact (rejected _ _ (entered _ _)).trans (.of_moves (promptRemove_moves d (signalReject_moves .refl trivial) trivial))
      · exact (rejected _ _ (entered _ _)).trans (.of_moves (signalReject_moves .refl trivial))

theorem grantEval_ordersRun (s : State) : OrdersRun s (grantEval s) := by
  unfold grantEval
  split
  · exact .refl
  · split
    · exact .of_moves (by apply startPurge_moves .refl <;> trivial)
    · split
      · split
        · split
          · exact .refl
          · exact grantContext_ordersRun ..
        · exact .refl
      · exact .refl

/-- R73: the orders of an ended context are done, or wait again. -/
theorem ordersContextEnded_ordersRun (c : Nat) (s : State) : OrdersRun s (ordersContextEnded c s) := by
  refine .foldl _ (fun k u => ?_) s
  split
  · exact .refl
  · next p hp =>
    split
    · next hs =>
      split
      · exact finishOrder_ordersRun k .done u
      · refine putOrder_posted hp ⟨fun h => ?_, fun _ => .inr ⟨workedOut_unfinished u p, rfl⟩⟩
        rw [hs] at h
        cases h
    · exact .refl

theorem endContext_ordersRun (c : Nat) (o : HOutcome) (s : State) : OrdersRun s (endContext c o s) := by
  cases hl : liveContext? s c with
  | none =>
    unfold endContext
    rw [hl]
    exact .refl
  | some x =>
    rw [endContext_eq hl]
    have exit : OrdersRun s (updateExit (putContext c { x with phase := .ended, timer := none, finish := some (x.phase, o) } s)) := by
      obtain ⟨q, e⟩ := updateExit_frame
        (putContext c { x with phase := .ended, timer := none, finish := some (x.phase, o) } s)
      rw [e]
      exact .of_eq rfl rfl
    have locks : ∀ v, OrdersRun v (updateLocks v) := fun v => .of_moves (updateLocks_moves .refl trivial trivial)
    have hatch : ∀ v h, OrdersRun v (v.withHatch h) := fun v h => .of_eq rfl rfl
    have leave : ∀ v, OrdersRun v (leaveHatch c v) := fun v =>
      (hatch v _).trans ((locks _).trans (grantEval_ordersRun _))
    have told : ∀ v, OrdersRun v (promptEnd c o (postHandover c v)) := fun v =>
      .of_moves (promptEnd_moves c o (postHandover_moves c .refl trivial) trivial)
    exact exit.trans ((leave _).trans ((ordersContextEnded_ordersRun c _).trans (told _)))

/-! ## Every live context -/

/-- R167: context c, which was live as x, has ended FIRE_ABORT. -/
def Aborted (x y : Context) (step : Phase) : Prop :=
  y.courier = x.courier ∧ y.phase = .ended ∧ y.timer = none ∧ y.finish = some (step, .fireAbort)

theorem fireResolve_uncalled (c : Nat) (x : Context) (s : State) :
    (fireResolve c x s).hatch = s.hatch ∧ (fireResolve c x s).fire = s.fire ∧
      (fireResolve c x s).settings = s.settings := by
  have m : Moves { Allow.all with hatch := False, fire := False, settings := False } s (fireResolve c x s) := by
    apply fireResolve_moves c x .refl <;> trivial
  exact ⟨m.hatch_eq id, m.fire_eq id, m.settings_eq id⟩

theorem fireAbortOne_none (h : liveContext? s c = none) : fireAbortOne c s = s := by
  unfold fireAbortOne
  rw [h]

theorem fireAbortOne_some (h : liveContext? s c = some x) :
    fireAbortOne c s = endContext c .fireAbort (fireResolve c x s) := by
  unfold fireAbortOne
  rw [h]

/-- The context whose turn it is. -/
theorem fireAbortOne_own (h : liveContext? s c = some x) :
    ∃ y, (fireAbortOne c s).context? c = some y ∧ Aborted x y x.phase ∧ c ∉ (fireAbortOne c s).hatch.waiting := by
  obtain ⟨hx, hl⟩ := liveContext?_iff.mp h
  obtain ⟨y, hy, hxy⟩ := fireResolve_persist hx hl c x hx
  have live := hxy.finish.trans hl
  rw [fireAbortOne_some h]
  obtain ⟨ended, -, -⟩ := endContext_spec hy live .fireAbort
  refine ⟨_, ended, ⟨hxy.courier, rfl, rfl, ?_⟩, fun hm =>
    (endContext_waiting (liveContext?_eq hy live) .fireAbort hm).2 rfl⟩
  show some (y.phase, _) = some (x.phase, _)
  rw [hxy.phase]

/-- The other context: it keeps its course, but for a grant on the way; an ended one that does not wait stands. -/
theorem fireAbortOne_other (hd : d ≠ c) (hx : s.context? d = some x) :
    ∃ y, (fireAbortOne c s).context? d = some y ∧ y.courier = x.courier ∧ y.finish = x.finish ∧
      ((s.zoneFire s.hatchZone).state.inFire = true → y.phase = x.phase) ∧
      (x.finish ≠ none → d ∉ s.hatch.waiting → y = x) := by
  cases hl : liveContext? s c with
  | none =>
    rw [fireAbortOne_none hl]
    exact ⟨x, hx, rfl, rfl, fun _ => rfl, fun _ _ => rfl⟩
  | some w =>
    obtain ⟨hw, hwl⟩ := liveContext?_iff.mp hl
    obtain ⟨y, hy, hxy⟩ := fireResolve_persist hw hwl d x hx
    obtain ⟨hatch, fire, settings⟩ := fireResolve_uncalled c w s
    obtain ⟨z, hz, courier, finish, same⟩ := (endContext_courses hd hy .fireAbort).context
    rw [fireAbortOne_some hl]
    refine ⟨z, hz, courier.trans hxy.courier, finish.trans hxy.finish, fun hf => ?_, fun hn hwait => ?_⟩
    · rw [same (.inr (by rw [zoneFire_congr fire, hatchZone_congr settings]; exact hf)), hxy.phase]
    · rw [same (.inl (by rw [hatch]; exact hwait)), hxy.ended hn]

/-- R167: every live context has ended FIRE_ABORT, the second one in the phase that a grant on the way gave it. -/
theorem fireAbort_ends (c : Fin 2) (h : liveContext? s c.val = some x) :
    ∃ y step, (fireAbort s).context? c.val = some y ∧ Aborted x y step ∧
      (c = 0 ∨ (s.zoneFire s.hatchZone).state.inFire = true → step = x.phase) := by
  unfold fireAbort
  match c with
  | 0 =>
    obtain ⟨y, hy, aborted, wait⟩ := fireAbortOne_own (c := 0) h
    have ended : y.finish ≠ none := by
      rw [aborted.2.2.2]
      exact nofun
    obtain ⟨z, hz, -, -, -, same⟩ := fireAbortOne_other (c := 1) Nat.zero_ne_one hy
    exact ⟨z, _, hz, by rw [same ended wait]; exact aborted, fun _ => rfl⟩
  | 1 =>
    obtain ⟨hx, hl⟩ := liveContext?_iff.mp h
    obtain ⟨y, hy, courier, finish, phase, -⟩ := fireAbortOne_other (c := 0) Nat.one_ne_zero hx
    obtain ⟨z, hz, ⟨hc, aborted⟩, -⟩ := fireAbortOne_own (liveContext?_eq hy (finish.trans hl))
    refine ⟨z, y.phase, hz, ⟨hc.trans courier, aborted⟩, fun hcase => ?_⟩
    rcases hcase with hcase | hcase
    · cases hcase
    · exact phase hcase

theorem fireAbortOne_ordersRun (c : Nat) (s : State) : OrdersRun s (fireAbortOne c s) := by
  unfold fireAbortOne
  split
  · exact .refl
  · exact (fireResolve_ordersRun c _ s).trans (endContext_ordersRun c .fireAbort _)

theorem fireAbort_ordersRun (s : State) : OrdersRun s (fireAbort s) :=
  (fireAbortOne_ordersRun 0 s).trans (fireAbortOne_ordersRun 1 _)

theorem fireAbort_idle (h : ∀ c : Fin 2, liveContext? s c.val = none) : fireAbort s = s := by
  unfold fireAbort
  rw [fireAbortOne_none (c := 0) (h 0), fireAbortOne_none (c := 1) (h 1)]

theorem fireAbortOne_owner (hf : (s.zoneFire s.hatchZone).state.inFire = true)
    (h : (fireAbortOne c s).hatch.owner = .fire) : s.hatch.owner = .fire := by
  cases hl : liveContext? s c with
  | none =>
    rw [fireAbortOne_none hl] at h
    exact h
  | some x =>
    obtain ⟨hatch, fire, settings⟩ := fireResolve_uncalled c x s
    rw [fireAbortOne_some hl] at h
    rw [← hatch]
    exact endContext_owner (by rw [zoneFire_congr fire, hatchZone_congr settings]; exact hf) c _ h

theorem fireAbort_owner (hf : (s.zoneFire s.hatchZone).state.inFire = true)
    (h : (fireAbort s).hatch.owner = .fire) : s.hatch.owner = .fire := by
  have m : Moves { Allow.all with fire := False, settings := False } s (fireAbortOne 0 s) := by
    apply fireAbortOne_moves 0 .refl <;> trivial
  refine fireAbortOne_owner (c := 0) hf (fireAbortOne_owner (c := 1) ?_ h)
  rw [zoneFire_congr (m.fire_eq id), hatchZone_congr (m.settings_eq id)]
  exact hf

end Sys2Proof.Machine
end

section
/-! What a confirmation leaves (R127, R128): the contexts ended, the orders of the zone failed, the hatch and the rack
told; and the countdown test after it. -/

namespace Sys2Proof.Machine

variable {s t u v w : State} {c d i k : Nat} {x y : Context} {z : Fin 8} {o p : Order} {r : Record} {f : ZoneFire}

/-! ## The orders of the zone -/

theorem zoneOfSlot_congr (h : t.settings = s.settings) (n : Nat) : zoneOfSlot t n = zoneOfSlot s n :=
  zoneOfLocation_congr h (.slot n)

/-- The Order Queue's step at one order when zone z is confirmed (R78). -/
def failOne (z : Fin 8) (s : State) (k : Nat) : State :=
  match s.order? k with
  | none => s
  | some o =>
    if !o.state.isFinished && o.unhanded.any (fun i =>
      match s.record? i with
      | some r => zoneOfSlot s r.home == some z
      | none => false)
    then finishOrder k .failedFire s else s

theorem ordersFailFire_eq (z : Fin 8) (s : State) : ordersFailFire z s = s.orders.places.foldl (failOne z) s := rfl

theorem failOne_ordersRun (z : Fin 8) (s : State) (k : Nat) : OrdersRun s (failOne z s k) := by
  unfold failOne
  split
  · exact .refl
  · split
    · exact finishOrder_ordersRun k _ s
    · exact .refl

theorem ordersFailFire_ordersRun (z : Fin 8) (s : State) : OrdersRun s (ordersFailFire z s) := by
  rw [ordersFailFire_eq]
  exact .foldl _ (fun k u => failOne_ordersRun z u k) s

theorem ordersFailFire_persist (z : Fin 8) (s : State) : Persist s (ordersFailFire z s) := by
  rw [ordersFailFire_eq]
  refine .foldl _ (fun k u => ?_) s
  unfold failOne
  split
  · exact .refl
  · split
    · exact finishOrder_persist k _ u
    · exact .refl

theorem failOne_settings (z : Fin 8) (s : State) (k : Nat) : (failOne z s k).settings = s.settings := by
  unfold failOne
  split
  · rfl
  · split
    · exact (finishOrder_records k .failedFire s).settings_eq id
    · rfl

theorem failOne_other (h : k ≠ d) (z : Fin 8) (s : State) : (failOne z s d).order? k = s.order? k := by
  unfold failOne
  split
  · rfl
  · next o ho =>
    split
    · next hc =>
      have hf : o.state.isFinished = false := by simpa using (Bool.and_eq_true_iff.mp hc).1
      obtain ⟨-, others, -⟩ := finishOrder_spec .failedFire ho hf
      exact others k h
    · rfl

/-- An unfinished order with an unhanded entry of home zone z. -/
structure Fails (z : Fin 8) (o : Order) (k i : Nat) (s : State) : Prop where
  order : s.order? k = some o
  running : o.state.isFinished = false
  unhanded : i ∈ o.unhanded
  home : ∃ r, s.record? i = some r ∧ zoneOfSlot s r.home = some z

/-- An order as R78 finishes it. -/
def Order.failedFire (o : Order) : Order := { o with state := .finished .failedFire, deadline := none }

theorem failOne_same (h : Fails z o k i s) : (failOne z s k).order? k = some o.failedFire := by
  obtain ⟨r, hr, hz⟩ := h.home
  have hit : (o.unhanded.any fun i =>
      match s.record? i with
      | some r => zoneOfSlot s r.home == some z
      | none => false) = true := List.any_eq_true.mpr ⟨i, h.unhanded, by rw [hr]; simpa using hz⟩
  unfold failOne
  rw [h.order]
  dsimp only
  rw [hit, h.running]
  exact (finishOrder_spec .failedFire h.order h.running).1

theorem failAll (ks : List Nat) : ∀ s, k ∈ ks → Fails z o k i s →
    (ks.foldl (failOne z) s).order? k = some o.failedFire := by
  induction ks with
  | nil => exact fun _ h _ => absurd h List.not_mem_nil
  | cons d ks ih =>
    intro s hk h
    rw [List.foldl_cons]
    by_cases hd : k = d
    · subst hd
      have done := failOne_same h
      obtain ⟨y, hy, runs⟩ := (OrdersRun.foldl ks (fun k u => failOne_ordersRun z u k) (failOne z s k)).orders k _ done
      rw [hy, runs.finished rfl]
    · refine ih (failOne z s d) ((List.mem_cons.mp hk).resolve_left hd)
        ⟨(failOne_other hd z s).trans h.order, h.running, h.unhanded, ?_⟩
      obtain ⟨r, hr, hz⟩ := h.home
      obtain ⟨q, hq, hhome⟩ := (failOne_ordersRun z s d).homes i r hr
      exact ⟨q, hq, by rw [zoneOfSlot_congr (failOne_settings z s d), hhome]; exact hz⟩

theorem Table.mem_places {α : Type} {u : Table α} {n : Nat} {a : α} (h : u.get? n = some a) : n ∈ u.places :=
  List.mem_map.mpr ⟨(n, a), Table.mem_of_get? h, rfl⟩

/-- R78: each order with an unhanded entry of home zone z finishes FAILED_FIRE. -/
theorem ordersFailFire_fails (h : Fails z o k i s) : (ordersFailFire z s).order? k = some o.failedFire := by
  rw [ordersFailFire_eq]
  exact failAll _ s (Table.mem_places h.order) h

/-! ## The rack -/

/-- What a change of the rack leaves of the contexts and the orders. -/
structure Runs (s t : State) : Prop where
  contexts : Persist s t
  orders : OrdersRun s t

theorem Runs.refl : Runs s s := ⟨.refl, .refl⟩

theorem Runs.trans (h : Runs s t) (g : Runs t u) : Runs s u := ⟨h.contexts.trans g.contexts, h.orders.trans g.orders⟩

theorem Runs.foldl {α : Type} {f : State → α → State} (l : List α) (hf : ∀ a u, Runs u (f u a)) :
    ∀ s, Runs s (l.foldl f s) := by
  induction l with
  | nil => exact fun _ => .refl
  | cons a l ih => exact fun s => (hf a s).trans (ih (f s a))

theorem Runs.of_eq (hc : t.handover.contexts = s.handover.contexts) (ho : t.orders = s.orders)
    (hu : t.custody = s.custody) : Runs s t :=
  ⟨fun c x hx => ⟨x, (context?_congr hc c).trans hx, .refl x⟩, .of_eq ho hu⟩

theorem completeDwell_runs (p : Fin 12) (s : State) : Runs s (completeDwell p s) := by
  unfold completeDwell
  dsimp only
  split
  · next i left _ _ =>
    have placed : Runs s (setPosition p { s.position p with dwell := none, paused := false } s) := .of_eq rfl rfl rfl
    split
    · exact placed
    · next r hr =>
      split
      · split
        · next g _ =>
          have changed : Runs (setPosition p { s.position p with dwell := none, paused := false } s)
              (changeRecord .rack false i { r with state := .ready g, exposed := false }
                (setPosition p { s.position p with dwell := none, paused := false } s)) :=
            ⟨changeRecord_persist _ _ _ _ _, changeRecord_ordersRun .rack false hr nofun rfl⟩
          exact placed.trans (changed.trans (.of_eq rfl rfl rfl))
        all_goals exact placed
      · exact placed
  · exact .refl

theorem pausePosition_runs (paused : Bool) (p : Fin 12) (s : State) : Runs s (pausePosition paused p s) := by
  have placed : ∀ x, Runs s (setPosition p x s) := fun x => .of_eq rfl rfl rfl
  unfold pausePosition
  dsimp only
  split
  · exact .refl
  · split
    · exact .of_eq rfl rfl rfl
    · split
      · exact (placed _).trans (completeDwell_runs p _)
      · exact .of_eq rfl rfl rfl

theorem updateRackPause_runs (s : State) : Runs s (updateRackPause s) := by
  have flagged : ∀ b, Runs s (s.withRack { s.rack with paused := b }) := fun b => .of_eq rfl rfl rfl
  unfold updateRackPause
  dsimp only
  split
  · exact .refl
  · exact (flagged _).trans (.foldl _ (fun p u => pausePosition_runs _ p u) _)

/-- R101: while the rack's zone is in fire the rack is paused. -/
theorem updateRackPause_paused (h : (s.zoneFire s.rackZone).state.inFire = true) : (updateRackPause s).rack.paused = true := by
  have wanted : rackPauseWanted s = true := by
    unfold rackPauseWanted
    rw [h]
    exact Bool.or_true _
  have all : ∀ (ps : List (Fin 12)) (u : State), u.rack.paused = true →
      (ps.foldl (fun s p => pausePosition true p s) u).rack.paused = true := by
    intro ps
    induction ps with
    | nil => exact fun _ h => h
    | cons p ps ih =>
      intro u hu
      refine ih _ ?_
      unfold pausePosition
      dsimp only
      split
      · exact hu
      · rw [if_pos rfl]
        exact hu
  unfold updateRackPause
  dsimp only
  rw [wanted]
  split
  · next h => exact h.symm
  · exact all _ _ rfl

/-- The blocks that the rack's pause leaves. -/
def Allow.pausing : Allow := { Allow.all with hatch := False, fire := False, settings := False, climate := False }

theorem updateRackPause_pausing (s : State) : Moves .pausing s (updateRackPause s) := by
  apply updateRackPause_moves .refl <;> trivial

/-! ## The hatch in fire -/

theorem updateLocks_zoneFire (s : State) (z : Fin 8) : (updateLocks s).zoneFire z = s.zoneFire z := by
  obtain ⟨q, e⟩ := updateLocks_frame s
  rw [e]
  rfl

/-- The blocks that the stop of a purge run leaves. -/
def Allow.stopping : Allow := { Allow.all with contexts := False, orders := False, custody := False, rack := False }

/-- R127: the hatch told of a zone in fire. -/
structure HatchTold (z : Fin 8) (s t : State) : Prop where
  runs : Runs s t
  orders : t.orders = s.orders
  rack : t.rack = s.rack
  exit : t.hatch.exitLock = .unlocked
  owner : z = s.hatchZone → t.hatch.owner = .fire
  left : z = s.hatchZone → s.hatch.owner ≠ .fire →
    t.hatch.waiting = [] ∧ t.hatch.yielded = none ∧ t.hatch.purge = none
  stays : z = s.hatchZone → s.hatch.owner = .fire →
    t.hatch.waiting = s.hatch.waiting ∧ t.hatch.yielded = s.hatch.yielded ∧ t.hatch.purge = s.hatch.purge

theorem updateLocks_runs (s : State) : Runs s (updateLocks s) := by
  obtain ⟨q, e⟩ := updateLocks_frame s
  rw [e]
  exact .of_eq rfl rfl rfl

theorem hatchFireTold_told (hf : (s.zoneFire z).state.inFire = true) : HatchTold z s (hatchFireTold z s) := by
  have exit : (hatchFireTold z s).hatch.exitLock = .unlocked := by
    refine hatchFireTold_exitOpen z s ?_
    have m : Moves .butFire s (hatchFireTold z s) := hatchFireTold_butFire z s
    rw [someFire_congr (m.fire_eq id)]
    exact (someFire_iff s).mpr ⟨z, hf⟩
  have locked : ∀ v : State, Runs s v → v.hatch.owner = .fire →
      Runs s (updateLocks v) ∧ (updateLocks v).hatch.owner = .fire := fun v hv ho =>
    ⟨hv.trans (updateLocks_runs v), by rw [updateLocks_owner]; exact ho⟩
  by_cases hz : z = s.hatchZone
  · by_cases ho : s.hatch.owner = .fire
    · have e : hatchFireTold z s = updateLocks s := by
        unfold hatchFireTold
        rw [if_pos hz, if_pos hf, if_pos ho]
      rw [e] at exit ⊢
      obtain ⟨q, eq⟩ := updateLocks_frame s
      obtain ⟨runs, owner⟩ := locked s .refl ho
      exact ⟨runs, by rw [eq]; rfl, by rw [eq]; rfl, exit, fun _ => owner, fun _ h => absurd ho h, fun _ _ => by rw [eq]; exact ⟨rfl, rfl, rfl⟩⟩
    · have stopped : Runs s (if s.hatch.purge.isSome then stopRun s else s) ∧
          (if s.hatch.purge.isSome then stopRun s else s).orders = s.orders ∧
          (if s.hatch.purge.isSome then stopRun s else s).rack = s.rack ∧
          (if s.hatch.purge.isSome then stopRun s else s).hatch.purge = none := by
        split
        · rw [stopRun_hatch]
          have m : Moves .stopping s (stopRun s) := by
            apply stopRun_moves .refl <;> trivial
          exact ⟨.of_eq (m.contexts_eq id) (m.orders_eq id) (m.custody_eq id), m.orders_eq id, m.rack_eq id, rfl⟩
        · next h => exact ⟨.refl, rfl, rfl, by simpa using h⟩
      have e : hatchFireTold z s = updateLocks ((if s.hatch.purge.isSome then stopRun s else s).withHatch
          { (if s.hatch.purge.isSome then stopRun s else s).hatch with owner := .fire, waiting := [], yielded := none }) := by
        unfold hatchFireTold
        rw [if_pos hz, if_pos hf, if_neg ho]
      rw [e] at exit ⊢
      generalize (if s.hatch.purge.isSome then stopRun s else s) = v at stopped exit
      obtain ⟨hv, horders, hrack, hp⟩ := stopped
      obtain ⟨q, eq⟩ := updateLocks_frame (v.withHatch { v.hatch with owner := .fire, waiting := [], yielded := none })
      obtain ⟨runs, owner⟩ := locked (v.withHatch { v.hatch with owner := .fire, waiting := [], yielded := none })
        (hv.trans (.of_eq rfl rfl rfl)) rfl
      exact ⟨runs, by rw [eq]; exact horders, by rw [eq]; exact hrack, exit, fun _ => owner, fun _ _ => by rw [eq]; exact ⟨rfl, rfl, hp⟩, fun _ h => absurd h ho⟩
  · have e : hatchFireTold z s = updateLocks s := if_neg hz
    rw [e] at exit ⊢
    obtain ⟨q, eq⟩ := updateLocks_frame s
    exact ⟨updateLocks_runs s, by rw [eq]; rfl, by rw [eq]; rfl, exit, fun h => absurd h hz, fun h => absurd h hz, fun h => absurd h hz⟩

/-! ## A confirmation -/

theorem lockout_of {z : Fin 8} (hf : (s.zoneFire z).state.inFire = true) (ha : (s.zoneFire z).acknowledged = false) :
    lockout s = true :=
  List.any_eq_true.mpr ⟨z, mem_zoneIds z, by rw [hf, ha]; rfl⟩

/-- What follows a confirmation in its event: the confirmation stands. -/
structure Follows (z : Fin 8) (t w : State) : Prop where
  runs : Runs t w
  lock : lockout w = true
  exit : w.hatch.exitLock = .unlocked
  notice : w.notices.pending.get? z.val = some (zoneFireNotice w z)
  rack : z = t.rackZone → t.rack.paused = true → w.rack.paused = true
  hatch : z = t.hatchZone → t.hatch.owner = .fire → w.hatch.owner = .fire ∧ w.hatch.waiting = t.hatch.waiting ∧
    w.hatch.yielded = t.hatch.yielded ∧ w.hatch.purge = t.hatch.purge
  climate : (w.zoneFire z).state = .countdown → (w.zoneClimate z).control = .suspended

theorem rackZone_congr (h : t.settings = s.settings) : t.rackZone = s.rackZone := by
  simp only [State.rackZone, State.param, h]

theorem Confirmed.follows (h : Confirmed s t z) (hs : t.settings = s.settings) (g : Follows z t w) : Confirmed s w z := by
  obtain ⟨-, -, -, rack, hatch, -, contexts, orders⟩ := h
  refine ⟨g.lock, g.exit, g.notice, fun hz => ?_, fun hz => ?_, g.climate, fun c x hx => ?_, fun k o i r ho hf hi hr hz => ?_⟩
  · exact g.rack (hz.trans (rackZone_congr hs).symm) (rack hz)
  · obtain ⟨owner, left⟩ := hatch hz
    obtain ⟨howner, hwaiting, hyielded, hpurge⟩ := g.hatch (hz.trans (hatchZone_congr hs).symm) owner
    rw [hwaiting, hyielded, hpurge]
    exact ⟨howner, left⟩
  · obtain ⟨y, step, hy, courier, phase, timer, finish, same⟩ := contexts c x hx
    obtain ⟨y', hy', persists⟩ := g.runs.contexts c y hy
    have e : y' = y := persists.ended (by rw [finish]; exact nofun)
    exact ⟨y, step, by rw [hy', e], courier, phase, timer, finish, same⟩
  · obtain ⟨y, hy, finished, deadline, alone⟩ := orders k o i r ho hf hi hr hz
    obtain ⟨y', hy', runs⟩ := g.runs.orders.orders k y hy
    exact ⟨y, by rw [hy', runs.finished finished], finished, deadline, alone⟩

theorem preempt_frame (s : State) : preempt s = { s with host := (preempt s).host } := by
  unfold preempt refuseFrame
  split
  · rfl
  · split <;> rfl

theorem fireNoticeDue_of_state {old new : ZoneFire} (h : old.state ≠ new.state) : fireNoticeDue old new = true := by
  have e : (old.state != new.state) = true := by simpa using h
  unfold fireNoticeDue
  rw [e]
  rfl

/-- The state in which a confirmation has taken its record and pre-empted the waiting frame. -/
def confirming (z : Fin 8) (f : ZoneFire) (s : State) : State :=
  preempt (putFire z (f.confirmed (s.param .ackTime * 1000)) s)

theorem confirming_frame (z : Fin 8) (f : ZoneFire) (s : State) : confirming z f s =
    { s with fire := (confirming z f s).fire, notices := (confirming z f s).notices, host := (confirming z f s).host } := by
  unfold confirming
  rw [preempt_frame, putFire_frame]

theorem confirming_zoneFire (z : Fin 8) (f : ZoneFire) (s : State) :
    (confirming z f s).zoneFire z = f.confirmed (s.param .ackTime * 1000) := by
  unfold confirming
  rw [zoneFire_congr (preempt_fire _), putFire_zoneFire_same]

/-- The blocks that stand from there on, and what the abort of the contexts leaves. -/
theorem fireAbort_standing (s : State) : (fireAbort s).fire = s.fire ∧ (fireAbort s).settings = s.settings := by
  have m : Moves { Allow.all with fire := False, settings := False } s (fireAbort s) := by
    apply fireAbort_moves .refl <;> trivial
  exact ⟨m.fire_eq id, m.settings_eq id⟩

theorem hatchFireTold_standing (z : Fin 8) (s : State) :
    (hatchFireTold z s).fire = s.fire ∧ (hatchFireTold z s).settings = s.settings := by
  have m : Moves { Allow.all with fire := False, settings := False } s (hatchFireTold z s) := by
    apply hatchFireTold_moves z .refl <;> trivial
  exact ⟨m.fire_eq id, m.settings_eq id⟩

theorem ordersFailFire_standing (z : Fin 8) (s : State) : (ordersFailFire z s).fire = s.fire ∧
    (ordersFailFire z s).settings = s.settings ∧ (ordersFailFire z s).hatch = s.hatch := by
  have m : Moves { Allow.all with fire := False, settings := False, hatch := False } s (ordersFailFire z s) := by
    apply ordersFailFire_moves z .refl <;> trivial
  exact ⟨m.fire_eq id, m.settings_eq id, m.hatch_eq id⟩

theorem climateFireTold_confirmed (z : Fin 8) (old : FireState) (s : State) : climateFireTold z old .confirmed s = s := by
  unfold climateFireTold
  dsimp only
  rw [if_neg (fun h => by cases h.1), if_neg (fun h => by cases h.1)]

theorem liveContext?_congr (h : t.handover.contexts = s.handover.contexts) (c : Nat) :
    liveContext? t c = liveContext? s c := by
  unfold liveContext?
  rw [context?_congr h]

/-- R115, R127: a zone that was not CONFIRMED is confirmed. -/
theorem confirm_confirmed (f : ZoneFire) (hs : (s.zoneFire z).state ≠ .confirmed) : Confirmed s (confirm z f s) z := by
  have e : confirm z f s = updateRackPause (ordersFailFire z (hatchFireTold z (fireAbort (confirming z f s)))) := by
    rw [confirm_eq, climateFireTold_confirmed]
    rfl
  have noticed : (putFire z (f.confirmed (s.param .ackTime * 1000)) s).notices.pending.get? z.val =
      some (zoneFireNotice (putFire z (f.confirmed (s.param .ackTime * 1000)) s) z) :=
    putFire_noticed (fireNoticeDue_of_state hs)
  have works : Works .none (putFire z (f.confirmed (s.param .ackTime * 1000)) s) (confirm z f s) := by
    rw [e]
    exact updateRackPause_works (ordersFailFire_works z (hatchFireTold_works z (fireAbort_works (preempt_works .refl))))
  have zone := confirming_zoneFire z f s
  have frame := confirming_frame z f s
  have putZone : (putFire z (f.confirmed (s.param .ackTime * 1000)) s).zoneFire z = f.confirmed (s.param .ackTime * 1000) :=
    putFire_zoneFire_same ..
  generalize putFire z (f.confirmed (s.param .ackTime * 1000)) s = p at noticed works putZone
  generalize confirming z f s = q at e zone frame
  have contexts : q.handover.contexts = s.handover.contexts := by rw [frame]
  have orders : q.orders = s.orders := by rw [frame]
  have custody : q.custody = s.custody := by rw [frame]
  have settings : q.settings = s.settings := by rw [frame]
  have owner : q.hatch.owner = s.hatch.owner := by rw [frame]
  obtain ⟨abortFire, abortSettings⟩ := fireAbort_standing q
  obtain ⟨toldFire, toldSettings⟩ := hatchFireTold_standing z (fireAbort q)
  obtain ⟨failFire, failSettings, failHatch⟩ := ordersFailFire_standing z (hatchFireTold z (fireAbort q))
  have pausing := updateRackPause_pausing (ordersFailFire z (hatchFireTold z (fireAbort q)))
  have inFire : ∀ v : State, v.fire = q.fire → (v.zoneFire z).state.inFire = true := fun v hv => by
    rw [zoneFire_congr hv, zone]
    rfl
  have told := hatchFireTold_told (inFire _ abortFire)
  have after : Runs (hatchFireTold z (fireAbort q)) (confirm z f s) := by
    rw [e]
    exact Runs.trans ⟨ordersFailFire_persist z _, ordersFailFire_ordersRun z _⟩ (updateRackPause_runs _)
  have hatch : (confirm z f s).hatch = (hatchFireTold z (fireAbort q)).hatch := by
    rw [e]
    exact (pausing.hatch_eq id).trans failHatch
  have fire : (confirm z f s).fire = q.fire := by
    rw [e]
    exact (pausing.fire_eq id).trans (failFire.trans (toldFire.trans abortFire))
  have stands : (confirm z f s).zoneFire z = f.confirmed (s.param .ackTime * 1000) := (zoneFire_congr fire z).trans zone
  have hatchZone : z = s.hatchZone → z = (fireAbort q).hatchZone := fun h =>
    h.trans (hatchZone_congr (abortSettings.trans settings)).symm
  refine ⟨lockout_of (inFire _ fire) (by rw [stands]; rfl), by rw [hatch]; exact told.exit, ?_, fun hz => ?_, fun hz => ?_,
    fun hc => ?_, fun c x hx => ?_, fun k o i r ho hf hi hr hz => ?_⟩
  · rw [works.notices z.val (.inr ⟨id, by omega⟩), noticed]
    exact congrArg some (zoneFireNotice_congr (putZone.trans stands.symm))
  · rw [e]
    refine updateRackPause_paused ?_
    rw [rackZone_congr (failSettings.trans (toldSettings.trans (abortSettings.trans settings))), ← hz]
    exact inFire _ (failFire.trans (toldFire.trans abortFire))
  · rw [hatch]
    refine ⟨told.owner (hatchZone hz), fun ho => told.left (hatchZone hz) fun h => ho ?_⟩
    rw [← owner]
    refine fireAbort_owner ?_ h
    rw [hatchZone_congr settings, ← hz]
    exact inFire q rfl
  · rw [stands] at hc
    cases hc
  · obtain ⟨y, step, hy, ⟨courier, phase, timer, finish⟩, same⟩ :=
      fireAbort_ends c ((liveContext?_congr contexts c.val).trans hx)
    obtain ⟨y', hy', persists⟩ := (told.runs.contexts.trans after.contexts) c.val y hy
    have ended : y' = y := persists.ended (by rw [finish]; exact nofun)
    refine ⟨y, step, by rw [hy', ended], courier, phase, timer, finish, fun h => same (h.imp id fun hz => ?_)⟩
    rw [hatchZone_congr settings, ← hz]
    exact inFire q rfl
  · obtain ⟨y, hy, runs⟩ := ((fireAbort_ordersRun q).trans told.runs.orders).orders k o
      ((order?_congr orders k).trans ho)
    obtain ⟨r', hr', home⟩ := ((fireAbort_ordersRun q).trans told.runs.orders).homes i r
      ((record?_congr custody i).trans hr)
    obtain ⟨y', hy', runs'⟩ := after.orders.orders k y hy
    rcases runs.running hf with ⟨finished, deadline⟩ | ⟨running, entries⟩
    · have same := runs'.finished finished
      refine ⟨y', hy', by rw [same]; exact finished, by rw [same]; exact deadline, fun hnone => ?_⟩
      have idle := fireAbort_idle (s := q) fun c => (liveContext?_congr contexts c.val).trans (hnone c)
      rw [order?_congr told.orders, idle, order?_congr orders, ho] at hy
      cases hy
      rw [hf] at finished
      cases finished
    · have fails : Fails z y k i (hatchFireTold z (fireAbort q)) :=
        ⟨hy, running, by unfold Order.unhanded at hi ⊢; rw [entries]; exact hi, r', hr', by
          rw [home, zoneOfSlot_congr (toldSettings.trans (abortSettings.trans settings))]
          exact hz⟩
      obtain ⟨w, hw, runsW⟩ := (updateRackPause_runs (ordersFailFire z (hatchFireTold z (fireAbort q)))).orders.orders k _
        (ordersFailFire_fails fails)
      rw [← e] at hw
      have same : w = y.failedFire := runsW.finished rfl
      refine ⟨w, hw, by rw [same]; rfl, by rw [same]; rfl, fun hnone => ?_⟩
      have idle := fireAbort_idle (s := q) fun c => (liveContext?_congr contexts c.val).trans (hnone c)
      rw [order?_congr told.orders, idle, order?_congr orders, ho] at hy
      cases hy
      exact same

/-! ## The countdown test -/

theorem takeControl_suspended (z : Fin 8) (s : State) : ((takeControl z .suspended s).zoneClimate z).control = .suspended := by
  have m : Moves { Allow.all with climate := False } (setZoneClimate z { s.zoneClimate z with control := .suspended } s)
      (takeControl z .suspended s) := by
    apply postZoneClimate_moves z (postMode_moves z .refl trivial) trivial
  have e : (takeControl z .suspended s).zoneClimate z =
      (setZoneClimate z { s.zoneClimate z with control := .suspended } s).zoneClimate z := by
    simp only [State.zoneClimate, m.climate_eq id]
  rw [e]
  simp [State.zoneClimate, setZoneClimate]

theorem climateFireTold_suspended (z : Fin 8) (s : State) :
    ((climateFireTold z .confirmed .countdown s).zoneClimate z).control = .suspended := by
  unfold climateFireTold
  dsimp only
  split
  · exact takeControl_suspended z s
  · next h =>
    rw [if_neg (fun k => by cases k.1)]
    by_contra hc
    exact h ⟨rfl, Bool.false_ne_true, hc⟩

/-- The blocks that a control state taken for a fire leaves. -/
def Allow.controlling : Allow := { Allow.inLayout with fire := False, hatch := False, rack := False, contexts := False, orders := False, custody := False }

/-- R116: the countdown that starts in the event of a confirmation leaves it standing. -/
theorem countdown_follows {new : ZoneFire} (hold : (t.zoneFire z).state = .confirmed) (hnew : new.state = .countdown)
    (ha : new.acknowledged = false) : Follows z t (changeFire z new t) := by
  have hne : (t.zoneFire z).state ≠ new.state := by rw [hold, hnew]; exact nofun
  have noticed := putFire_noticed (fireNoticeDue_of_state hne)
  have putZone : (putFire z new t).zoneFire z = new := putFire_zoneFire_same ..
  have frame := putFire_frame z new t
  have e : changeFire z new t = hatchFireTold z (updateRackPause (climateFireTold z .confirmed .countdown (putFire z new t))) := by
    unfold changeFire tellFire
    dsimp only
    rw [if_neg (Ne.symm hne), putZone, hold, hnew]
  have stands : (changeFire z new t).zoneFire z = new := changeFire_state ..
  rw [e] at stands ⊢
  generalize putFire z new t = p at noticed putZone frame stands ⊢
  have climated : Moves .controlling p (climateFireTold z .confirmed .countdown p) := by
    apply climateFireTold_moves z _ _ .refl <;> trivial
  have suspended := climateFireTold_suspended z p
  have works : Works .none p (hatchFireTold z (updateRackPause (climateFireTold z .confirmed .countdown p))) :=
    hatchFireTold_works z (updateRackPause_works (climateFireTold_works z _ _ .refl))
  generalize climateFireTold z .confirmed .countdown p = q at climated suspended works stands ⊢
  have pausing := updateRackPause_pausing q
  have rackRuns := updateRackPause_runs q
  have paused := updateRackPause_paused (s := q)
  generalize updateRackPause q = v at pausing rackRuns paused works stands ⊢
  have fire : v.fire = p.fire := (pausing.fire_eq id).trans (climated.fire_eq id)
  have settings : v.settings = t.settings := by
    rw [pausing.settings_eq id, climated.settings_eq id, frame]
  have inFire : ∀ w : State, w.fire = p.fire → (w.zoneFire z).state.inFire = true := fun w hw => by
    rw [zoneFire_congr hw, putZone, hnew]
    rfl
  have told := hatchFireTold_told (inFire v fire)
  have hatch : v.hatch = t.hatch := by
    rw [pausing.hatch_eq id, climated.hatch_eq id, frame]
  have before : Runs t v := by
    refine Runs.trans (t := q) (.of_eq ?_ ?_ ?_) rackRuns
    · rw [climated.contexts_eq id, frame]
    · rw [climated.orders_eq id, frame]
    · rw [climated.custody_eq id, frame]
  have toldMoves : Moves { Allow.all with climate := False, fire := False } v (hatchFireTold z v) := by
    apply hatchFireTold_moves z .refl <;> trivial
  refine ⟨before.trans told.runs, lockout_of (inFire _ ((toldMoves.fire_eq id).trans fire)) (by rw [stands]; exact ha),
    told.exit, ?_, fun hz _ => ?_, fun hz ho => ?_, fun _ => ?_⟩
  · rw [works.notices z.val (.inr ⟨id, by omega⟩), noticed]
    exact congrArg some (zoneFireNotice_congr (putZone.trans stands.symm))
  · rw [told.rack]
    refine paused ?_
    rw [rackZone_congr (s := t) (by rw [climated.settings_eq id, frame]), ← hz]
    exact inFire q (climated.fire_eq id)
  · have hz' : z = v.hatchZone := hz.trans (hatchZone_congr settings).symm
    have ho' : v.hatch.owner = .fire := by rw [hatch]; exact ho
    have stays := told.stays hz' ho'
    rw [hatch] at stays
    exact ⟨told.owner hz', stays⟩
  · have climate : (hatchFireTold z v).climate = q.climate := (toldMoves.climate_eq id).trans (pausing.climate_eq id)
    have same : (hatchFireTold z v).zoneClimate z = q.zoneClimate z := by simp only [State.zoneClimate, climate]
    rw [same]
    exact suspended

/-- The record of a zone confirmed, once its countdown test has been made. -/
theorem confirm_zoneFire (z : Fin 8) (f : ZoneFire) (s : State) :
    (confirm z f s).zoneFire z = f.confirmed (s.param .ackTime * 1000) := by
  obtain ⟨p, hp, m⟩ := confirm_of_putFire z f s
  rw [zoneFire_congr ((m.fire_eq id).trans (preempt_fire p)), hp, putFire_zoneFire_same]

theorem confirm_other {y : Fin 8} (h : y ≠ z) (f : ZoneFire) (s : State) : (confirm z f s).zoneFire y = s.zoneFire y := by
  obtain ⟨p, hp, m⟩ := confirm_of_putFire z f s
  rw [zoneFire_congr ((m.fire_eq id).trans (preempt_fire p)), hp, putFire_zoneFire_other h]

theorem confirm_settings (z : Fin 8) (f : ZoneFire) (s : State) : (confirm z f s).settings = s.settings := by
  have m : Moves { Allow.all with settings := False } s (confirm z f s) := by
    apply confirm_moves z f .refl <;> trivial
  exact m.settings_eq id

/-- R115, R116: what a confirmation with its countdown test leaves. -/
structure Counted (z : Fin 8) (f : ZoneFire) (s t : State) : Prop where
  confirmed : Confirmed s t z
  state : (t.zoneFire z).state = afterCountdownTest s z f.hold
  record : t.zoneFire z = { f.confirmed (s.param .ackTime * 1000) with
    state := (t.zoneFire z).state, countdownTimer := (t.zoneFire z).countdownTimer }
  others : ∀ y, y ≠ z → t.zoneFire y = s.zoneFire y

theorem confirmAndCount_counted (f : ZoneFire) (hs : (s.zoneFire z).state ≠ .confirmed) :
    Counted z f s (confirmAndCount z f s) := by
  have zone := confirm_zoneFire z f s
  have settings := confirm_settings z f s
  have armed : ((confirm z f s).zone z).armed = (s.zone z).armed := by simp only [State.zone, settings]
  have record := countdownTest_state z (confirm z f s)
  have others : ∀ y, y ≠ z → (confirmAndCount z f s).zoneFire y = s.zoneFire y := fun y hy =>
    (countdownTest_other hy _).trans (confirm_other hy f s)
  have confirmed := confirm_confirmed f hs
  change (confirmAndCount z f s).zoneFire z = _ at record
  rw [zone, armed] at record
  by_cases hc : (s.zone z).armed = true ∧ f.hold = .released
  · rw [if_pos ⟨rfl, hc⟩] at record
    refine ⟨?_, by rw [record]; exact (if_pos hc).symm, by rw [record], others⟩
    have e : confirmAndCount z f s = changeFire z { (confirm z f s).zoneFire z with
        state := .countdown, countdownTimer := some ((confirm z f s).param .countdownTime * 1000) } (confirm z f s) := by
      unfold confirmAndCount countdownTest
      dsimp only
      rw [if_pos]
      rw [zone, armed]
      exact ⟨rfl, hc⟩
    rw [e]
    exact confirmed.follows settings (countdown_follows (by rw [zone]; rfl) rfl (by rw [zone]; rfl))
  · rw [if_neg (fun h => hc h.2)] at record
    refine ⟨?_, by rw [record]; exact (if_neg hc).symm, by rw [record], others⟩
    have e : confirmAndCount z f s = confirm z f s := by
      unfold confirmAndCount countdownTest
      dsimp only
      rw [if_neg]
      rw [zone, armed]
      exact fun h => hc h.2
    rw [e]
    exact confirmed

end Sys2Proof.Machine
end

section
/-! SET_DRILL (R115, R116, R120). -/

namespace Sys2Proof.Machine

variable {s t u : State} {z : Fin 8} {zone : Byte} {f : ZoneFire}

theorem setDrillRequest_start (hz : zone.toNat = z.val) (s : State) : setDrillRequest zone 1 s =
    if (s.zoneFire z).state = .normal then fireReply z (confirmAndCount z { s.zoneFire z with drill := true } s)
    else refuse .wrongState s := by
  unfold setDrillRequest
  rw [zoneOperand_eq_some hz]
  rfl

theorem setDrillRequest_stop (hz : zone.toNat = z.val) (s : State) : setDrillRequest zone 0 s =
    if ((s.zoneFire z).state = .confirmed ∨ (s.zoneFire z).state = .paused ∨ (s.zoneFire z).state = .discharged) ∧
      (s.zoneFire z).drill = true then fireReply z (returnToNormal z s)
    else refuse .wrongState s := by
  unfold setDrillRequest
  rw [zoneOperand_eq_some hz]
  rfl

theorem confirmAndCount_keepsLayout (z : Fin 8) (f : ZoneFire) (s : State) : KeepsLayout s (confirmAndCount z f s) :=
  keepsLayout_of_moves (by apply confirmAndCount_moves z f .refl <;> trivial)

end Sys2Proof.Machine

namespace Sys2Proof

open Machine

/-- Settles O39, by the zone's state. -/
theorem setDrillStartsAndStops : Obligations.SetDrillStartsAndStops := by
  intro s tag zone z hready htag hz f stoppable
  have start := setDrillRequest_start hz (taken s)
  have stop := setDrillRequest_stop hz (taken s)
  refine ⟨fun hn => answers_setDrill hready htag (start.trans (if_neg hn)), fun hn => ?_,
    fun hn => answers_setDrill hready htag (stop.trans (if_neg hn)), fun hn => ?_⟩
  · have counted : Counted z { f with drill := true } (taken s) (confirmAndCount z { f with drill := true } (taken s)) :=
      confirmAndCount_counted { f with drill := true }
        (show f.state ≠ .confirmed by rw [hn]; exact nofun)
    have keeps := (taken_keepsLayout s).trans (confirmAndCount_keepsLayout z { f with drill := true } (taken s))
    have answers := answers_setDrill hready htag (start.trans (if_pos hn))
    change Answers _ _ _ _ (zoneFireNotice (confirmAndCount z { f with drill := true } (taken s)) z).content s
      (confirmAndCount z { f with drill := true } (taken s)) at answers
    generalize confirmAndCount z { f with drill := true } (taken s) = t at counted keeps answers
    have record := counted.record
    exact ⟨t, answers, counted.state, by rw [record]; rfl, by rw [record]; rfl, by rw [record]; rfl, counted.confirmed,
      counted.others, keeps⟩
  · have left : (returnToNormal z (taken s)).zoneFire z = _ := changeFire_state ..
    exact ⟨_, answers_setDrill hready htag (stop.trans (if_pos hn)), by rw [left], by rw [left],
      fun y hy => changeFire_other hy .., (taken_keepsLayout s).trans (changeFire_keepsLayout ..)⟩

end Sys2Proof
end

section
/-! What a report leaves once its owning block has had it (R31 to R37): the reply, the count and the next choice change
none of the entries posted, and the node table has the node's new entry. -/

namespace Sys2Proof.Machine

variable {s t u v : State} {i : Nat} {n y : Node} {x : Transaction} {r : Report} {g : Target}

/-! ## The entries posted -/

/-- What is posted in a queue, but for the in-flight marks. -/
def FieldLink.posted (l : FieldLink) : List (Nat × CmdKind × List Byte) := l.queue.map fun e => (e.node, e.cmd, e.data)

theorem markInFlight_posted (i : Nat) (cmd : CmdKind) (s : State) : (markInFlight i cmd s).link.posted = s.link.posted := by
  show (List.map _ (List.map _ s.link.queue)) = _
  rw [List.map_map]
  refine List.map_congr_left fun e _ => ?_
  rw [Function.comp_apply]
  split <;> rfl

theorem beginAddressed_posted (i : Nat) (o : Origin) (code : Nat) (data : List Byte) (s : State) :
    (beginAddressed i o code data s).link.posted = s.link.posted := by
  unfold beginAddressed
  split
  · rfl
  · dsimp only
    split
    · rw [markInFlight_posted]
      split <;> rfl
    · split <;> rfl

theorem routinePoll_posted (i : Nat) (s : State) : (routinePoll i s).link.posted = s.link.posted := by
  unfold routinePoll
  split
  · rfl
  · split
    · split <;> exact beginAddressed_posted ..
    · split <;> exact beginAddressed_posted ..

theorem cursorPoll_posted (s : State) : (cursorPoll s).link.posted = s.link.posted := by
  unfold cursorPoll
  split
  · rfl
  · exact routinePoll_posted ..

theorem chooseRoutine_posted (s : State) : (chooseRoutine s).link.posted = s.link.posted := by
  unfold chooseRoutine
  split
  · split
    · exact cursorPoll_posted s
    · dsimp only
      split
      · exact routinePoll_posted ..
      · exact cursorPoll_posted ..
  · exact cursorPoll_posted s

theorem chooseWork_posted (s : State) : (chooseWork s).link.posted = s.link.posted := by
  unfold chooseWork
  split
  · exact beginAddressed_posted ..
  · exact beginAddressed_posted ..
  · exact beginAddressed_posted ..
  · exact beginAddressed_posted ..
  · exact beginAddressed_posted ..
  · exact chooseRoutine_posted s

theorem chooseTransaction_posted (found : Option Nat) (s : State) :
    (chooseTransaction found s).link.posted = s.link.posted := by
  unfold chooseTransaction
  split
  · rfl
  · split
    · exact chooseWork_posted s
    · split
      · exact chooseWork_posted s
      · split
        · exact beginAddressed_posted ..
        · exact chooseWork_posted s

theorem countTransaction_posted (counted missed : Bool) (s : State) :
    (countTransaction counted missed s).link.posted = s.link.posted := by
  unfold countTransaction
  split
  · dsimp only
    split <;> rfl
  · rfl

theorem forwardReply_posted (o : Origin) (st : Status) (data : List Byte) (s : State) :
    (forwardReply o st data s).link.posted = s.link.posted := by
  unfold forwardReply endForward
  split
  · split <;> rfl
  all_goals rfl

theorem noteMore_posted (i : Nat) (more : Bool) (s : State) : (noteMore i more s).link.posted = s.link.posted := by
  unfold noteMore
  split <;> rfl

/-- What the end of a valid answer's transaction leaves of the state in which its block has had it. -/
structure Closed (s t : State) : Prop where
  moves : Moves .replying s t
  posted : t.link.posted = s.link.posted

theorem Closed.prompts {data : List Byte} (h : Closed s t) (hp : ∃ q ∈ s.link.queue, q.cmd = .prompt ∧ q.data = data) :
    Prompts t data := by
  obtain ⟨q, hq, hcmd, hdata⟩ := hp
  have mem : (q.node, CmdKind.prompt, data) ∈ t.link.posted := by
    rw [h.posted]
    exact List.mem_map.mpr ⟨q, hq, by rw [hcmd, hdata]⟩
  obtain ⟨e, he, heq⟩ := List.mem_map.mp mem
  simp only [Prod.mk.injEq] at heq
  exact ⟨e, he, heq.2.1, heq.2.2⟩

theorem hasEntry_posted (s : State) (g : Target) (cmd : CmdKind) : hasEntry s g cmd =
    match findNode s.nodes g with
    | some i => s.link.posted.any fun e => e.1 == i && e.2.1 == cmd
    | none => false := by
  unfold hasEntry FieldLink.posted
  cases findNode s.nodes g with
  | none => rfl
  | some i =>
    dsimp only
    rw [List.any_map]
    rfl

theorem Closed.hasEntry (h : Closed s t) (g : Target) (cmd : CmdKind) : hasEntry t g cmd = Machine.hasEntry s g cmd := by
  rw [hasEntry_posted, hasEntry_posted, h.posted, h.moves.nodes_eq id]

/-- R31 to R37: a valid answer, taken: its block has had it, and the transaction is closed. -/
theorem report_taken {report : List Byte} (h : ValidAnswer s x i n report r) :
    ∃ t, Takes (.fieldReportReceived report) s t ∧
      Closed (handed i n x r ((readState n.kind r.state).getD .none) (startEvent s)) t := by
  refine ⟨_, takes_valid h, ?_⟩
  rw [takeValid_eq]
  refine ⟨replied_valid .., ?_⟩
  unfold nextChosen
  rw [chooseTransaction_posted, countTransaction_posted, forwardReply_posted, noteMore_posted]

/-! ## The node's entry -/

theorem Table.put_put {α : Type} (x : Table α) (k : Nat) (a b : α) : (x.put k a).put k b = x.put k b := by
  induction x with
  | nil => simp [Table.put]
  | cons p x ih =>
    obtain ⟨j, c⟩ := p
    by_cases h : k < j
    · simp [Table.put, h]
    · by_cases h' : k = j
      · simp [Table.put, h']
      · simp [Table.put, h, h', ih]

/-- The nodes are found by their targets alone. -/
theorem findNode_put_congr {a b : Node} (h : a.binding = b.binding) (x : Table Node) (k : Nat) (g : Target) :
    findNode (x.put k a) g = findNode (x.put k b) g := by
  unfold findNode
  induction x with
  | nil => simp [Table.put, h, List.find?_cons]; split <;> rfl
  | cons p x ih =>
    obtain ⟨j, c⟩ := p
    unfold Table.put
    split
    · simp only [List.find?_cons, h]
      split <;> rfl
    · split
      · simp only [List.find?_cons, h]
        split <;> rfl
      · simp only [List.find?_cons]
        split
        · rfl
        · exact ih

/-- The node table once node i has answered, where y is its entry. -/
def Entered (i : Nat) (n y : Node) (s t : State) : Prop := t.nodes = s.nodes.put i y ∧ y.binding = n.binding

theorem Entered.node (h : Entered i n y s t) : t.node? i = some y := by
  unfold State.node?
  rw [h.1]
  exact Table.get?_put_same ..

theorem Entered.found (h : Entered i n y s t) (g : Target) :
    findNode t.nodes g = findNode (s.nodes.put i n) g := by
  rw [h.1]
  exact findNode_put_congr h.2 ..

theorem Entered.isSome (h : Entered i n y s t) (hg : n.binding.target = g) : (findNode t.nodes g).isSome = true := by
  have mem : (i, y) ∈ t.nodes := Table.mem_of_get? h.node
  unfold findNode
  rw [Option.isSome_map, List.find?_isSome]
  exact ⟨(i, y), mem, by rw [h.2, hg]; simp⟩

/-- The node a report came from, ONLINE. -/
def Node.online (n : Node) (s : State) (x : Transaction) : Node := n.answered (answeredRate s x n)

theorem handState_entered (i : Nat) (n : Node) (x : Transaction) (ns : NodeState) (s : State) :
    Entered i n (n.online s x) s (handState i n x.code ns (onlined i n x s)) := by
  refine ⟨?_, rfl⟩
  rw [(handState_onlined i n x ns s).nodes, onlined_nodes]
  show (putNode i _ (endDelivery true (idled s))).nodes = _
  show ((endDelivery true (idled s)).nodes.put i _) = _
  have e : (endDelivery true (idled s)).nodes = s.nodes := by
    unfold endDelivery
    split <;> rfl
  rw [e]
  rfl

theorem modifyNode_entered {f : Node → Node} (h : Entered i n y s v) (hf : (f y).binding = y.binding) :
    Entered i n (f y) s (modifyNode i f v) := by
  rw [modifyNode_eq h.node]
  refine ⟨?_, hf.trans h.2⟩
  show (v.nodes.put i (f y)) = _
  rw [h.1, Table.put_put]

theorem modifyNode_frame (i : Nat) (f : Node → Node) (s : State) :
    modifyNode i f s = s.withNodes (modifyNode i f s).nodes := by
  unfold modifyNode
  split <;> rfl

/-- The state in which the items of a report are handed to the block: its state fields taken, the node's entry set. -/
structure Ready (i : Nat) (n : Node) (x : Transaction) (ns : NodeState) (s v : State) : Prop where
  frame : v = (handState i n x.code ns (onlined i n x s)).withNodes v.nodes
  entered : ∃ y, Entered i n y s v

/-- R33: a batch not had before goes to the block. -/
theorem handed_batch {es : List FieldEvent} (ns : NodeState) (h : NewBatch n r es) (s : State) :
    ∃ v, Ready i n x ns s v ∧ handed i n x r ns s = es.foldl (fun s e => handEvent n.binding.target e s) v := by
  have entered := handState_entered i n x ns s
  generalize hv : handState i n x.code ns (onlined i n x s) = v at entered
  refine ⟨modifyNode i (fun n => { n with accepted := some (r.number % 16) }) v,
    ⟨by rw [hv]; exact modifyNode_frame .., _, modifyNode_entered entered rfl⟩, ?_⟩
  obtain ⟨hitems, hcase⟩ := h
  unfold handed takeItems
  rw [hv, entered.node, hitems]
  dsimp only
  rcases hcase with ⟨hfresh, hassembly, hwants, hnew⟩ | ⟨hfresh, hsnap⟩
  · rw [hfresh, if_neg Bool.false_ne_true]
    unfold takeBatch
    have none : (n.online s x).assembly = none := hassembly
    have wants : (n.online s x).wantsSnapshot = false := hwants
    have new : (n.online s x).accepted ≠ some (r.number % 16) := hnew
    rw [none, wants, if_neg new]
    rfl
  · rw [if_pos hfresh]
    rfl

/-- R35, R36: a completed snapshot goes to the block. -/
theorem handed_snapshot {es : List SnapEntry} (ns : NodeState) (h : WholeSnapshot n r es) (s : State) :
    ∃ v, Ready i n x ns s v ∧ handed i n x r ns s = handSnapshot n.binding.target es v := by
  have entered := handState_entered i n x ns s
  generalize hv : handState i n x.code ns (onlined i n x s) = v at entered
  have set : ∀ a k, Ready i n x ns s (setAssembly i a k v) := fun a k =>
    ⟨by rw [hv]; exact modifyNode_frame .., _, modifyNode_entered entered rfl⟩
  refine ⟨setAssembly i none (some (r.number % 16)) v, set _ _, ?_⟩
  obtain ⟨hlast, seg, held, hitems, hes, hcase⟩ := h
  unfold handed takeItems
  rw [hv, entered.node, hitems]
  dsimp only
  unfold takeSegment
  rcases hcase with ⟨h0, hheld⟩ | ⟨h0, a, ha, hexpected, hheld⟩
  · rw [if_pos h0]
    unfold addSegment
    rw [hlast, hes, hheld, h0]
    rfl
  · have ha' : (n.online s x).assembly = some a := ha
    rw [if_neg h0, ha']
    dsimp only
    rw [if_pos hexpected]
    unfold addSegment
    rw [hlast, hes, hheld]
    rfl

/-- A kind that no event and no snapshot is handed to: its items touch the node table alone. -/
theorem handed_deaf (ns : NodeState) (he : ∀ e v, handEvent n.binding.target e v = v)
    (hs : ∀ es v, handSnapshot n.binding.target es v = v) (s : State) :
    Ready i n x ns s (handed i n x r ns s) := by
  have entered := handState_entered i n x ns s
  unfold handed
  generalize hv : handState i n x.code ns (onlined i n x s) = v at entered
  have still : Ready i n x ns s v := ⟨by rw [hv]; rfl, _, entered⟩
  have set : ∀ a k, Ready i n x ns s (setAssembly i a k v) := fun a k =>
    ⟨by rw [hv]; exact modifyNode_frame .., _, modifyNode_entered entered rfl⟩
  have accept : ∀ k es, Ready i n x ns s (acceptBatch i (n.online s x) k es v) := fun k es => by
    have e : ∀ w, es.foldl (fun s e => handEvent n.binding.target e s) w = w := by
      induction es with
      | nil => exact fun _ => rfl
      | cons e es ih =>
        intro w
        rw [List.foldl_cons, he]
        exact ih w
    have e' : acceptBatch i (n.online s x) k es v = modifyNode i (fun n => { n with accepted := some k }) v := e _
    rw [e']
    exact ⟨by rw [hv]; exact modifyNode_frame .., _, modifyNode_entered entered rfl⟩
  have add : ∀ held k last seg, Ready i n x ns s (addSegment i (n.online s x) held k last seg v) := fun held k last seg => by
    unfold addSegment
    dsimp only
    split
    · rw [show (n.online s x).binding.target = n.binding.target from rfl, hs]
      exact set _ _
    · exact set _ _
  unfold takeItems
  rw [entered.node]
  dsimp only
  split
  · unfold takeSegment
    split
    · exact add _ _ _ _
    · split
      · exact set _ _
      · split
        · exact add _ _ _ _
        · split
          · exact still
          · exact set _ _
  · split
    · exact accept _ _
    · unfold takeBatch
      split
      · exact set _ _
      · split
        · exact still
        · split
          · exact still
          · exact accept _ _

end Sys2Proof.Machine
end

section
/-! The report of a FIRE node, its record's part (R112 to R119): what each step of it makes of the zone's record. -/

namespace Sys2Proof.Machine

variable {s t u v w : State} {z y : Fin 8} {f g : ZoneFire} {a b : Head} {h : Hold} {valve : Valve} {code : Nat}

/-! ## What is taken over as reported -/

/-- The heads, the hold switch and the valve of zone z stand so after a step, and the other zones stand as before. -/
structure Switched (z : Fin 8) (a b : Head) (h : Hold) (v : Valve) (s t : State) : Prop where
  headA : (t.zoneFire z).headA = a
  headB : (t.zoneFire z).headB = b
  hold : (t.zoneFire z).hold = h
  valve : (t.zoneFire z).valve = v
  others : ∀ y, y ≠ z → t.zoneFire y = s.zoneFire y

/-- The switches of a zone's record, as a step that takes none over leaves them. -/
def SwitchesKept (z : Fin 8) (s t : State) : Prop :=
  Switched z (s.zoneFire z).headA (s.zoneFire z).headB (s.zoneFire z).hold (s.zoneFire z).valve s t

theorem SwitchesKept.refl : SwitchesKept z s s := ⟨rfl, rfl, rfl, rfl, fun _ _ => rfl⟩

theorem Switched.kept (g : Switched z a b h valve s t) (k : SwitchesKept z t u) : Switched z a b h valve s u :=
  ⟨k.headA.trans g.headA, k.headB.trans g.headB, k.hold.trans g.hold, k.valve.trans g.valve,
    fun y hy => (k.others y hy).trans (g.others y hy)⟩

theorem SwitchesKept.of_fire (e : t.fire = s.fire) : SwitchesKept z s t := by
  have zone := zoneFire_congr e
  exact ⟨by rw [zone], by rw [zone], by rw [zone], by rw [zone], fun y _ => zone y⟩

theorem putFire_switched (f : ZoneFire) : Switched z f.headA f.headB f.hold f.valve s (putFire z f s) := by
  have zone : (putFire z f s).zoneFire z = f := putFire_zoneFire_same ..
  exact ⟨by rw [zone], by rw [zone], by rw [zone], by rw [zone], fun y hy => putFire_zoneFire_other hy ..⟩

theorem changeFire_switched (f : ZoneFire) : Switched z f.headA f.headB f.hold f.valve s (changeFire z f s) := by
  have zone : (changeFire z f s).zoneFire z = f := changeFire_state ..
  exact ⟨by rw [zone], by rw [zone], by rw [zone], by rw [zone], fun y hy => changeFire_other hy ..⟩

theorem confirm_switched (f : ZoneFire) : Switched z f.headA f.headB f.hold f.valve s (confirm z f s) := by
  have zone := confirm_zoneFire z f s
  exact ⟨by rw [zone]; rfl, by rw [zone]; rfl, by rw [zone]; rfl, by rw [zone]; rfl, fun y hy => confirm_other hy f s⟩

theorem countdownTest_kept (z : Fin 8) (s : State) : SwitchesKept z s (countdownTest z s) := by
  unfold countdownTest
  dsimp only
  split
  · exact changeFire_switched { s.zoneFire z with
      state := .countdown, countdownTimer := some (s.param .countdownTime * 1000) }
  · exact .refl

theorem confirmAndCount_switched (f : ZoneFire) :
    Switched z f.headA f.headB f.hold f.valve s (confirmAndCount z f s) :=
  (confirm_switched f).kept (countdownTest_kept z _)

theorem takeHeads_switched (z : Fin 8) (a b : Head) (s : State) :
    Switched z a b (s.zoneFire z).hold (s.zoneFire z).valve s (takeHeads z a b s) := by
  have confirmed := fun d => confirmAndCount_switched (z := z) (s := s)
    { s.zoneFire z with headA := a, headB := b, drill := d }
  have put := fun d => putFire_switched (z := z) (s := s) { s.zoneFire z with headA := a, headB := b, drill := d }
  have changed := fun st timer => changeFire_switched (z := z) (s := s)
    { s.zoneFire z with headA := a, headB := b, state := st, alertTimer := timer }
  unfold takeHeads
  dsimp only
  split
  · split
    · exact confirmed false
    · exact put false
  · split
    · split
      · split
        · exact confirmed _
        · exact changed .alert _
      · exact put _
    · split
      · exact confirmed _
      · split
        · exact changed .normal _
        · exact put _
    all_goals exact put _

theorem takeHold_switched (z : Fin 8) (h : Hold) (s : State) :
    Switched z (s.zoneFire z).headA (s.zoneFire z).headB h (s.zoneFire z).valve s (takeHold z h s) := by
  have put := putFire_switched (z := z) (s := s) { s.zoneFire z with hold := h }
  have changed := fun st timer => changeFire_switched (z := z) (s := s)
    { s.zoneFire z with hold := h, state := st, countdownTimer := timer }
  unfold takeHold
  dsimp only
  split
  · next e => exact e ▸ SwitchesKept.refl
  · split
    · exact put.kept (countdownTest_kept z _)
    · split
      · exact changed .paused _
      · exact put
    · split
      · exact changed .countdown _
      · exact put
    all_goals exact put

theorem setZoneFire_same (z : Fin 8) (f : ZoneFire) (s : State) : (setZoneFire z f s).zoneFire z = f := by
  simp [State.zoneFire, setZoneFire]

theorem setZoneFire_other (hy : y ≠ z) (f : ZoneFire) (s : State) : (setZoneFire z f s).zoneFire y = s.zoneFire y := by
  have hv : z.val ≠ y.val := fun e => hy (Fin.ext e.symm)
  simp [State.zoneFire, setZoneFire, hv]

theorem quarantine_fire (z : Fin 8) (s : State) : (quarantine z s).fire = s.fire := by
  have m : Moves { Allow.all with fire := False } s (quarantine z s) := by
    apply quarantine_moves z .refl <;> trivial
  exact m.fire_eq id

theorem releaseAgain_frame (z : Fin 8) (v : Valve) (code : Nat) (s : State) :
    Moves .linkOnly s (releaseAgain z v code s) := releaseAgain_moves z v code .refl trivial

/-- R127: a zone not in fire is confirmed before its discharge. -/
def confirmedFirst (z : Fin 8) (s : State) : State :=
  match (s.zoneFire z).state with
  | .normal | .alert => confirm z (s.zoneFire z) s
  | .confirmed | .countdown | .paused | .releasing | .discharged => s

/-- R119: the record of a zone at its discharge. -/
def ZoneFire.discharged (f : ZoneFire) : ZoneFire :=
  { f with state := .discharged, countdownTimer := none, drill := false }

theorem discharge_eq (z : Fin 8) (s : State) : discharge z s =
    if ((confirmedFirst z s).zoneFire z).state = .discharged ∧ ¬((confirmedFirst z s).zoneFire z).drill then
      changeFire z ((confirmedFirst z s).zoneFire z).discharged (confirmedFirst z s)
    else quarantine z (changeFire z ((confirmedFirst z s).zoneFire z).discharged (confirmedFirst z s)) := rfl

theorem discharge_kept (z : Fin 8) (s : State) : SwitchesKept z s (discharge z s) := by
  have first : SwitchesKept z s (confirmedFirst z s) := by
    unfold confirmedFirst
    split
    · exact confirm_switched _
    · exact confirm_switched _
    all_goals exact .refl
  have changed : SwitchesKept z (confirmedFirst z s)
      (changeFire z ((confirmedFirst z s).zoneFire z).discharged (confirmedFirst z s)) :=
    changeFire_switched ((confirmedFirst z s).zoneFire z).discharged
  rw [discharge_eq]
  split
  · exact first.kept changed
  · exact (first.kept changed).kept (.of_fire (quarantine_fire z _))

theorem takeValve_switched (z : Fin 8) (v : Valve) (code : Nat) (s : State) :
    Switched z (s.zoneFire z).headA (s.zoneFire z).headB (s.zoneFire z).hold v s (takeValve z v code s) := by
  have set : Switched z (s.zoneFire z).headA (s.zoneFire z).headB (s.zoneFire z).hold v s
      (setZoneFire z { s.zoneFire z with valve := v } s) := by
    have zone := setZoneFire_same z { s.zoneFire z with valve := v } s
    exact ⟨by rw [zone], by rw [zone], by rw [zone], by rw [zone], fun y hy => setZoneFire_other hy ..⟩
  unfold takeValve
  dsimp only
  split
  · exact set.kept (discharge_kept z _)
  · exact set.kept (.of_fire ((releaseAgain_frame z v code _).fire_eq id))

/-- R112: heads, hold switch and valve are held as reported. -/
theorem takeFire_switched (z : Fin 8) (a b : Head) (h : Hold) (v : Valve) (code : Nat) (s : State) :
    Switched z a b h v s (takeFire z a b h v code s) := by
  have heads := takeHeads_switched z a b s
  have hold := takeHold_switched z h (takeHeads z a b s)
  have valve := takeValve_switched z v code (takeHold z h (takeHeads z a b s))
  exact ⟨valve.headA.trans (hold.headA.trans heads.headA), valve.headB.trans (hold.headB.trans heads.headB),
    valve.hold.trans hold.hold, valve.valve,
    fun y hy => (valve.others y hy).trans ((hold.others y hy).trans (heads.others y hy))⟩

/-! ## The heads -/

/-- A head of the report has passed to ALARM (R114). -/
def Passed (f : ZoneFire) (a b : Head) : Prop := (a = .alarm ∧ f.headA ≠ .alarm) ∨ (b = .alarm ∧ f.headB ≠ .alarm)

theorem passedToAlarm_iff (old new : Head) : passedToAlarm old new = true ↔ new = .alarm ∧ old ≠ .alarm := by
  unfold passedToAlarm
  rw [Bool.and_eq_true, isAlarm_iff, Bool.not_eq_true', ← Bool.not_eq_true, isAlarm_iff]

theorem passed_iff (f : ZoneFire) (a b : Head) :
    (passedToAlarm f.headA a || passedToAlarm f.headB b) = true ↔ Passed f a b := by
  rw [Bool.or_eq_true, passedToAlarm_iff, passedToAlarm_iff]
  rfl

/-- A zone's record with the heads of a report. -/
def ZoneFire.heads (f : ZoneFire) (a b : Head) : ZoneFire := { f with headA := a, headB := b }

theorem takeHeads_undrilled (hd : (s.zoneFire z).drill = false) : takeHeads z a b s =
    match (s.zoneFire z).state with
    | .normal =>
      if passedToAlarm (s.zoneFire z).headA a || passedToAlarm (s.zoneFire z).headB b then
        if a.isAlarm ∧ b.isAlarm then confirmAndCount z ((s.zoneFire z).heads a b) s
        else changeFire z { (s.zoneFire z).heads a b with
          state := .alert, alertTimer := some (s.param .alertTime * 1000) } s
      else putFire z ((s.zoneFire z).heads a b) s
    | .alert =>
      if passedToAlarm (s.zoneFire z).headA a || passedToAlarm (s.zoneFire z).headB b then
        confirmAndCount z ((s.zoneFire z).heads a b) s
      else if ¬ a.isAlarm ∧ ¬ b.isAlarm then
        changeFire z { (s.zoneFire z).heads a b with state := .normal, alertTimer := none } s
      else putFire z ((s.zoneFire z).heads a b) s
    | .confirmed | .countdown | .paused | .releasing | .discharged => putFire z ((s.zoneFire z).heads a b) s := by
  unfold takeHeads
  dsimp only
  rw [if_neg (fun k => by rw [hd] at k; exact absurd k.2 Bool.false_ne_true)]
  rfl

/-- R114: a first head in ALARM brings ALERT. -/
theorem takeHeads_alert (hd : (s.zoneFire z).drill = false) (hn : (s.zoneFire z).state = .normal)
    (hp : Passed (s.zoneFire z) a b) (hb : ¬(a = .alarm ∧ b = .alarm)) : takeHeads z a b s =
      changeFire z { (s.zoneFire z).heads a b with state := .alert, alertTimer := some (s.param .alertTime * 1000) } s := by
  rw [takeHeads_undrilled hd, hn]
  dsimp only
  rw [if_pos ((passed_iff ..).mpr hp), if_neg (fun k => hb ⟨(isAlarm_iff a).mp k.1, (isAlarm_iff b).mp k.2⟩)]

/-- R114: the second head in ALARM, or both at once, bring a confirmation. -/
theorem takeHeads_confirms (hd : (s.zoneFire z).drill = false) (hp : Passed (s.zoneFire z) a b)
    (hc : (s.zoneFire z).state = .alert ∨ ((s.zoneFire z).state = .normal ∧ a = .alarm ∧ b = .alarm)) :
    takeHeads z a b s = confirmAndCount z ((s.zoneFire z).heads a b) s := by
  rw [takeHeads_undrilled hd]
  rcases hc with hc | ⟨hn, ha, hb⟩
  · rw [hc]
    dsimp only
    rw [if_pos ((passed_iff ..).mpr hp)]
  · rw [hn]
    dsimp only
    rw [if_pos ((passed_iff ..).mpr hp), if_pos ⟨(isAlarm_iff a).mpr ha, (isAlarm_iff b).mpr hb⟩]

/-- R114: with no head in ALARM an ALERT is over. -/
theorem takeHeads_clears (hs : (s.zoneFire z).state = .alert) (ha : a ≠ .alarm) (hb : b ≠ .alarm) :
    takeHeads z a b s = changeFire z { (s.zoneFire z).heads a b with state := .normal, alertTimer := none } s := by
  have unpassed : ¬(passedToAlarm (s.zoneFire z).headA a || passedToAlarm (s.zoneFire z).headB b) = true := fun k =>
    ((passed_iff ..).mp k).elim (fun k => ha k.1) (fun k => hb k.1)
  unfold takeHeads
  dsimp only
  rw [if_neg (fun k => unpassed k.1), hs]
  dsimp only
  rw [if_neg unpassed, if_pos ⟨mt (isAlarm_iff a).mp ha, mt (isAlarm_iff b).mp hb⟩]
  rfl

/-- In fire and before the discharge the heads are taken over, and end a drill at most (R121). -/
theorem takeHeads_inFire (hs : (s.zoneFire z).state.inFire = true) (hd : (s.zoneFire z).state ≠ .discharged) :
    ∃ d, takeHeads z a b s = putFire z { (s.zoneFire z).heads a b with drill := d } s := by
  by_cases hp : (passedToAlarm (s.zoneFire z).headA a || passedToAlarm (s.zoneFire z).headB b) = true ∧
      (s.zoneFire z).drill = true
  · refine ⟨false, ?_⟩
    unfold takeHeads
    dsimp only
    rw [if_pos hp, if_neg hd]
    rfl
  · refine ⟨(s.zoneFire z).drill, ?_⟩
    unfold takeHeads
    dsimp only
    rw [if_neg hp]
    split
    · next e => rw [e] at hs; cases hs
    · next e => rw [e] at hs; cases hs
    all_goals rfl

/-! ## The hold switch -/

theorem takeHold_same (hh : h = (s.zoneFire z).hold) : takeHold z h s = s := if_pos hh

/-- In a state that the hold switch says nothing to it is taken over. -/
theorem takeHold_plain (hs : (s.zoneFire z).state = .normal ∨ (s.zoneFire z).state = .alert ∨
    (s.zoneFire z).state = .releasing ∨ (s.zoneFire z).state = .discharged) :
    (takeHold z h s).zoneFire z = { s.zoneFire z with hold := h } := by
  by_cases hh : h = (s.zoneFire z).hold
  · rw [takeHold_same hh, hh]
  · unfold takeHold
    dsimp only
    rw [if_neg hh]
    rcases hs with hs | hs | hs | hs
    all_goals
      rw [hs]
      exact putFire_zoneFire_same ..

/-- R117: HELD pauses the countdown. -/
theorem takeHold_pauses (hs : (s.zoneFire z).state = .countdown) (hold : (s.zoneFire z).hold = .released) :
    takeHold z .held s = changeFire z { s.zoneFire z with hold := .held, state := .paused, countdownTimer := none } s := by
  unfold takeHold
  dsimp only
  rw [hold, if_neg nofun, hs]
  rfl

/-- R117: RELEASED starts the countdown afresh. -/
theorem takeHold_resumes (hs : (s.zoneFire z).state = .paused) (hold : (s.zoneFire z).hold = .held) :
    takeHold z .released s = changeFire z { s.zoneFire z with
      hold := .released, state := .countdown, countdownTimer := some (s.param .countdownTime * 1000) } s := by
  unfold takeHold
  dsimp only
  rw [hold, if_neg nofun, hs]
  rfl

/-! ## The valve -/

/-- R119: the report shows a discharge. -/
def Discharges (f : ZoneFire) (v : Valve) : Prop := v = .discharged ∧ (f.state = .releasing ∨ f.valve ≠ .discharged)

/-- A valve that shows no discharge is taken over. -/
theorem takeValve_quiet (hd : ¬Discharges (s.zoneFire z) valve) : takeValve z valve code s =
    releaseAgain z valve code (setZoneFire z { s.zoneFire z with valve := valve } s) := if_neg hd

theorem takeValve_zone (hd : ¬Discharges (s.zoneFire z) valve) :
    (takeValve z valve code s).zoneFire z = { s.zoneFire z with valve := valve } := by
  rw [takeValve_quiet hd, zoneFire_congr ((releaseAgain_frame z valve code _).fire_eq id), setZoneFire_same]

/-! ## RELEASE -/

theorem postCommand_hasEntry {g : Target} (hg : (findNode s.nodes g).isSome = true) (cmd : CmdKind) (data : List Byte) :
    hasEntry (postCommand g cmd data s) g cmd = true := by
  obtain ⟨i, hi⟩ := Option.isSome_iff_exists.mp hg
  have e : postCommand g cmd data s = postTo i cmd data s := by
    unfold postCommand
    rw [hi]
  obtain ⟨q, hq, hnode, hcmd, -⟩ := postTo_entry i cmd data s
  rw [e]
  unfold hasEntry
  rw [show (postTo i cmd data s).nodes = s.nodes from rfl, hi]
  exact List.any_eq_true.mpr ⟨q, hq, by rw [hnode, hcmd]; simp⟩

/-- R118: RELEASE waits for the FIRE node of a RELEASING zone whose valve is CLOSED. -/
theorem releaseAgain_hasEntry (hs : (s.zoneFire z).state = .releasing) (hv : valve = .closed) (hc : code ≠ 0x47)
    (hg : (findNode s.nodes (.fire z)).isSome = true) : hasEntry (releaseAgain z valve code s) (.fire z) .release = true := by
  unfold releaseAgain
  split
  · exact postCommand_hasEntry hg ..
  · next hn =>
    by_contra hb
    exact hn ⟨hs, hv, hc, by simpa using hb⟩

/-! ## The whole report -/

/-- R114: a first head in ALARM, and no discharge. -/
theorem takeFire_alert (hd : (s.zoneFire z).drill = false) (hn : (s.zoneFire z).state = .normal)
    (hp : Passed (s.zoneFire z) a b) (hb : ¬(a = .alarm ∧ b = .alarm)) (hv : ¬Discharges (s.zoneFire z) valve) :
    (takeFire z a b h valve code s).zoneFire z = { s.zoneFire z with
      state := .alert, headA := a, headB := b, hold := h, valve := valve, alertTimer := some (s.param .alertTime * 1000) } := by
  have heads := congrArg (fun t => t.zoneFire z) (takeHeads_alert hd hn hp hb)
  rw [changeFire_state] at heads
  have hold := takeHold_plain (h := h) (s := takeHeads z a b s) (.inr (.inl (by rw [heads])))
  rw [heads] at hold
  unfold takeFire
  rw [takeValve_zone, hold]
  · rfl
  · rw [hold]
    exact fun k => hv ⟨k.1, k.2.imp nofun id⟩

/-- R114: no head in ALARM, and no discharge. -/
theorem takeFire_clears (hs : (s.zoneFire z).state = .alert) (ha : a ≠ .alarm) (hb : b ≠ .alarm)
    (hv : ¬Discharges (s.zoneFire z) valve) : ((takeFire z a b h valve code s).zoneFire z).state = .normal := by
  have heads := congrArg (fun t => t.zoneFire z) (takeHeads_clears hs ha hb)
  rw [changeFire_state] at heads
  have hold := takeHold_plain (h := h) (s := takeHeads z a b s) (.inl (by rw [heads]))
  rw [heads] at hold
  unfold takeFire
  rw [takeValve_zone, hold]
  rw [hold]
  exact fun k => hv ⟨k.1, k.2.imp nofun id⟩

/-- R117: a countdown held, and no discharge. -/
theorem takeFire_pauses (hs : (s.zoneFire z).state = .countdown) (hold : (s.zoneFire z).hold = .released)
    (hv : ¬Discharges (s.zoneFire z) valve) :
    ((takeFire z a b .held valve code s).zoneFire z).state = .paused ∧
      ((takeFire z a b .held valve code s).zoneFire z).countdownTimer = none := by
  obtain ⟨d, e⟩ := takeHeads_inFire (z := z) (a := a) (b := b) (s := s) (by rw [hs]; rfl) (by rw [hs]; exact nofun)
  have heads := congrArg (fun t => t.zoneFire z) e
  rw [putFire_zoneFire_same] at heads
  have paused := congrArg (fun t => t.zoneFire z) (takeHold_pauses (s := takeHeads z a b s) (z := z)
    (by rw [heads]; exact hs) (by rw [heads]; exact hold))
  rw [changeFire_state, heads] at paused
  unfold takeFire
  rw [takeValve_zone, paused]
  · exact ⟨rfl, rfl⟩
  · rw [paused]
    exact fun k => hv ⟨k.1, k.2.imp nofun id⟩

/-- R117: a paused countdown released, and no discharge. -/
theorem takeFire_resumes (hs : (s.zoneFire z).state = .paused) (hold : (s.zoneFire z).hold = .held)
    (hv : ¬Discharges (s.zoneFire z) valve) :
    ((takeFire z a b .released valve code s).zoneFire z).state = .countdown ∧
      ((takeFire z a b .released valve code s).zoneFire z).countdownTimer = some (s.param .countdownTime * 1000) := by
  obtain ⟨d, e⟩ := takeHeads_inFire (z := z) (a := a) (b := b) (s := s) (by rw [hs]; rfl) (by rw [hs]; exact nofun)
  have heads := congrArg (fun t => t.zoneFire z) e
  rw [putFire_zoneFire_same] at heads
  have param : (takeHeads z a b s).param .countdownTime = s.param .countdownTime := by
    rw [e, putFire_frame]
    rfl
  have resumed := congrArg (fun t => t.zoneFire z) (takeHold_resumes (s := takeHeads z a b s) (z := z)
    (by rw [heads]; exact hs) (by rw [heads]; exact hold))
  rw [changeFire_state, heads, param] at resumed
  unfold takeFire
  rw [takeValve_zone, resumed]
  · exact ⟨rfl, rfl⟩
  · rw [resumed]
    exact fun k => hv ⟨k.1, k.2.imp nofun id⟩

/-- R118: a RELEASING zone whose valve is CLOSED. -/
theorem takeFire_releases (hs : (s.zoneFire z).state = .releasing) (hv : valve = .closed) (hc : code ≠ 0x47)
    (hg : (findNode s.nodes (.fire z)).isSome = true) :
    hasEntry (takeFire z a b h valve code s) (.fire z) .release = true := by
  obtain ⟨d, e⟩ := takeHeads_inFire (z := z) (a := a) (b := b) (s := s) (by rw [hs]; rfl) (by rw [hs]; exact nofun)
  have heads := congrArg (fun t => t.zoneFire z) e
  rw [putFire_zoneFire_same] at heads
  have hold := takeHold_plain (h := h) (s := takeHeads z a b s) (z := z) (.inr (.inr (.inl (by rw [heads]; exact hs))))
  rw [heads] at hold
  have nodes : (takeHold z h (takeHeads z a b s)).nodes = s.nodes := by
    have m : Moves { Allow.all with nodes := False } s (takeHold z h (takeHeads z a b s)) := by
      apply takeHold_moves z h (takeHeads_moves z a b .refl trivial trivial trivial trivial trivial trivial trivial trivial trivial trivial trivial trivial) <;> trivial
    exact m.nodes_eq id
  unfold takeFire
  rw [takeValve_quiet (fun k => by rw [hv] at k; cases k.1)]
  refine releaseAgain_hasEntry ?_ hv hc ?_
  · rw [setZoneFire_same, hold]
    exact hs
  · show (findNode (takeHold z h (takeHeads z a b s)).nodes _).isSome = true
    rw [nodes]
    exact hg

end Sys2Proof.Machine
end

section
/-! What a discharge leaves of the records (R119, R129): the records of the zone BLOCKED where they are. -/

namespace Sys2Proof.Machine

variable {s t u v : State} {i j k : Nat} {z : Fin 8} {r q : Record} {new : ZoneFire} {h : Hold} {valve : Valve} {code : Nat}
  {a b : Head}

/-! ## A record that bides in its place -/

/-- A record in its place, BLOCKED as before, or not BLOCKED unless a courier has it. -/
structure Record.Bides (r q : Record) : Prop where
  place : q.location = r.location
  blocked : r.state.isBlocked = true → q.state = r.state
  sound : r.state.isBlocked = false → (∀ c, r.location ≠ .courier c) → q.state.isBlocked = false

theorem Record.Bides.refl (r : Record) : r.Bides r := ⟨rfl, fun _ => rfl, fun h _ => h⟩

theorem Record.Bides.trans {p : Record} (h : r.Bides q) (g : q.Bides p) : r.Bides p where
  place := g.place.trans h.place
  blocked hb := by
    have e := h.blocked hb
    rw [← e] at hb
    exact (g.blocked hb).trans e
  sound hb hl := g.sound (h.sound hb hl) (by rw [h.place]; exact hl)

theorem Record.Bides.blockedFor {b : Reason} (h : r.Bides q) (hl : ∀ c, r.location ≠ .courier c) :
    (if q.state.isBlocked then q.state else .blocked b) = (if r.state.isBlocked then r.state else .blocked b) := by
  cases hb : r.state.isBlocked with
  | true => rw [h.blocked hb, hb]
  | false =>
    rw [h.sound hb hl]
    rfl

/-- A step that leaves every record biding. -/
def Biding (s t : State) : Prop := ∀ j r, s.record? j = some r → ∃ q, t.record? j = some q ∧ r.Bides q

theorem Biding.refl : Biding s s := fun _ r hr => ⟨r, hr, .refl r⟩

theorem Biding.trans (h : Biding s t) (g : Biding t u) : Biding s u := fun j r hr => by
  obtain ⟨q, hq, hrq⟩ := h j r hr
  obtain ⟨p, hp, hqp⟩ := g j q hq
  exact ⟨p, hp, hrq.trans hqp⟩

theorem Biding.of_custody (h : t.custody = s.custody) : Biding s t := fun j r hr => ⟨r, (record?_congr h j).trans hr, .refl r⟩

theorem Biding.foldl {α : Type} {f : State → α → State} (l : List α) (hf : ∀ a u, Biding u (f u a)) :
    ∀ s, Biding s (l.foldl f s) := by
  induction l with
  | nil => exact fun _ => .refl
  | cons a l ih => exact fun s => (hf a s).trans (ih (f s a))

theorem releasedState_blocked {state : CState} (h : state.isBlocked = true) (place : Location) (home : Nat) :
    releasedState state place home = state := by
  fun_cases releasedState state place home
  all_goals first | rfl | cases h

theorem releasedState_sound {state : CState} {place : Location} (h : state.isBlocked = false)
    (hl : ∀ c, place ≠ .courier c) (home : Nat) : (releasedState state place home).isBlocked = false := by
  fun_cases releasedState state place home
  case case9 c => exact absurd rfl (hl c)
  all_goals first | rfl | exact h

theorem Released.bides (h : Released r q) : r.Bides q where
  place := h.place
  blocked hb := by rw [h.state, releasedState_blocked hb]
  sound hb hl := by rw [h.state]; exact releasedState_sound hb hl _

theorem finishOrder_biding (k : Nat) (outcome : OOutcome) (s : State) : Biding s (finishOrder k outcome s) := by
  cases ho : s.order? k with
  | none =>
    unfold finishOrder
    rw [ho]
    exact .refl
  | some o =>
    cases hf : o.state.isFinished with
    | true =>
      unfold finishOrder
      rw [ho]
      dsimp only
      rw [hf]
      exact .refl
    | false =>
      obtain ⟨-, -, listed, others⟩ := finishOrder_spec outcome ho hf
      intro i r hr
      by_cases hi : i ∈ o.unhanded
      · obtain ⟨y, hy, released⟩ := listed i hi r hr
        exact ⟨y, hy, released.bides⟩
      · exact ⟨r, (others i hi).trans hr, .refl r⟩

/-- R79: told of a BLOCKED record, the Order Queue at most finishes its order. -/
theorem orderTold_blocked_biding (who : Claimant) (hr : s.record? i = some r) (hb : r.state.isBlocked = true) :
    Biding s (orderTold who i s) := by
  unfold orderTold
  rw [hr]
  dsimp only
  split
  · exact .refl
  · split
    · exact .refl
    · split
      · exact .refl
      · split
        case h_7 => exact finishOrder_biding _ _ s
        all_goals next e => rw [e] at hb; cases hb

/-- R72: told of a READY record, the Order Queue at most evaluates its order. -/
theorem orderTold_ready_biding (who : Claimant) (hr : s.record? i = some r) {d : Direction} (hs : r.state = .ready d) :
    Biding s (orderTold who i s) := by
  unfold orderTold
  rw [hr]
  dsimp only
  split
  · exact .refl
  · split
    · exact .refl
    · have evaluated : ∀ k, Moves { Allow.all with custody := False } s (evaluateOrder k s) := fun k => by
        apply evaluateOrder_moves k .refl <;> trivial
      split
      · exact .refl
      · rw [hs]
        cases d with
        | outbound => exact .of_custody ((evaluated _).custody_eq id)
        | returning => exact .refl

/-- A change of one record in its place. -/
theorem changeRecord_bides {new : Record} (who : Claimant) (quiet : Bool) (hr : s.record? i = some r)
    (hl : new.location = r.location) (told : ∀ v, v.record? i = some (normalise new) → Biding v (orderTold who i v)) :
    (∀ j, j ≠ i → ∀ p, s.record? j = some p → ∃ q, (changeRecord who quiet i new s).record? j = some q ∧ p.Bides q) ∧
      ∃ q, (changeRecord who quiet i new s).record? i = some q ∧ (normalise new).Bides q := by
  have changed := basicChange_record hr quiet new
  have ordered : Biding (basicChange quiet i new s) (if new.state ≠ r.state then orderTold who i (basicChange quiet i new s)
      else basicChange quiet i new s) := by
    split
    · exact told _ changed
    · exact .refl
  rw [changeRecord_eq hr]
  generalize (if new.state ≠ r.state then orderTold who i (basicChange quiet i new s)
      else basicChange quiet i new s) = w at ordered
  obtain ⟨q, hq, bides⟩ := ordered i _ changed
  have still := (tellOthers_still (old := r) who hq (.inl (bides.place.trans hl))).moves.custody_eq id
  refine ⟨fun j hj p hp => ?_, q, (record?_congr still i).trans hq, bides⟩
  obtain ⟨q', hq', bides'⟩ := ordered j p (((basicChange_atRecord ..).others j hj).trans hp)
  exact ⟨q', (record?_congr still j).trans hq', bides'⟩

/-! ## The rack and the hatch told -/

theorem completeDwell_biding (p : Fin 12) (s : State) : Biding s (completeDwell p s) := by
  unfold completeDwell
  dsimp only
  split
  · next i left _ _ =>
    have placed : Biding s (setPosition p { s.position p with dwell := none, paused := false } s) := .of_custody rfl
    split
    · exact placed
    · next r hr =>
      split
      · split
        · next d hd =>
          obtain ⟨others, q, hq, bides⟩ := changeRecord_bides (new := { r with state := .ready d, exposed := false })
            .rack false hr rfl fun v hv => orderTold_ready_biding .rack hv rfl
          refine placed.trans (Biding.trans (fun j p hp => ?_) (.of_custody (s := changeRecord .rack false i
            { r with state := .ready d, exposed := false } _) rfl))
          by_cases hj : j = i
          · subst hj
            cases hr.symm.trans hp
            exact ⟨q, hq, ⟨bides.place, fun hb => (by rw [hd] at hb; cases hb), fun _ hl => bides.sound rfl hl⟩⟩
          · exact others j hj p hp
        all_goals exact placed
      · exact placed
  · exact .refl

theorem pausePosition_biding (paused : Bool) (p : Fin 12) (s : State) : Biding s (pausePosition paused p s) := by
  have placed : ∀ x, Biding s (setPosition p x s) := fun x => .of_custody rfl
  unfold pausePosition
  dsimp only
  split
  · exact .refl
  · split
    · exact .of_custody rfl
    · split
      · exact (placed _).trans (completeDwell_biding p _)
      · exact .of_custody rfl

theorem updateRackPause_biding (s : State) : Biding s (updateRackPause s) := by
  have flagged : ∀ b, Biding s (s.withRack { s.rack with paused := b }) := fun b => .of_custody rfl
  unfold updateRackPause
  dsimp only
  split
  · exact .refl
  · exact (flagged _).trans (.foldl _ (fun p u => pausePosition_biding _ p u) _)

theorem updateLocks_custody (s : State) : (updateLocks s).custody = s.custody := by
  obtain ⟨q, e⟩ := updateLocks_frame s
  rw [e]
  rfl

/-- Told of a zone in fire, the Hatch Arbiter grants nothing. -/
theorem hatchFireTold_custody (hf : (s.zoneFire z).state.inFire = true) : (hatchFireTold z s).custody = s.custody := by
  have stopped : Moves .stopping s (stopRun s) := by
    apply stopRun_moves .refl <;> trivial
  unfold hatchFireTold
  by_cases hz : z = s.hatchZone
  · rw [if_pos hz, if_pos hf]
    split
    · exact updateLocks_custody s
    · dsimp only
      rw [updateLocks_custody]
      split
      · exact stopped.custody_eq id
      · rfl
  · rw [if_neg hz]
    exact updateLocks_custody s

/-- A zone that stays in fire: its change of state leaves every record biding. -/
theorem changeFire_biding (hn : new.state.inFire = true) (s : State) : Biding s (changeFire z new s) := by
  have put : Biding s (putFire z new s) := .of_custody (by rw [putFire_frame])
  have zone : (putFire z new s).zoneFire z = new := putFire_zoneFire_same ..
  unfold changeFire
  dsimp only
  split
  · exact put
  · refine put.trans ?_
    generalize putFire z new s = p at zone
    unfold tellFire
    have climated : Moves .controlling p (climateFireTold z (s.zoneFire z).state (p.zoneFire z).state p) := by
      apply climateFireTold_moves z _ _ .refl <;> trivial
    generalize climateFireTold z (s.zoneFire z).state (p.zoneFire z).state p = w at climated
    refine (Biding.of_custody (climated.custody_eq id)).trans ((updateRackPause_biding w).trans (.of_custody ?_))
    refine hatchFireTold_custody ?_
    rw [zoneFire_congr (((updateRackPause_pausing w).fire_eq id).trans (climated.fire_eq id)), zone]
    exact hn

/-! ## Quarantine -/

/-- R129: one record of the zone, BLOCKED where it is. -/
def quarantineOne (s : State) (i : Nat) : State :=
  match s.record? i with
  | some r => changeRecord .fire true i (r.blockedAt .fire r.location) s
  | none => s

theorem blockedAt_isBlocked (r : Record) (reason : Reason) (place : Location) :
    (r.blockedAt reason place).state.isBlocked = true := by
  unfold Record.blockedAt
  dsimp only
  split
  · next hb => exact hb
  · rfl

theorem quarantineOne_spec (hr : s.record? i = some r) :
    (∀ j, j ≠ i → ∀ p, s.record? j = some p → ∃ q, (quarantineOne s i).record? j = some q ∧ p.Bides q) ∧
      RecordIs (quarantineOne s i) i (if r.state.isBlocked then r.state else .blocked .fire) r.location := by
  have e : quarantineOne s i = changeRecord .fire true i (r.blockedAt .fire r.location) s := by
    unfold quarantineOne
    rw [hr]
  have blocked : (normalise (r.blockedAt .fire r.location)).state.isBlocked = true := blockedAt_isBlocked r .fire r.location
  obtain ⟨others, q, hq, bides⟩ := changeRecord_bides (new := r.blockedAt .fire r.location) .fire true hr rfl
    fun v hv => orderTold_blocked_biding .fire hv blocked
  rw [e]
  exact ⟨others, q, hq, bides.blocked blocked, bides.place⟩

theorem quarantineAll_spec (is : List Nat) : ∀ (s : State) (j : Nat) (r : Record), s.record? j = some r →
    (∀ c, r.location ≠ .courier c) → r.state.isBlocked = true ∨ j ∈ is →
    RecordIs (is.foldl quarantineOne s) j (if r.state.isBlocked then r.state else .blocked .fire) r.location := by
  induction is with
  | nil =>
    intro s j r hr _ hj
    have hb := hj.resolve_right List.not_mem_nil
    exact ⟨r, hr, (if_pos hb).symm, rfl⟩
  | cons i is ih =>
    intro s j r hr hl hj
    rw [List.foldl_cons]
    by_cases hi : j = i
    · subst hi
      obtain ⟨-, q, hq, hs, hplace⟩ := quarantineOne_spec hr
      have blocked : q.state.isBlocked = true := by
        rw [hs]
        exact blockedAt_isBlocked r .fire r.location
      have rest := ih _ j q hq (by rw [hplace]; exact hl) (.inl blocked)
      rw [if_pos blocked, hs, hplace] at rest
      exact rest
    · have step : ∃ q, (quarantineOne s i).record? j = some q ∧ r.Bides q := by
        cases hp : s.record? i with
        | none =>
          unfold quarantineOne
          rw [hp]
          exact ⟨r, hr, .refl r⟩
        | some p => exact (quarantineOne_spec hp).1 j hi r hr
      obtain ⟨q, hq, bides⟩ := step
      have same : (if q.state.isBlocked then q.state else .blocked .fire) =
          (if r.state.isBlocked then r.state else .blocked .fire) := bides.blockedFor hl
      have rest := ih _ j q hq (by rw [bides.place]; exact hl)
        (hj.imp (fun hb => by rw [bides.blocked hb]; exact hb) fun hm => (List.mem_cons.mp hm).resolve_left hi)
      rw [same, bides.place] at rest
      exact rest

theorem quarantine_record? (z : Fin 8) (s : State) (j : Nat) : (quarantine z s).record? j =
    ((recordsWhere s fun r => zoneOfLocation s r.location == some z && !r.state.isBlocked).foldl quarantineOne s).record? j := by
  unfold quarantine
  dsimp only
  split <;> rfl

/-- R129: the records of the zone, BLOCKED where they are. -/
theorem quarantine_spec (hs : TablesOk s) (hr : s.record? j = some r) (hz : zoneOfLocation s r.location = some z) :
    RecordIs (quarantine z s) j (if r.state.isBlocked then r.state else .blocked .fire) r.location := by
  have hit : r.state.isBlocked = true ∨
      j ∈ recordsWhere s fun r => zoneOfLocation s r.location == some z && !r.state.isBlocked := by
    cases hb : r.state.isBlocked with
    | true => exact .inl rfl
    | false => exact .inr ((hs.mem_recordsWhere _).mpr ⟨r, hr, by rw [hz, hb]; simp⟩)
  obtain ⟨q, hq, h⟩ := quarantineAll_spec _ s j r hr (fun c hc => by rw [hc] at hz; cases hz) hit
  exact ⟨q, (quarantine_record? z s j).trans hq, h⟩

/-! ## A discharge in fire -/

/-- A zone in fire that has not been discharged. -/
def Burning (f : ZoneFire) : Prop := f.state.inFire = true ∧ f.state ≠ .discharged

/-- The hold switch of a burning zone leaves it burning, and every record biding. -/
theorem takeHold_burning (hb : Burning (s.zoneFire z)) :
    Burning ((takeHold z h s).zoneFire z) ∧ Biding s (takeHold z h s) := by
  have put : ∀ g : ZoneFire, Burning g → Burning ((putFire z g s).zoneFire z) ∧ Biding s (putFire z g s) := fun g hg =>
    ⟨by rw [putFire_zoneFire_same]; exact hg, .of_custody (by rw [putFire_frame])⟩
  have changed : ∀ (g : ZoneFire) (v : State), Burning g →
      Burning ((changeFire z g v).zoneFire z) ∧ Biding v (changeFire z g v) := fun g v hg =>
    ⟨by rw [changeFire_state]; exact hg, changeFire_biding hg.1 v⟩
  have kept : Burning { s.zoneFire z with hold := h } := hb
  unfold takeHold
  dsimp only
  split
  · exact ⟨hb, .refl⟩
  · split
    · obtain ⟨burning, biding⟩ := put _ kept
      unfold countdownTest
      dsimp only
      split
      · obtain ⟨burning', biding'⟩ := changed { (putFire z { s.zoneFire z with hold := h } s).zoneFire z with
          state := .countdown,
          countdownTimer := some ((putFire z { s.zoneFire z with hold := h } s).param .countdownTime * 1000) } _ ⟨rfl, nofun⟩
        exact ⟨burning', biding.trans biding'⟩
      · exact ⟨burning, biding⟩
    · split
      · exact changed _ s ⟨rfl, nofun⟩
      · exact put _ kept
    · split
      · exact changed _ s ⟨rfl, nofun⟩
      · exact put _ kept
    all_goals exact put _ kept

/-- R119, R129: a discharge of a burning zone. -/
theorem discharge_burning (hb : Burning (s.zoneFire z)) :
    (discharge z s).zoneFire z = (s.zoneFire z).discharged ∧
      (TablesOk s → ∀ j q, s.record? j = some q → zoneOfLocation s q.location = some z →
        RecordIs (discharge z s) j (if q.state.isBlocked then q.state else .blocked .fire) q.location) := by
  have first : confirmedFirst z s = s := by
    obtain ⟨hf, -⟩ := hb
    unfold confirmedFirst
    split
    · next e => rw [e] at hf; cases hf
    · next e => rw [e] at hf; cases hf
    all_goals rfl
  have e : discharge z s = quarantine z (changeFire z (s.zoneFire z).discharged s) := by
    rw [discharge_eq, first, if_neg (fun k => hb.2 k.1)]
  have biding := changeFire_biding (z := z) (new := (s.zoneFire z).discharged) rfl s
  have settings : (changeFire z (s.zoneFire z).discharged s).settings = s.settings := (changeFire_keepsLayout ..).1
  have moves : Moves .inLayout s (changeFire z (s.zoneFire z).discharged s) := by
    apply changeFire_moves z _ .refl <;> trivial
  have zone : (changeFire z (s.zoneFire z).discharged s).zoneFire z = _ := changeFire_state ..
  rw [e]
  generalize changeFire z (s.zoneFire z).discharged s = w at biding settings moves zone
  refine ⟨(zoneFire_congr (quarantine_fire z w) z).trans zone, fun hs j q hq hz => ?_⟩
  obtain ⟨p, hp, bides⟩ := biding j q hq
  have place : ∀ c, q.location ≠ .courier c := fun c hc => by rw [hc] at hz; cases hz
  have blocked := quarantine_spec (z := z) (moves.tablesOk hs) hp (by rw [bides.place, zoneOfLocation_congr settings]; exact hz)
  have same : (if p.state.isBlocked then p.state else .blocked .fire) =
      (if q.state.isBlocked then q.state else .blocked .fire) := bides.blockedFor place
  rw [same, bides.place] at blocked
  exact blocked

/-- R119, R129: a report that shows the discharge of a burning zone. -/
theorem takeFire_discharges (hb : Burning (s.zoneFire z)) (hv : Discharges (s.zoneFire z) valve) :
    ((takeFire z a b h valve code s).zoneFire z).state = .discharged ∧
      ((takeFire z a b h valve code s).zoneFire z).drill = false ∧
      (TablesOk s → ∀ j q, s.record? j = some q → zoneOfLocation s q.location = some z →
        RecordIs (takeFire z a b h valve code s) j (if q.state.isBlocked then q.state else .blocked .fire) q.location) := by
  obtain ⟨d, e⟩ := takeHeads_inFire (a := a) (b := b) hb.1 hb.2
  have heads : (takeHeads z a b s).zoneFire z = { (s.zoneFire z).heads a b with drill := d } := by
    rw [e, putFire_zoneFire_same]
  have headsBiding : Biding s (takeHeads z a b s) := .of_custody (by rw [e, putFire_frame])
  have moves : Moves .inLayout s (takeHold z h (takeHeads z a b s)) := by
    apply takeHold_moves z h (takeHeads_moves z a b .refl trivial trivial trivial trivial trivial trivial trivial trivial
      trivial trivial trivial trivial) <;> trivial
  have headsBurning : Burning ((takeHeads z a b s).zoneFire z) := by rw [heads]; exact hb
  have plain := fun hs => takeHold_plain (h := h) (s := takeHeads z a b s) (z := z) (.inr (.inr (.inl hs)))
  have switched := takeHold_switched z h (takeHeads z a b s)
  obtain ⟨burning, biding⟩ := takeHold_burning (h := h) headsBurning
  have shown : Discharges ((takeHold z h (takeHeads z a b s)).zoneFire z) valve := by
    obtain ⟨hvalve, hv⟩ := hv
    refine ⟨hvalve, hv.imp (fun hr => ?_) (fun hr => ?_)⟩
    · rw [plain (by rw [heads]; exact hr), heads]
      exact hr
    · rw [switched.valve, heads]
      exact hr
  have whole := headsBiding.trans biding
  unfold takeFire
  generalize takeHold z h (takeHeads z a b s) = w at moves burning shown whole
  have taken : takeValve z valve code w = discharge z (setZoneFire z { w.zoneFire z with valve := valve } w) := if_pos shown
  have zone := setZoneFire_same z { w.zoneFire z with valve := valve } w
  obtain ⟨record, records⟩ := discharge_burning (s := setZoneFire z { w.zoneFire z with valve := valve } w) (z := z)
    (by rw [zone]; exact burning)
  rw [taken, record]
  refine ⟨rfl, rfl, fun hs j q hq hz => ?_⟩
  obtain ⟨p, hp, bides⟩ := whole j q hq
  have place : ∀ c, q.location ≠ .courier c := fun c hc => by rw [hc] at hz; cases hz
  have blocked := records (moves.tablesOk hs) j p hp (by
    rw [bides.place]
    exact (zoneOfLocation_congr (moves.settings_eq id) _).trans hz)
  have same : (if p.state.isBlocked then p.state else .blocked .fire) =
      (if q.state.isBlocked then q.state else .blocked .fire) := bides.blockedFor place
  rw [same, bides.place] at blocked
  exact blocked

end Sys2Proof.Machine
end

section
/-! The fire timers, and the report of a FIRE node as a whole (R112 to R119, R125, R129). -/

namespace Sys2Proof.Machine

variable {s t u v w : State} {z y : Fin 8} {f : ZoneFire} {i : Nat} {n : Node} {x : Transaction} {r : Report}

/-! ## The timers -/

theorem countdownExpired_drilled (hs : (s.zoneFire z).state = .countdown) (ht : (s.zoneFire z).countdownTimer.isSome = true)
    (hd : (s.zoneFire z).drill = true) : countdownExpired z s =
      changeFire z { s.zoneFire z with state := .discharged, countdownTimer := none } s := by
  unfold countdownExpired
  dsimp only
  rw [if_pos ⟨hs, ht⟩, if_pos hd]

theorem countdownExpired_undrilled (hs : (s.zoneFire z).state = .countdown)
    (ht : (s.zoneFire z).countdownTimer.isSome = true) (hd : (s.zoneFire z).drill = false) : countdownExpired z s =
      postRelease z (changeFire z { s.zoneFire z with state := .releasing, countdownTimer := none } s) := by
  unfold countdownExpired
  dsimp only
  rw [if_pos ⟨hs, ht⟩, hd, if_neg Bool.false_ne_true]

/-- R117, R118: what the end of a countdown leaves. -/
structure CountedDown (z : Fin 8) (s t : State) : Prop where
  zone : t.zoneFire z = { s.zoneFire z with
    state := (if (s.zoneFire z).drill then .discharged else .releasing), countdownTimer := none }
  queued : (s.zoneFire z).drill = false → (findNode s.nodes (.fire z)).isSome = true →
    hasEntry t (.fire z) .release = true
  others : ∀ y, y ≠ z → t.zoneFire y = s.zoneFire y
  keeps : KeepsLayout s t

theorem countdownExpired_countedDown (hs : (s.zoneFire z).state = .countdown)
    (ht : (s.zoneFire z).countdownTimer.isSome = true) : CountedDown z s (countdownExpired z s) := by
  cases hd : (s.zoneFire z).drill with
  | true =>
    rw [countdownExpired_drilled hs ht hd]
    exact ⟨by rw [changeFire_state, hd]; rfl, fun h => absurd (hd.symm.trans h) nofun, fun y hy => changeFire_other hy ..,
      changeFire_keepsLayout ..⟩
  | false =>
    rw [countdownExpired_undrilled hs ht hd]
    have zone := changeFire_state z { s.zoneFire z with state := .releasing, countdownTimer := none } s
    have others := fun y (hy : y ≠ z) => changeFire_other hy { s.zoneFire z with state := .releasing, countdownTimer := none } s
    have keeps := changeFire_keepsLayout z { s.zoneFire z with state := .releasing, countdownTimer := none } s
    generalize changeFire z { s.zoneFire z with state := .releasing, countdownTimer := none } s = w at zone others keeps
    have posted : Moves .linkOnly w (postRelease z w) := postRelease_moves z .refl trivial
    have fire : ∀ y, (postRelease z w).zoneFire y = w.zoneFire y := zoneFire_congr (posted.fire_eq id)
    refine ⟨by rw [fire, zone, hd]; rfl, fun _ hg => postCommand_hasEntry ?_ .release [],
      fun y hy => (fire y).trans (others y hy), keeps.trans (posted.keepsLayout id id id id)⟩
    rw [keeps.2.1]
    exact hg

/-! ## A confirmation seen from another state -/

/-- R127 speaks of the layout, the hatch, the contexts, the orders and the records before the confirmation alone. -/
theorem Confirmed.before (h : Confirmed u t z) (hs : u.settings = s.settings) (hh : u.hatch = s.hatch)
    (hc : u.handover.contexts = s.handover.contexts) (ho : u.orders = s.orders) (hu : u.custody = s.custody) :
    Confirmed s t z := by
  obtain ⟨lock, exit, notice, rack, hatch, climate, contexts, orders⟩ := h
  rw [rackZone_congr hs] at rack
  rw [hatchZone_congr hs, hh] at hatch
  refine ⟨lock, exit, notice, rack, hatch, climate, fun c x hx => ?_, fun k o i r hk hf hi hr hz => ?_⟩
  · have given := contexts c x ((liveContext?_congr hc c.val).trans hx)
    rw [hatchZone_congr hs] at given
    exact given
  · obtain ⟨y, hy, finished, deadline, alone⟩ := orders k o i r ((order?_congr ho k).trans hk) hf hi
      ((record?_congr hu i).trans hr) ((zoneOfSlot_congr hs _).trans hz)
    exact ⟨y, hy, finished, deadline, fun hnone => alone fun c => (liveContext?_congr hc c.val).trans (hnone c)⟩

/-- A step that leaves what R127 speaks of, and of the zone's record what ZONE_FIRE shows. -/
structure Unmoved (z : Fin 8) (t w : State) : Prop where
  contexts : w.handover.contexts = t.handover.contexts
  orders : w.orders = t.orders
  custody : w.custody = t.custody
  hatch : w.hatch = t.hatch
  rack : w.rack = t.rack
  climate : w.climate = t.climate
  notices : w.notices = t.notices
  shown : zoneFireNotice w z = zoneFireNotice t z
  state : (w.zoneFire z).state = (t.zoneFire z).state
  acknowledged : (w.zoneFire z).acknowledged = (t.zoneFire z).acknowledged

theorem Unmoved.trans (h : Unmoved z t u) (g : Unmoved z u w) : Unmoved z t w :=
  ⟨g.contexts.trans h.contexts, g.orders.trans h.orders, g.custody.trans h.custody, g.hatch.trans h.hatch,
    g.rack.trans h.rack, g.climate.trans h.climate, g.notices.trans h.notices, g.shown.trans h.shown,
    g.state.trans h.state, g.acknowledged.trans h.acknowledged⟩

/-- The blocks that the end of a report's transaction touches. -/
theorem Unmoved.of_moves (m : Moves .replying t w) : Unmoved z t w := by
  have zone := zoneFire_congr (m.fire_eq id) z
  exact ⟨m.contexts_eq id, m.orders_eq id, m.custody_eq id, m.hatch_eq id, m.rack_eq id, m.climate_eq id,
    m.notices_eq id, zoneFireNotice_congr zone, by rw [zone], by rw [zone]⟩

theorem unmoved_valve (z : Fin 8) (valve : Valve) (t : State) :
    Unmoved z t (setZoneFire z { t.zoneFire z with valve := valve } t) := by
  have zone := setZoneFire_same z { t.zoneFire z with valve := valve } t
  exact ⟨rfl, rfl, rfl, rfl, rfl, rfl, rfl, by unfold zoneFireNotice shownHead; rw [zone], by rw [zone], by rw [zone]⟩

theorem Unmoved.confirmed (h : Unmoved z t w) (hf : (t.zoneFire z).state.inFire = true)
    (ha : (t.zoneFire z).acknowledged = false) (g : Confirmed s t z) : Confirmed s w z := by
  obtain ⟨-, exit, notice, rack, hatch, climate, contexts, orders⟩ := g
  refine ⟨lockout_of (by rw [h.state]; exact hf) (h.acknowledged.trans ha), by rw [h.hatch]; exact exit,
    by rw [h.notices, h.shown]; exact notice, by rw [h.rack]; exact rack, by rw [h.hatch]; exact hatch, ?_,
    fun c x hx => ?_, fun k o i r hk hf hi hr hz => ?_⟩
  · rw [h.state]
    have same : w.zoneClimate z = t.zoneClimate z := by simp only [State.zoneClimate, h.climate]
    rw [same]
    exact climate
  · rw [context?_congr h.contexts]
    exact contexts c x hx
  · rw [order?_congr h.orders]
    exact orders k o i r hk hf hi hr hz

/-- R114, R115: the report that brings a confirmation, its hold switch as before and no discharge shown. -/
theorem takeFire_confirms {a b : Head} {valve : Valve} {code : Nat} (hd : (s.zoneFire z).drill = false)
    (hp : Passed (s.zoneFire z) a b)
    (hc : (s.zoneFire z).state = .alert ∨ ((s.zoneFire z).state = .normal ∧ a = .alarm ∧ b = .alarm))
    (hv : ¬Discharges (s.zoneFire z) valve) :
    ((takeFire z a b (s.zoneFire z).hold valve code s).zoneFire z).state =
        afterCountdownTest s z (s.zoneFire z).hold ∧
      ((takeFire z a b (s.zoneFire z).hold valve code s).zoneFire z).acknowledged = false ∧
      Confirmed s (takeFire z a b (s.zoneFire z).hold valve code s) z := by
  have counted : Counted z ((s.zoneFire z).heads a b) s (takeHeads z a b s) := by
    rw [takeHeads_confirms hd hp hc]
    exact confirmAndCount_counted _ (by rcases hc with hc | ⟨hc, -⟩ <;> rw [hc] <;> exact nofun)
  have still : takeHold z (s.zoneFire z).hold (takeHeads z a b s) = takeHeads z a b s :=
    takeHold_same (takeHeads_switched z a b s).hold.symm
  have valved := (takeHeads_switched z a b s).valve
  unfold takeFire
  rw [still]
  generalize takeHeads z a b s = w at counted valved
  have state : (w.zoneFire z).state = afterCountdownTest s z (s.zoneFire z).hold := counted.state
  have fire : (w.zoneFire z).state = .countdown ∨ (w.zoneFire z).state = .confirmed := by
    rw [state]
    unfold afterCountdownTest
    split
    · exact .inl rfl
    · exact .inr rfl
  have acknowledged : (w.zoneFire z).acknowledged = false := by rw [counted.record]; rfl
  have quiet : ¬Discharges (w.zoneFire z) valve := by
    rintro ⟨hvalve, hr | hne⟩
    · rcases fire with e | e <;> rw [e] at hr <;> cases hr
    · exact hv ⟨hvalve, .inr (by rwa [valved] at hne)⟩
  have unmoved : Unmoved z w (takeValve z valve code w) := by
    rw [takeValve_quiet quiet]
    exact (unmoved_valve z valve w).trans (.of_moves (releaseAgain_moves z valve code .refl trivial))
  refine ⟨unmoved.state.trans state, unmoved.acknowledged.trans acknowledged,
    unmoved.confirmed (by rcases fire with e | e <;> rw [e] <;> rfl) acknowledged counted.confirmed⟩

/-! ## A FIRE node's answer -/

/-- What the answer of a FIRE node leaves before its state fields are taken: of the zone's record at most the
equipment-lost flag has changed (R113). -/
structure FireOnlined (z : Fin 8) (s u : State) : Prop where
  moves : Moves { Allow.onlining with fire := True } s u
  zone : ∃ lost, u.zoneFire z = { s.zoneFire z with equipmentLost := lost }
  others : ∀ y, y ≠ z → u.zoneFire y = s.zoneFire y

theorem onlined_fire (hg : n.binding.target = .fire z) (s : State) : FireOnlined z s (onlined i n x s) := by
  have moved : Moves { Allow.onlining with fire := True } s (entered i (n.answered (answeredRate s x n)) true s) :=
    putNode_moves i _ (endDelivery_moves true (idled_moves trivial) trivial) trivial
  have left : ∀ v, FireOnlined z s v → FireOnlined z s (leaveStartup i v) := fun v h => by
    obtain ⟨m, ⟨lost, zone⟩, others⟩ := h
    have fire : (leaveStartup i v).fire = v.fire := by
      have m : Moves { Allow.all with fire := False } v (leaveStartup i v) := leaveStartup_moves i .refl trivial
      exact m.fire_eq id
    exact ⟨leaveStartup_moves i m trivial, ⟨lost, (zoneFire_congr fire z).trans zone⟩,
      fun y hy => (zoneFire_congr fire y).trans (others y hy)⟩
  have fire : (entered i (n.answered (answeredRate s x n)) true s).fire = s.fire := by
    have m : Moves { Allow.onlining with fire := False } s (entered i (n.answered (answeredRate s x n)) true s) :=
      putNode_moves i _ (endDelivery_moves true (idled_moves trivial) trivial) trivial
    exact m.fire_eq id
  refine left _ ?_
  have node := entered_node i (n.answered (answeredRate s x n)) true s
  generalize entered i (n.answered (answeredRate s x n)) true s = v at moved fire node
  by_cases hb : (n.answered (answeredRate s x n)).health = n.health
  · rw [healthChanged_same node hb]
    exact ⟨moved, ⟨(s.zoneFire z).equipmentLost, zoneFire_congr fire z⟩, fun y _ => zoneFire_congr fire y⟩
  · have online : (n.answered (answeredRate s x n)).health ≠ .offline := by exact nofun
    have target : (n.answered (answeredRate s x n)).binding.target = .fire z := hg
    have posted : postHealth i v = v.withNotices (postHealth i v).notices := by
      unfold postHealth
      rw [node]
      rfl
    have e : healthTold (n.answered (answeredRate s x n)) (postHealth i v) = setEquipmentLost z
        ((n.answered (answeredRate s x n)).health == .offline) (postHealth i v) := by
      unfold healthTold
      rw [target]
    rw [healthChanged_other node hb, if_neg online, e]
    have m : Moves { Allow.onlining with fire := True } s (postHealth i v) := by
      unfold postHealth
      rw [node]
      exact .post _ trivial moved
    have same : (postHealth i v).fire = s.fire := by
      rw [posted]
      exact fire
    generalize postHealth i v = p at m same
    refine ⟨putFire_moves z _ m trivial trivial, ⟨(n.answered (answeredRate s x n)).health == .offline, ?_⟩, fun y hy => ?_⟩
    · unfold setEquipmentLost
      rw [putFire_zoneFire_same, zoneFire_congr same]
    · exact (putFire_zoneFire_other hy ..).trans (zoneFire_congr same y)

/-- R112: the answer of a FIRE node: its state fields taken, and nothing else of the zones touched. -/
theorem fireAnswer_taken {report : List Byte} {a b : Head} {h : Hold} {valve : Valve} (hv : ValidAnswer s x i n report r)
    (hg : n.binding.target = .fire z) (hr : readState .fire r.state = some (.fire a b h valve)) :
    ∃ u t, Takes (.fieldReportReceived report) s t ∧ FireOnlined z (startEvent s) u ∧
      Unmoved z (takeFire z a b h valve x.code u) t ∧ t.fire = (takeFire z a b h valve x.code u).fire ∧
      (findNode u.nodes (.fire z)).isSome = true ∧
      ∀ cmd, hasEntry t (.fire z) cmd = hasEntry (takeFire z a b h valve x.code u) (.fire z) cmd := by
  obtain ⟨t, takes, closed⟩ := report_taken hv
  have kind : n.kind = .fire := by
    unfold Node.kind
    rw [hg]
    rfl
  have state : (readState n.kind r.state).getD .none = .fire a b h valve := by rw [kind, hr]; rfl
  have ready := handed_deaf (i := i) (n := n) (x := x) (r := r) (.fire a b h valve)
    (fun e v => by rw [hg]; cases e <;> rfl) (fun es v => by rw [hg]; rfl) (startEvent s)
  have before := handState_entered i n x (.fire a b h valve) (startEvent s)
  have taken : handState i n x.code (.fire a b h valve) (onlined i n x (startEvent s)) =
      takeFire z a b h valve x.code (onlined i n x (startEvent s)) := by
    unfold handState
    rw [hg]
  rw [state] at closed
  have nodes : (takeFire z a b h valve x.code (onlined i n x (startEvent s))).nodes = (onlined i n x (startEvent s)).nodes := by
    rw [← taken]
    exact (handState_onlined i n x _ (startEvent s)).nodes
  have online := onlined_fire (i := i) (x := x) hg (startEvent s)
  obtain ⟨frame, y, after⟩ := ready
  rw [taken] at before frame
  generalize handed i n x r (.fire a b h valve) (startEvent s) = w at closed frame after
  have found : findNode (w.nodes) (.fire z) = findNode (takeFire z a b h valve x.code (onlined i n x (startEvent s))).nodes (.fire z) :=
    (after.found _).trans (before.found _).symm
  have moved : Unmoved z (takeFire z a b h valve x.code (onlined i n x (startEvent s))) w := by
    rw [frame]
    exact ⟨rfl, rfl, rfl, rfl, rfl, rfl, rfl, rfl, rfl, rfl⟩
  have fire : w.fire = (takeFire z a b h valve x.code (onlined i n x (startEvent s))).fire := by
    rw [frame]
    rfl
  refine ⟨_, t, takes, online, moved.trans (.of_moves closed.moves), (closed.moves.fire_eq id).trans fire, ?_, fun cmd => ?_⟩
  · rw [← nodes]
    exact before.isSome hg
  · rw [closed.hasEntry]
    unfold hasEntry
    rw [found, frame]
    rfl

end Sys2Proof.Machine

namespace Sys2Proof

open Machine

/-- Settles O40, timer by timer, and for the report of a FIRE node by the state its zone is in. -/
theorem fireTimersExpire : Obligations.FireTimersExpire := by
  intro s z hup f
  refine ⟨fun hs ht => ?_, fun hs ht => ?_, fun ht => ?_, fun x i n report r a b h v hvalid hg hr => ?_⟩
  · have counted := confirmAndCount_counted (z := z) (s := startEvent s) f (show f.state ≠ .confirmed by rw [hs]; exact nofun)
    have keeps := (startEvent_keepsLayout s).trans (confirmAndCount_keepsLayout z f (startEvent s))
    have takes : Takes (.alertTimerExpiry z) s (confirmAndCount z f (startEvent s)) :=
      takes_event (f := alertExpired z) hup (alertExpired_confirms (s := startEvent s) hs ht)
    generalize confirmAndCount z f (startEvent s) = t at counted keeps takes
    have record := counted.record
    exact ⟨t, takes, counted.state, by rw [record]; rfl, by rw [record]; rfl, by rw [record]; rfl, counted.confirmed,
      counted.others, keeps⟩
  · have counted := countdownExpired_countedDown (s := startEvent s) (z := z) hs ht
    exact ⟨_, takes_event (f := countdownExpired z) hup rfl, counted.zone, counted.queued, counted.others,
      (startEvent_keepsLayout s).trans counted.keeps⟩
  · obtain ⟨left, hleft⟩ := Option.isSome_iff_exists.mp ht
    have e : ackExpired z (startEvent s) = putFire z { f with ackTimer := none, ackExpired := true } (startEvent s) := by
      unfold ackExpired
      dsimp only
      rw [show ((startEvent s).zoneFire z).ackTimer = some left from hleft]
      rfl
    exact ⟨_, takes_event (f := ackExpired z) hup e, putFire_zoneFire_same .., fun _ => putFire_alarmRight ..,
      fun y hy => putFire_zoneFire_other hy .., putFire_frame ..⟩
  · obtain ⟨u, t, takes, online, unmoved, fire, found, entry⟩ := fireAnswer_taken hvalid hg hr
    obtain ⟨onlining, ⟨lost, zone⟩, others⟩ := online
    have same : ∀ y, t.zoneFire y = (takeFire z a b h v x.code u).zoneFire y := zoneFire_congr fire
    have param : ∀ p, u.param p = s.param p := param_congr (s := startEvent s) (onlining.settings_eq id)
    have switched := takeFire_switched z a b h v x.code u
    have record : u.zoneFire z = { f with equipmentLost := lost } := zone
    refine ⟨t, takes, by rw [same]; exact switched.headA, by rw [same]; exact switched.headB,
      by rw [same]; exact switched.hold, by rw [same]; exact switched.valve,
      fun y hy => (same y).trans ((switched.others y hy).trans (others y hy)), fun hd hn hp hb hv => ?_,
      fun hd hp hv hh hc => ?_, fun hs ha hb hv => ?_, fun hs hold hh hv => ?_, fun hs hold hh hv => ?_,
      fun hf hne hv htables => ?_, fun hs hv hc => ?_⟩
    · rw [same, takeFire_alert (by rw [record]; exact hd) (by rw [record]; exact hn) (by rw [record]; exact hp) hb
        (by rw [record]; exact hv), param]
      exact ⟨rfl, rfl⟩
    · have hold : (u.zoneFire z).hold = h := by rw [record]; exact hh.symm
      have confirms := takeFire_confirms (s := u) (z := z) (code := x.code) (by rw [record]; exact hd)
        (by rw [record]; exact hp) (by rw [record]; exact hc) (by rw [record]; exact hv)
      rw [hold] at confirms
      obtain ⟨state, acknowledged, confirmed⟩ := confirms
      have after : afterCountdownTest u z h = afterCountdownTest s z h := by
        unfold afterCountdownTest
        rw [zone_congr (onlining.settings_eq id)]
        rfl
      have burns : ((takeFire z a b h v x.code u).zoneFire z).state.inFire = true := by
        rw [state]
        unfold afterCountdownTest
        split <;> rfl
      exact ⟨unmoved.state.trans (state.trans after), unmoved.confirmed burns acknowledged
        (confirmed.before (onlining.settings_eq id) (onlining.hatch_eq id) (onlining.contexts_eq id)
          (onlining.orders_eq id) (onlining.custody_eq id))⟩
    · rw [same]
      exact takeFire_clears (by rw [record]; exact hs) ha hb (by rw [record]; exact hv)
    · rw [same]
      subst hh
      exact takeFire_pauses (by rw [record]; exact hs) (by rw [record]; exact hold) (by rw [record]; exact hv)
    · rw [same, ← param]
      subst hh
      exact takeFire_resumes (by rw [record]; exact hs) (by rw [record]; exact hold) (by rw [record]; exact hv)
    · obtain ⟨state, drill, records⟩ := takeFire_discharges (s := u) (z := z) (a := a) (b := b) (h := h) (valve := v)
        (code := x.code) (by rw [record]; exact ⟨hf, hne⟩) (by rw [record]; exact hv)
      refine ⟨by rw [same]; exact state, by rw [same]; exact drill, fun j q hq hz => ?_⟩
      have tables : TablesOk (startEvent s) := htables
      obtain ⟨p, hp, is⟩ := records (onlining.tablesOk tables) j q ((record?_congr (onlining.custody_eq id) j).trans hq)
        ((zoneOfLocation_congr (onlining.settings_eq id) _).trans hz)
      exact ⟨p, (record?_congr unmoved.custody j).trans hp, is⟩
    · rw [entry]
      exact takeFire_releases (by rw [record]; exact hs) hv hc found

end Sys2Proof
end

section
/-! A change of one record in full (R52): what becomes of the record, and what it leaves of the others and of the rack's
positions. -/

namespace Sys2Proof.Machine

variable {s t u v : State} {i j k : Nat} {p o : Fin 12} {r q new old : Record} {who : Claimant}

/-! ## A record that stays -/

/-- A record that another one's change leaves: it lies as before, and bides. -/
structure Record.Stays (r q : Record) : Prop where
  lies : r.Lies q
  bides : r.Bides q

theorem Record.Stays.refl (r : Record) : r.Stays r := ⟨.refl r, .refl r⟩

theorem Record.Stays.trans {x : Record} (h : r.Stays q) (g : q.Stays x) : r.Stays x :=
  ⟨h.lies.trans g.lies, h.bides.trans g.bides⟩

/-- A step that leaves every record but i. -/
def Besides (i : Nat) (s t : State) : Prop :=
  ∀ j, j ≠ i → ∀ r, s.record? j = some r → ∃ q, t.record? j = some q ∧ r.Stays q

/-- A step that leaves every record. -/
def Staying (s t : State) : Prop := ∀ j r, s.record? j = some r → ∃ q, t.record? j = some q ∧ r.Stays q

theorem Staying.refl : Staying s s := fun _ r hr => ⟨r, hr, .refl r⟩

theorem Staying.trans (h : Staying s t) (g : Staying t u) : Staying s u := fun j r hr => by
  obtain ⟨q, hq, hrq⟩ := h j r hr
  obtain ⟨x, hx, hqx⟩ := g j q hq
  exact ⟨x, hx, hrq.trans hqx⟩

theorem Staying.of_custody (h : t.custody = s.custody) : Staying s t := fun j r hr => ⟨r, (record?_congr h j).trans hr, .refl r⟩

theorem Staying.besides (h : Staying s t) : Besides i s t := fun j _ => h j

theorem Besides.trans (h : Besides i s t) (g : Besides i t u) : Besides i s u := fun j hj r hr => by
  obtain ⟨q, hq, hrq⟩ := h j hj r hr
  obtain ⟨x, hx, hqx⟩ := g j hj q hq
  exact ⟨x, hx, hrq.trans hqx⟩

theorem Besides.of_same (h : ∀ j, j ≠ i → t.record? j = s.record? j) : Besides i s t := fun j hj r hr =>
  ⟨r, (h j hj).trans hr, .refl r⟩

theorem dropOrderSlot_at (hr : s.record? i = some r) :
    (dropOrderSlot i s).record? i = some { r with orderSlot := none } := by
  rw [dropOrderSlot_record hr]
  exact (record?_congr (writeRecord_custody ..) i).trans (putRecord_same ..)

theorem dropOrderSlot_biding (i : Nat) (s : State) : Biding s (dropOrderSlot i s) := fun j r hr => by
  by_cases hj : j = i
  · subst hj
    exact ⟨_, dropOrderSlot_at hr, ⟨rfl, fun _ => rfl, fun h _ => h⟩⟩
  · exact ⟨r, ((dropOrderSlot_keepsPlace i s).others j hj).trans hr, .refl r⟩

theorem putOrder_biding (k : Nat) (x : Order) (s : State) : Biding s (putOrder k x s) := .of_custody rfl

theorem postOrder_biding (k : Nat) (s : State) : Biding s (postOrder k s) := .of_custody (by rw [postOrder_frame])

theorem evaluateOrder_custody (k : Nat) (s : State) : (evaluateOrder k s).custody = s.custody := by
  have m : Moves { Allow.all with custody := False } s (evaluateOrder k s) := by
    apply evaluateOrder_moves k .refl <;> trivial
  exact m.custody_eq id

/-- Told of a change to a state but BLOCKED and OUT, the Order Queue makes no change of a record. -/
theorem orderTold_custody (who : Claimant) (hr : s.record? i = some r) (hb : r.state.isBlocked = false)
    (ho : r.state ≠ .out) : (orderTold who i s).custody = s.custody := by
  unfold orderTold
  rw [hr]
  dsimp only
  split
  · rfl
  · split
    · rfl
    · split
      · rfl
      · split
        · exact evaluateOrder_custody ..
        · exact evaluateOrder_custody ..
        · exact evaluateOrder_custody ..
        · exact evaluateOrder_custody ..
        · split
          · split
            · rw [postOrder_frame]; rfl
            · rfl
          all_goals rfl
        · next e => exact absurd e ho
        · next e => rw [e] at hb; cases hb
        all_goals rfl

/-- Told of an OUT record, the Order Queue at most drops its order slot. -/
theorem orderTold_out (who : Claimant) (hr : s.record? i = some r) (ho : r.state = .out) :
    (orderTold who i s).custody = s.custody ∨
      ∃ w, w.custody = s.custody ∧ (orderTold who i s).custody = (dropOrderSlot i w).custody := by
  unfold orderTold
  rw [hr]
  dsimp only
  split
  · exact .inl rfl
  · split
    · exact .inl rfl
    · split
      · exact .inl rfl
      · rw [ho]
        dsimp only
        unfold markHanded
        split
        · exact .inl rfl
        · exact .inr ⟨putOrder _ _ s, rfl, by rw [postOrder_frame]⟩

theorem orderTold_staying (who : Claimant) (i : Nat) (s : State) : Staying s (orderTold who i s) := by
  have lying := orderTold_lying who i s
  have biding : Biding s (orderTold who i s) := by
    cases hr : s.record? i with
    | none => unfold orderTold; rw [hr]; exact .refl
    | some r =>
      cases hb : r.state.isBlocked with
      | true => exact orderTold_blocked_biding who hr hb
      | false =>
        by_cases ho : r.state = .out
        · rcases orderTold_out who hr ho with e | ⟨w, hw, e⟩
          · exact .of_custody e
          · exact (Biding.of_custody hw).trans ((dropOrderSlot_biding i w).trans (.of_custody e))
        · exact .of_custody (orderTold_custody who hr hb ho)
  intro j r hr
  obtain ⟨q, hq, lies⟩ := lying j r hr
  obtain ⟨x, hx, bides⟩ := biding j r hr
  cases hq.symm.trans hx
  exact ⟨q, hq, lies, bides⟩

/-- What the Order Queue, told of a record's change, leaves of that record. -/
theorem orderTold_self (who : Claimant) (hr : s.record? i = some r) : ∃ q, (orderTold who i s).record? i = some q ∧
    r.Stays q ∧ q.state = r.state ∧ (r.state.isBlocked = false → q.custodian = r.custodian ∧ q.carry = r.carry) := by
  obtain ⟨q, hq, stays⟩ := orderTold_staying who i s i r hr
  refine ⟨q, hq, stays, ?_⟩
  cases hb : r.state.isBlocked with
  | true => exact ⟨stays.bides.blocked hb, nofun⟩
  | false =>
    by_cases ho : r.state = .out
    · rcases orderTold_out who hr ho with e | ⟨w, hw, e⟩
      · rw [record?_congr e, hr] at hq
        cases hq
        exact ⟨rfl, fun _ => ⟨rfl, rfl⟩⟩
      · rw [record?_congr e, dropOrderSlot_at ((record?_congr hw i).trans hr)] at hq
        cases hq
        exact ⟨rfl, fun _ => ⟨rfl, rfl⟩⟩
    · rw [record?_congr (orderTold_custody who hr hb ho), hr] at hq
      cases hq
      exact ⟨rfl, fun _ => ⟨rfl, rfl⟩⟩

/-- A record as a change makes it, but for the EXPOSED flag and the order slot. -/
structure Record.Becomes (new q : Record) : Prop where
  label : q.label = new.label
  home : q.home = new.home
  location : q.location = new.location
  state : q.state = new.state
  exposed : new.exposed = true → q.exposed = true
  custodian : new.state.isBlocked = false → q.custodian = custodianOf new
  carry : new.state.isBlocked = false → q.carry = carryOf new

/-- R52: one record changed, and the others left. -/
structure Changed (i : Nat) (new : Record) (s t : State) : Prop where
  self : ∃ q, t.record? i = some q ∧ new.Becomes q
  others : Besides i s t

theorem climateTold_at (old : Option Location) (hr : s.record? i = some r) :
    ∃ e, (climateTold i old s).record? i = some { r with exposed := e } ∧ (r.exposed = true → e = true) := by
  have same : s.record? i = some { r with exposed := r.exposed } := hr
  unfold climateTold
  rw [hr]
  dsimp only
  split
  · exact ⟨_, same, id⟩
  · split
    · split
      · exact ⟨true, expose_at i s hr, fun _ => rfl⟩
      · exact ⟨_, same, id⟩
    · exact ⟨_, same, id⟩

theorem climateTold_others (old : Option Location) (hj : j ≠ i) : (climateTold i old s).record? j = s.record? j := by
  unfold climateTold
  split
  · rfl
  · split
    · rfl
    · split
      · split
        · exact (expose_keepsPlace i s).others j hj
        · rfl
      · rfl

theorem tellOthers_at (who : Claimant) (old : Record) (hr : s.record? i = some r) :
    ∃ e, (tellOthers who i old s).record? i = some { r with exposed := e } ∧ (r.exposed = true → e = true) := by
  obtain ⟨t, e, told⟩ := tellOthers_told who i old s
  rw [e]
  exact climateTold_at _ ((record?_congr (told.moves.custody_eq id) i).trans hr)

theorem tellOthers_others (who : Claimant) (old : Record) (hj : j ≠ i) :
    (tellOthers who i old s).record? j = s.record? j := by
  obtain ⟨t, e, told⟩ := tellOthers_told who i old s
  rw [e]
  exact (climateTold_others _ hj).trans (record?_congr (told.moves.custody_eq id) j)

theorem changeRecord_changed (who : Claimant) (quiet : Bool) (hr : s.record? i = some r) (new : Record) :
    Changed i new s (changeRecord who quiet i new s) := by
  have basic := basicChange_record hr quiet new
  have basicOthers : Besides i s (basicChange quiet i new s) := .of_same (basicChange_atRecord ..).others
  rw [changeRecord_eq hr]
  have ordered : ∀ w, w = (if new.state ≠ r.state then orderTold who i (basicChange quiet i new s)
      else basicChange quiet i new s) → (∃ q, w.record? i = some q ∧ new.Becomes q) ∧ Besides i s w := fun w hw => by
    split at hw
    · obtain ⟨q, hq, stays, state, held⟩ := orderTold_self who basic
      rw [hw]
      exact ⟨⟨q, hq, stays.lies.label, stays.lies.home, stays.lies.location, state,
        fun he => stays.lies.exposed.trans he, fun hb => (held hb).1, fun hb => (held hb).2⟩,
        basicOthers.trans (orderTold_staying who i _).besides⟩
    · rw [hw]
      exact ⟨⟨_, basic, rfl, rfl, rfl, rfl, id, fun _ => rfl, fun _ => rfl⟩, basicOthers⟩
  generalize hw : (if new.state ≠ r.state then orderTold who i (basicChange quiet i new s)
      else basicChange quiet i new s) = w
  obtain ⟨⟨q, hq, becomes⟩, others⟩ := ordered w hw.symm
  obtain ⟨e, he, hexposed⟩ := tellOthers_at who r hq
  exact ⟨⟨_, he, becomes.label, becomes.home, becomes.location, becomes.state, fun h => hexposed (becomes.exposed h),
    becomes.custodian, becomes.carry⟩, others.trans (.of_same fun j hj => tellOthers_others who r hj)⟩

theorem claim_changed {expected : Record → Bool} (who : Claimant) (hr : s.record? i = some r) (he : expected r = true)
    (f : Record → Record) : Changed i (f r) s (claim who i expected f s) := by
  have e : claim who i expected f s = changeRecord who false i (f r) s := by
    unfold claim
    rw [hr]
    exact if_pos he
  rw [e]
  exact changeRecord_changed who false hr _

theorem claim_besides (who : Claimant) (i : Nat) (expected : Record → Bool) (f : Record → Record) (s : State) :
    Besides i s (claim who i expected f s) := by
  cases hr : s.record? i with
  | none =>
    unfold claim
    rw [hr]
    exact Staying.refl.besides
  | some r =>
    by_cases he : expected r = true
    · exact (claim_changed who hr he f).others
    · unfold claim
      rw [hr]
      dsimp only
      rw [if_neg he]
      exact Staying.refl.besides

/-! ## A position of the rack that stands -/

/-- A step that leaves the rack's pause flag and position p, and the notice that waits for the position. -/
structure RackStill (p : Fin 12) (s t : State) : Prop where
  paused : t.rack.paused = s.rack.paused
  position : t.position p = s.position p
  notice : t.notices.pending.get? (39 + p.val) = s.notices.pending.get? (39 + p.val)

theorem RackStill.refl : RackStill p s s := ⟨rfl, rfl, rfl⟩

theorem RackStill.trans (h : RackStill p s t) (g : RackStill p t u) : RackStill p s u :=
  ⟨g.paused.trans h.paused, g.position.trans h.position, g.notice.trans h.notice⟩

theorem RackStill.of_rack (h : t.rack = s.rack)
    (hn : t.notices.pending.get? (39 + p.val) = s.notices.pending.get? (39 + p.val)) : RackStill p s t :=
  ⟨by rw [h], by simp only [State.position, h], hn⟩

theorem PlaceWritten.rackStill (w : PlaceWritten i s t) : RackStill p s t :=
  .of_rack (by rw [w.frame]) (w.notice _ (by omega))

theorem rackStill_post {n : Notice} (h : n.rank < 39) : RackStill p s (post n s) :=
  .of_rack rfl (post_other (by omega) s)

theorem blockedNote_rackStill (quiet : Bool) (i : Nat) (before after : CState) (s : State) :
    RackStill p s (blockedNote quiet i before after s) := by
  refine .of_rack (by rw [blockedNote_frame]) ?_
  unfold blockedNote
  split
  · split
    · rfl
    · exact post_other (show 39 + p.val ≠ 28 by omega) _
  · dsimp only
    split
    · exact post_other (show 39 + p.val ≠ 28 by omega) _
    · exact post_other (show 39 + p.val ≠ 28 by omega) _
  all_goals rfl

theorem basicChange_rackStill (quiet : Bool) (i : Nat) (new : Record) (s : State) :
    RackStill p s (basicChange quiet i new s) := by
  cases h : s.record? i with
  | none => unfold basicChange; rw [h]; exact .refl
  | some r =>
    rw [basicChange_eq h]
    exact (placeWritten_putRecord ..).rackStill.trans (blockedNote_rackStill ..)

theorem expose_rackStill (i : Nat) (s : State) : RackStill p s (expose i s) := by
  cases h : s.record? i with
  | none => unfold expose; rw [h]; exact .refl
  | some r =>
    rw [expose_record h]
    split
    · exact .refl
    · exact (placeWritten_putRecord ..).rackStill

theorem climateTold_rackStill (i : Nat) (old : Option Location) (s : State) : RackStill p s (climateTold i old s) := by
  unfold climateTold
  split
  · exact .refl
  · split
    · exact .refl
    · split
      · split
        · exact expose_rackStill i s
        · exact .refl
      · exact .refl

theorem setPosition_rackStill (h : p ≠ o) (x : Position) (s : State) : RackStill p s (setPosition o x s) :=
  ⟨rfl, setPosition_other h x s, rfl⟩

theorem postRack_rackStill (h : p ≠ o) (event : RackEvent) (item : Option Occupant) (s : State) :
    RackStill p s (postRack o event item s) :=
  .of_rack rfl (post_other (show 39 + p.val ≠ 39 + o.val from fun e => h (Fin.ext (Nat.add_left_cancel e))) s)

theorem emptyPosition_rackStill (h : p ≠ o) (s : State) : RackStill p s (emptyPosition o s) := by
  unfold emptyPosition
  dsimp only
  split
  · exact .refl
  · exact (setPosition_rackStill h ..).trans (postRack_rackStill h ..)

/-- R106: a position is told of its own record alone. -/
theorem rackTold_rackStill (h : (s.position p).occupant ≠ some (.record i)) (old : Record) :
    RackStill p s (rackTold i old s) := by
  unfold rackTold
  split
  · next o new _ _ =>
    dsimp only
    split
    · next hocc =>
      have ho : p ≠ o := by rintro rfl; exact h hocc
      split
      · exact emptyPosition_rackStill ho s
      · split
        · exact (setPosition_rackStill ho ..).trans (postRack_rackStill ho ..)
        · exact .refl
    · exact .refl
  · exact .refl

theorem handoverTold_rackStill (i : Nat) (old : Record) (s : State) : RackStill p s (handoverTold i old s) := by
  have m : Moves .manifest s (handoverTold i old s) := handoverTold_moves i old .refl trivial trivial
  exact .of_rack (m.rack_eq id) (by rw [m.notices_eq id])

theorem tellOthers_rackStill (h : who = .rack ∨ (s.position p).occupant ≠ some (.record i)) (old : Record) :
    RackStill p s (tellOthers who i old s) := by
  have ends : ∀ w, RackStill p s w →
      RackStill p s (climateTold i (some old.location) (if who = .rack then w else rackTold i old w)) := fun w first => by
    refine RackStill.trans ?_ (climateTold_rackStill ..)
    split
    · exact first
    · next hw => exact first.trans (rackTold_rackStill (by rw [first.position]; exact h.resolve_left hw) old)
  cases who with
  | handover c => exact ends s .refl
  | _ => exact ends _ (handoverTold_rackStill i old s)

/-! ## The Order Queue beside the rack -/

theorem dropOrderSlot_rackStill (i : Nat) (s : State) : RackStill p s (dropOrderSlot i s) := by
  unfold dropOrderSlot
  split
  · exact .refl
  · exact (placeWritten_putRecord ..).rackStill

theorem postOrder_rackStill (k : Nat) (s : State) : RackStill p s (postOrder k s) := by
  unfold postOrder
  split
  · exact rackStill_post (show 10 + min k 15 < 39 by omega)
  · exact .refl

theorem putOrder_rackStill (k : Nat) (x : Order) (s : State) : RackStill p s (putOrder k x s) := .of_rack rfl rfl

theorem evaluateOrder_rackStill (k : Nat) (s : State) : RackStill p s (evaluateOrder k s) := by
  unfold evaluateOrder
  split
  · exact .refl
  · split
    · exact (putOrder_rackStill ..).trans (postOrder_rackStill ..)
    · exact .refl

theorem markHanded_rackStill (k i : Nat) (s : State) : RackStill p s (markHanded k i s) := by
  unfold markHanded
  split
  · exact .refl
  · exact ((putOrder_rackStill ..).trans (dropOrderSlot_rackStill ..)).trans (postOrder_rackStill ..)

theorem releaseOf_blocked (h : r.state.isBlocked = true) : releaseOf r = none := by
  unfold releaseOf
  split
  case h_9 => rfl
  all_goals next e _ => rw [e] at h; cases h

theorem releaseEntry_rackStill (h : (s.position p).occupant ≠ some (.record i) ∨
    ∃ r, s.record? i = some r ∧ r.state.isBlocked = true) : RackStill p s (releaseEntry i s) := by
  unfold releaseEntry
  split
  · exact .refl
  · next r hr =>
    split
    · next new hn =>
      have still := basicChange_rackStill (p := p) false i new s
      refine still.trans (tellOthers_rackStill (.inr ?_) r)
      rw [still.position]
      refine h.resolve_right ?_
      rintro ⟨q, hq, hb⟩
      cases hr.symm.trans hq
      rw [releaseOf_blocked hb] at hn
      cases hn
    · exact dropOrderSlot_rackStill i s

/-- Of the records that a release could touch, position p holds at most record i, and record i is BLOCKED. -/
structure Sealed (p : Fin 12) (i : Nat) (s : State) : Prop where
  occupant : ∀ k, k ≠ i → (s.position p).occupant ≠ some (.record k)
  blocked : ∃ r, s.record? i = some r ∧ r.state.isBlocked = true

theorem Sealed.released (h : Sealed p i s) (k : Nat) : RackStill p s (releaseEntry k s) := by
  refine releaseEntry_rackStill ?_
  by_cases hk : k = i
  · exact .inr (hk ▸ h.blocked)
  · exact .inl (h.occupant k hk)

theorem Sealed.step (h : Sealed p i s) (still : RackStill p s t) (lying : Lying s t) : Sealed p i t where
  occupant k hk := by rw [still.position]; exact h.occupant k hk
  blocked := by
    obtain ⟨r, hr, hb⟩ := h.blocked
    obtain ⟨q, hq, lies⟩ := lying i r hr
    exact ⟨q, hq, by rw [lies.blocked hb]; exact hb⟩

theorem Sealed.releasedAll (ks : List Nat) : ∀ s, Sealed p i s →
    RackStill p s (ks.foldl (fun s k => releaseEntry k s) s) := by
  induction ks with
  | nil => exact fun _ _ => .refl
  | cons k ks ih =>
    intro s h
    exact (h.released k).trans (ih _ (h.step (h.released k) (releaseEntry_lying k s)))

theorem Sealed.finished (h : Sealed p i s) (k : Nat) (outcome : OOutcome) : RackStill p s (finishOrder k outcome s) := by
  unfold finishOrder
  split
  · exact .refl
  · split
    · exact .refl
    · have put := putOrder_rackStill (p := p) k { ‹Order› with state := .finished outcome, deadline := none } s
      exact (put.trans (Sealed.releasedAll _ _ (h.step put (putOrder_lying _ _ s)))).trans (postOrder_rackStill ..)

theorem orderTold_rackStill (who : Claimant) (h : ∀ k, k ≠ i → (s.position p).occupant ≠ some (.record k)) :
    RackStill p s (orderTold who i s) := by
  unfold orderTold
  split
  · exact .refl
  · next r hr =>
    split
    · exact .refl
    · split
      · exact .refl
      · split
        · exact .refl
        · split
          · exact evaluateOrder_rackStill ..
          · exact evaluateOrder_rackStill ..
          · exact evaluateOrder_rackStill ..
          · exact evaluateOrder_rackStill ..
          · split
            · split
              · exact (putOrder_rackStill ..).trans (postOrder_rackStill ..)
              · exact .refl
            all_goals exact .refl
          · exact markHanded_rackStill ..
          · next e => exact Sealed.finished ⟨h, r, hr, by rw [e]; rfl⟩ ..
          all_goals exact .refl

/-- R106: a change by the Rack Controller leaves a position that holds no other record than the one changed; a change
by another block leaves one that holds none. -/
theorem changeRecord_rackStill (quiet : Bool) (h : ∀ k, k ≠ i → (s.position p).occupant ≠ some (.record k))
    (hw : who = .rack ∨ (s.position p).occupant ≠ some (.record i)) (new : Record) :
    RackStill p s (changeRecord who quiet i new s) := by
  unfold changeRecord
  split
  · exact .refl
  · next r hr =>
    have basic := basicChange_rackStill (p := p) quiet i new s
    have ordered : RackStill p s (if new.state ≠ r.state then orderTold who i (basicChange quiet i new s)
        else basicChange quiet i new s) := by
      split
      · exact basic.trans (orderTold_rackStill who (by rw [basic.position]; exact h))
      · exact basic
    dsimp only
    exact ordered.trans (tellOthers_rackStill (by rw [ordered.position]; exact hw) r)

theorem claim_rackStill {expected : Record → Bool} {f : Record → Record}
    (h : ∀ k, k ≠ i → (s.position p).occupant ≠ some (.record k))
    (hw : who = .rack ∨ (s.position p).occupant ≠ some (.record i)) : RackStill p s (claim who i expected f s) := by
  unfold claim
  split
  · exact .refl
  · split
    · exact changeRecord_rackStill false h hw _
    · exact .refl

end Sys2Proof.Machine
end

section
/-! The rack's events and timers (R59, R60, R99 to R105) and the shelf's events (R56 to R58). -/

namespace Sys2Proof.Machine

variable {s t u v w : State} {i j k n : Nat} {p o : Fin 12} {r q : Record} {l : Label} {d : Direction}

/-! ## A change in its place -/

/-- A change that leaves a record in its place, in a state but BLOCKED and OUT, leaves every other record as it was. -/
theorem changeRecord_exact {new : Record} (who : Claimant) (quiet : Bool) (hr : s.record? i = some r)
    (hl : new.location = r.location) (hb : new.state.isBlocked = false) (ho : new.state ≠ .out) :
    (changeRecord who quiet i new s).record? i = some (normalise new) ∧
      ∀ j, j ≠ i → (changeRecord who quiet i new s).record? j = s.record? j := by
  have basic := basicChange_record hr quiet new
  have ordered : (if new.state ≠ r.state then orderTold who i (basicChange quiet i new s)
      else basicChange quiet i new s).custody = (basicChange quiet i new s).custody := by
    split
    · exact orderTold_custody who basic hb ho
    · rfl
  rw [changeRecord_eq hr]
  generalize (if new.state ≠ r.state then orderTold who i (basicChange quiet i new s)
      else basicChange quiet i new s) = w at ordered
  have hw : w.record? i = some (normalise new) := (record?_congr ordered i).trans basic
  have still := (tellOthers_still (old := r) who hw (.inl hl)).moves.custody_eq id
  exact ⟨(record?_congr still i).trans hw, fun j hj => (record?_congr still j).trans
    ((record?_congr ordered j).trans ((basicChange_atRecord ..).others j hj))⟩

theorem postRack_same (p : Fin 12) (event : RackEvent) (item : Option Occupant) (s : State) :
    (postRack p event item s).notices.pending.get? (39 + p.val) = some (.rackPosition p event
      (s.position p).occupant.isSome (s.position p).paused
      (match item with
       | some (.record i) => some i
       | some (.foreign _) | none => none)
      (match item with
       | some (.foreign l) => some l
       | some (.record _) | none => none)
      (s.position p).dwell) := post_same ..

/-- What R104 and R105 leave of the layout and of the other blocks. -/
theorem changeRecord_layout (who : Claimant) (quiet : Bool) (i : Nat) (new : Record) (s : State) :
    KeepsLayout s (changeRecord who quiet i new s) ∧ (changeRecord who quiet i new s).fire = s.fire ∧
      (changeRecord who quiet i new s).climate = s.climate ∧ (changeRecord who quiet i new s).hatch = s.hatch := by
  have m := changeRecord_records who quiet i new s
  exact ⟨m.records_keepsLayout, m.fire_eq id, m.climate_eq id, m.hatch_eq id⟩

/-- R104: a dwell that completes at the position of its record. -/
theorem completeDwell_ready {left : Nat} {paused : Bool} (hp : s.position p = ⟨some (.record i), some left, paused⟩)
    (hr : s.record? i = some r) (hl : r.location = .rack p) (hs : r.state = .conditioning d) :
    completeDwell p s = postRack p .completed (some (.record i)) (changeRecord .rack false i
      { r with state := .ready d, exposed := false } (setPosition p ⟨some (.record i), none, false⟩ s)) := by
  unfold completeDwell
  dsimp only
  rw [hp]
  dsimp only
  rw [show (setPosition p ⟨some (.record i), none, false⟩ s).record? i = some r from hr]
  dsimp only
  rw [if_pos hl, hs]

/-! ## Insertions -/

theorem leavePosition_custody (i : Nat) (p : Fin 12) (s : State) : (leavePosition i p s).custody = s.custody := by
  have m : Moves { Allow.all with custody := False } s (leavePosition i p s) := by
    apply leavePosition_moves i p .refl <;> trivial
  exact m.custody_eq id

/-- R59: the state of a record put into the rack out of somebody's hand. -/
theorem rackInserted_state (hl : r.location = .inHand) (p : Fin 12) : (r.rackInserted p).state =
    match r.state with
    | .picked => .conditioning .outbound
    | .received => .conditioning .returning
    | .ready .outbound => .ready .outbound
    | .loose => .loose
    | .blocked b => .blocked b
    | _ => .blocked .custodyConflict := by
  unfold Record.rackInserted Record.blockedAt
  rw [hl]
  cases hs : r.state with
  | conditioning d => rfl
  | ready d => cases d <;> rfl
  | _ => rfl

theorem rackInserted_kept (r : Record) (p : Fin 12) : (r.rackInserted p).location = .rack p ∧
    (r.rackInserted p).home = r.home ∧ (r.rackInserted p).exposed = r.exposed := by
  unfold Record.rackInserted Record.blockedAt
  split <;> exact ⟨rfl, rfl, rfl⟩

/-- R59: a dwell is due for a record put into the rack where it comes PICKED or RECEIVED. -/
theorem rackInserted_conditioning (r : Record) (p : Fin 12) :
    (∃ d, (r.rackInserted p).state = .conditioning d) ↔ r.state = .picked ∨ r.state = .received := by
  unfold Record.rackInserted Record.blockedAt
  split
  · next e => exact ⟨fun _ => .inl e, fun _ => ⟨_, rfl⟩⟩
  · next e => exact ⟨fun _ => .inr e, fun _ => ⟨_, rfl⟩⟩
  · next e _ => simp [e]
  · next e => simp [e]
  · next h1 h2 _ _ =>
    refine ⟨fun ⟨d, hd⟩ => ?_, fun h => ?_⟩
    · dsimp only at hd
      split at hd
      · next hb => rw [hd] at hb; cases hb
      · cases hd
    · exact (h.elim h1 h2).elim

/-- R99: an EXPOSED record dwells no shorter. -/
theorem dwellMinutes_exposed {room home : Option (Nat × Int)} {e e' : Bool} (h : dwellMinutes s room home e ≠ 0)
    (he : e = true → e' = true) : dwellMinutes s room home e' ≠ 0 := by
  unfold dwellMinutes at h ⊢
  dsimp only at h ⊢
  cases e with
  | true => rw [he rfl]; exact h
  | false =>
    cases e' with
    | false => exact h
    | true =>
      rw [if_neg Bool.false_ne_true] at h
      rw [if_pos rfl]
      omega

/-- R102: what takes a record out of somebody's hand into an empty position leaves of the record and the position. -/
structure TakenIn (p : Fin 12) (j : Nat) (q : Record) (s t : State) : Prop where
  record : ∃ y, t.record? j = some y ∧ (q.rackInserted p).Becomes y ∧ t.position p =
    (if q.state = .picked ∨ q.state = .received then
      ⟨some (.record j), some (dwellMinutes s (s.airAt roomPoint).reading (homeReading s q.home) y.exposed * 60000),
        s.rack.paused⟩
     else ⟨some (.record j), none, false⟩)

theorem dwellMinutes_congr (h : t.settings = s.settings) (room home : Option (Nat × Int)) (e : Bool) :
    dwellMinutes t room home e = dwellMinutes s room home e := by
  unfold dwellMinutes
  simp only [param_congr h]

theorem homeReading_congr (hs : t.settings = s.settings) (hc : t.climate = s.climate) (n : Nat) :
    homeReading t n = homeReading s n := by
  unfold homeReading
  simp only [zoneOfSlot_congr hs, State.airAt, hc]

theorem takeIntoRack_taken (hr : s.record? j = some q)
    (hrun : dwellMinutes s (s.airAt roomPoint).reading (homeReading s q.home) q.exposed ≠ 0 ∨
      s.rack.paused = true ∨ (q.state ≠ .picked ∧ q.state ≠ .received)) : TakenIn p j q s (takeIntoRack j p s) := by
  have held := setPosition_same p { occupant := some (.record j), dwell := none, paused := false } s
  have hr' : (setPosition p { occupant := some (.record j), dwell := none, paused := false } s).record? j = some q := hr
  obtain ⟨⟨y, hy, becomes⟩, -⟩ := claim_changed .rack hr' (expected := fun _ => true) rfl (fun r => r.rackInserted p)
  have still : RackStill p (setPosition p { occupant := some (.record j), dwell := none, paused := false } s)
      (claim .rack j (fun _ => true) (fun r => r.rackInserted p)
        (setPosition p { occupant := some (.record j), dwell := none, paused := false } s)) :=
    claim_rackStill (fun k hk h => by rw [held] at h; cases h; exact hk rfl) (.inl rfl)
  have moves : Moves { Allow.all with settings := False, climate := False } s (claim .rack j (fun _ => true)
      (fun r => r.rackInserted p) (setPosition p { occupant := some (.record j), dwell := none, paused := false } s)) := by
    apply claim_moves _ _ _ _ (setPosition_moves _ _ .refl trivial) <;> trivial
  unfold takeIntoRack
  dsimp only
  generalize claim .rack j (fun _ => true) (fun r => r.rackInserted p)
    (setPosition p { occupant := some (.record j), dwell := none, paused := false } s) = w at hy still moves
  have position : w.position p = { occupant := some (.record j), dwell := none, paused := false } :=
    still.position.trans held
  have paused : w.rack.paused = s.rack.paused := still.paused
  obtain ⟨-, home, exposed⟩ := rackInserted_kept q p
  have minutes : ∀ e, dwellMinutes w (w.airAt roomPoint).reading (homeReading w y.home) e =
      dwellMinutes s (s.airAt roomPoint).reading (homeReading s q.home) e := fun e => by
    rw [dwellMinutes_congr (moves.settings_eq id), homeReading_congr (moves.settings_eq id) (moves.climate_eq id),
      becomes.home, home]
    simp only [State.airAt, moves.climate_eq id]
  rw [hy]
  dsimp only
  have dwells := rackInserted_conditioning q p
  rw [← becomes.state] at dwells
  split
  · next d hd =>
    have due := dwells.mp ⟨d, hd⟩
    have long : ¬(dwellMinutes s (s.airAt roomPoint).reading (homeReading s q.home) y.exposed = 0 ∧
        s.rack.paused = false) := fun ⟨h0, hp⟩ => by
      rcases hrun with h | h | ⟨h1, h2⟩
      · exact dwellMinutes_exposed h (fun he => becomes.exposed (exposed.trans he)) h0
      · rw [hp] at h; cases h
      · exact due.elim h1 h2
    refine ⟨y, ?_, becomes, ?_⟩
    · unfold startDwell
      rw [hy]
      dsimp only
      rw [minutes, paused, if_neg (by rw [show (postRack p _ _ (setPosition p _ w)).rack.paused = w.rack.paused from rfl, paused]; exact long)]
      exact hy
    · rw [if_pos due]
      unfold startDwell
      rw [hy]
      dsimp only
      rw [minutes, paused, if_neg (by rw [show (postRack p _ _ (setPosition p _ w)).rack.paused = w.rack.paused from rfl, paused]; exact long)]
      exact (setPosition_same ..).trans (by rw [position])
  all_goals
    next hs =>
      refine ⟨y, hy, becomes, ?_⟩
      rw [if_neg (fun h => by
        obtain ⟨d, hd⟩ := dwells.mpr h
        rw [hs] at hd
        cases hd)]
      exact position

/-- R102: an INSERTED event at an empty position, with the label of a record in somebody's hand. -/
theorem rackInserted_taken (hp : (s.position p).occupant = none) (hl : findLabel s l = some j)
    (hr : s.record? j = some q) (hq : q.location = .inHand) : rackInserted false p l s = takeIntoRack j p s := by
  have missed : missedDeparture j (.rack p) s = s := by
    unfold missedDeparture
    rw [hr]
    dsimp only
    rw [hq]
    rfl
  have removed : rackRemoved p s = s := by
    unfold rackRemoved
    rw [hp]
  unfold rackInserted
  rw [hl]
  dsimp only
  rw [hr]
  dsimp only
  rw [if_neg (by rw [hq]; exact nofun), missed, if_neg Bool.false_ne_true, removed]

/-! ## Departures -/

/-- R59, R103: the state of a record taken out of the rack. -/
theorem rackDeparted_state (r : Record) (p : Fin 12) (carry : Nat) : (r.rackDeparted p carry).state =
    match r.state with
    | .conditioning .outbound => .picked
    | .conditioning .returning => .received
    | .ready .outbound => .ready .outbound
    | .ready .returning => .loose
    | .loose => .loose
    | .received => .received
    | .blocked b => .blocked b
    | _ => .blocked .custodyConflict := by
  unfold Record.rackDeparted Record.blockedAt
  cases hs : r.state with
  | conditioning d => cases d <;> rfl
  | ready d => cases d <;> rfl
  | _ => rfl

theorem rackDeparted_location (r : Record) (p : Fin 12) (carry : Nat) : (r.rackDeparted p carry).location = .inHand := by
  unfold Record.rackDeparted Record.blockedAt
  split <;> rfl

theorem rackDeparted_carry (hs : r.state = .ready .outbound) (p : Fin 12) (carry : Nat) :
    carryOf (r.rackDeparted p carry) = some { left := carry, origin := some p } := by
  unfold Record.rackDeparted
  rw [hs]
  unfold carryOf
  dsimp only

theorem emptyPosition_empty (h : (s.position p).occupant ≠ none) : (emptyPosition p s).position p = .empty := by
  unfold emptyPosition
  dsimp only
  split
  · next e => exact absurd e h
  · exact setPosition_same ..

/-- R103: a REMOVED event at the position of a record that lies there. -/
theorem rackRemoved_departed (hp : (s.position p).occupant = some (.record j)) (hr : s.record? j = some q) :
    ∃ y, (rackRemoved p s).record? j = some y ∧
      (q.rackDeparted p (s.param .carryWindow * 60000)).Becomes y ∧ (rackRemoved p s).position p = .empty := by
  have e : rackRemoved p s = claim .rack j (fun _ => true)
      (fun r => r.rackDeparted p (s.param .carryWindow * 60000)) (leavePosition j p s) := by
    have m : Moves { Allow.all with settings := False } s (leavePosition j p s) := by
      apply leavePosition_moves j p .refl <;> trivial
    unfold rackRemoved
    rw [hp]
    dsimp only
    unfold rackDepart
    dsimp only
    rw [param_congr (m.settings_eq id)]
  have left : (leavePosition j p s).position p = .empty := by
    unfold leavePosition
    rw [if_pos hp]
    exact emptyPosition_empty (by rw [hp]; exact nofun)
  have hr' : (leavePosition j p s).record? j = some q := (record?_congr (leavePosition_custody ..) j).trans hr
  obtain ⟨⟨y, hy, becomes⟩, -⟩ := claim_changed .rack hr' (expected := fun _ => true) rfl
    (fun r => r.rackDeparted p (s.param .carryWindow * 60000))
  have still := claim_rackStill (p := p) (who := .rack) (i := j) (expected := fun _ => true)
    (f := fun r => r.rackDeparted p (s.param .carryWindow * 60000)) (s := leavePosition j p s)
    (fun k _ h => by rw [left] at h; cases h) (.inl rfl)
  rw [e]
  exact ⟨y, hy, becomes, still.position.trans left⟩

/-! ## Shelves -/

theorem shelfSighted_record (r : Record) (n : Nat) : (r.shelfSighted n).location = .slot n ∧ (r.shelfSighted n).state =
    match r.state with
    | .loose => if n = r.home then .shelved else .blocked .misplaced
    | .picked => if n = r.home then .reserved else .blocked .misplaced
    | .received => .blocked .skippedConditioning
    | .blocked b => .blocked b
    | _ => .blocked .custodyConflict := by
  unfold Record.shelfSighted Record.blockedAt
  cases hs : r.state with
  | loose =>
    dsimp only
    split
    · exact ⟨rfl, rfl⟩
    · exact ⟨rfl, rfl⟩
  | picked =>
    dsimp only
    split
    · exact ⟨rfl, rfl⟩
    · exact ⟨rfl, rfl⟩
  | _ => exact ⟨rfl, rfl⟩

theorem shelfDeparted_record (r : Record) : r.shelfDeparted.location = .inHand ∧ r.shelfDeparted.state =
    match r.state with
    | .shelved => .blocked .unauthorisedMove
    | .reserved => .picked
    | .loose => .loose
    | .blocked b => .blocked b
    | _ => .blocked .custodyConflict := by
  unfold Record.shelfDeparted Record.blockedAt
  cases hs : r.state with
  | _ => exact ⟨rfl, rfl⟩

theorem Record.Becomes.recordIs {new y : Record} {place : Location} (hy : t.record? i = some y) (h : new.Becomes y)
    (hl : new.location = place) : RecordIs t i new.state place := ⟨y, hy, h.state, h.location.trans hl⟩

/-- R57: an INSERTED event at a free slot, with the label of a record in somebody's hand. -/
theorem shelfInserted_sighted (hl : findLabel s l = some j) (hr : s.record? j = some q) (hq : q.location = .inHand)
    (hn : findOtherAt s (.slot n) j = none) :
    RecordIs (shelfInserted false n l s) j (q.shelfSighted n).state (.slot n) := by
  have missed : missedDeparture j (.slot n) s = s := by
    unfold missedDeparture
    rw [hr]
    dsimp only
    rw [hq]
    rfl
  have e : shelfInserted false n l s =
      claim .custody j (fun r => r.location != .slot n) (fun r => r.shelfSighted n) s := by
    unfold shelfInserted
    rw [hl]
    dsimp only
    rw [missed, if_neg Bool.false_ne_true, hn]
  obtain ⟨⟨y, hy, becomes⟩, -⟩ := claim_changed .custody hr (expected := fun r => r.location != .slot n)
    (by rw [hq]; rfl) (fun r => r.shelfSighted n)
  rw [e]
  exact becomes.recordIs hy (shelfSighted_record q n).1

theorem shelfInserted_foreign (snapshot : Bool) (n : Nat) (hl : findLabel s l = none) :
    shelfInserted snapshot n l s = post (.foreignLabel l (.slot n)) s := by
  unfold shelfInserted
  rw [hl]

/-- R58: a REMOVED event at the slot of a record. -/
theorem shelfRemoved_departed (hf : findAt s (.slot n) = some j) (hr : s.record? j = some q) :
    RecordIs (shelfRemoved n s) j q.shelfDeparted.state .inHand := by
  have e : shelfRemoved n s = claim .custody j (fun _ => true) Record.shelfDeparted s := by
    unfold shelfRemoved
    rw [hf]
    rfl
  obtain ⟨⟨y, hy, becomes⟩, -⟩ := claim_changed .custody hr (expected := fun _ => true) rfl Record.shelfDeparted
  rw [e]
  exact becomes.recordIs hy (shelfDeparted_record q).1

end Sys2Proof.Machine
end

section
/-! The snapshots of the shelves and of the rack (R62, R107): the records that they do not show. -/

namespace Sys2Proof.Machine

variable {s t u v w : State} {i j k n : Nat} {p o : Fin 12} {r q : Record} {l : Label} {d : Direction} {es : List SnapEntry}

/-! ## The first pass: the records of other labels -/

theorem findLabel_label (hs : TablesOk s) (h : findLabel s l = some i) : ∃ r, s.record? i = some r ∧ r.label = l := by
  unfold findLabel at h
  obtain ⟨⟨k, r⟩, hf, rfl⟩ := Option.map_eq_some_iff.mp h
  exact ⟨r, Table.get?_of_mem hs.records (List.mem_of_find?_eq_some hf), by simpa using List.find?_some hf⟩

theorem rackDepart_besides (i : Nat) (p : Fin 12) (s : State) : Besides i s (rackDepart i p s) :=
  (Staying.of_custody (leavePosition_custody i p s)).besides.trans (claim_besides _ _ _ _ _)

theorem missedDeparture_besides (i : Nat) (place : Location) (s : State) : Besides i s (missedDeparture i place s) := by
  unfold missedDeparture
  split
  · exact Staying.refl.besides
  · split
    · exact Staying.refl.besides
    · split
      · exact claim_besides _ _ _ _ _
      · exact rackDepart_besides _ _ _
      all_goals exact Staying.refl.besides

theorem completeDwell_besides (h : (s.position p).occupant = some (.record i)) : Besides i s (completeDwell p s) := by
  unfold completeDwell
  dsimp only
  split
  · next k left hk _ =>
    cases h.symm.trans hk
    have placed : ∀ x, Besides i s (setPosition p x s) := fun x => (Staying.of_custody rfl).besides
    split
    · exact placed _
    · next r hr =>
      split
      · split
        · exact (placed _).trans ((changeRecord_changed .rack false hr _).others.trans
            (Staying.of_custody rfl).besides)
        all_goals exact placed _
      · exact placed _
  · exact Staying.refl.besides

theorem startDwell_besides (h : (s.position p).occupant = some (.record i)) : Besides i s (startDwell p i s) := by
  unfold startDwell
  split
  · exact Staying.refl.besides
  · have started : ∀ x, Besides i s (postRack p .started (some (.record i)) (setPosition p x s)) := fun x =>
      (Staying.of_custody rfl).besides
    dsimp only
    split
    · refine (started _).trans (completeDwell_besides ?_)
      exact (congrArg Position.occupant (setPosition_same ..)).trans h
    · exact started _

/-- The claim by which a position takes a record in. -/
theorem takeIntoRack_held (i : Nat) (p : Fin 12) (s : State) :
    RackStill p (setPosition p { occupant := some (.record i), dwell := none, paused := false } s)
      (claim .rack i (fun _ => true) (fun r => r.rackInserted p)
        (setPosition p { occupant := some (.record i), dwell := none, paused := false } s)) :=
  claim_rackStill (fun k hk h => by
    rw [setPosition_same] at h
    cases h
    exact hk rfl) (.inl rfl)

theorem takeIntoRack_besides (i : Nat) (p : Fin 12) (s : State) : Besides i s (takeIntoRack i p s) := by
  have claimed : Besides i s (claim .rack i (fun _ => true) (fun r => r.rackInserted p)
      (setPosition p { occupant := some (.record i), dwell := none, paused := false } s)) :=
    (Staying.of_custody (s := s) (t := setPosition p _ s) rfl).besides.trans (claim_besides .rack i _ _ _)
  have held := (takeIntoRack_held i p s).position.trans (setPosition_same ..)
  unfold takeIntoRack
  dsimp only
  split
  · exact claimed
  · split
    · exact claimed.trans (startDwell_besides (by rw [held]))
    all_goals exact claimed.trans (Staying.of_custody rfl).besides

/-- A step of a snapshot that shows a label leaves the records of the others. -/
def Unshown (l : Label) (s t : State) : Prop :=
  TablesOk s → TablesOk t ∧ ∀ j r, s.record? j = some r → r.label = l → ∃ q, t.record? j = some q ∧ r.Stays q

theorem Unshown.refl : Unshown l s s := fun h => ⟨h, fun _ r hr _ => ⟨r, hr, .refl r⟩⟩

theorem Unshown.trans (h : Unshown l s t) (g : Unshown l t u) : Unshown l s u := fun hs => by
  obtain ⟨ht, first⟩ := h hs
  obtain ⟨hu, second⟩ := g ht
  refine ⟨hu, fun j r hr hl => ?_⟩
  obtain ⟨q, hq, hrq⟩ := first j r hr hl
  obtain ⟨x, hx, hqx⟩ := second j q hq (hrq.lies.label.trans hl)
  exact ⟨x, hx, hrq.trans hqx⟩

theorem Unshown.foldl {α : Type} {f : State → α → State} (xs : List α) (hf : ∀ a ∈ xs, ∀ u, Unshown l u (f u a)) :
    ∀ s, Unshown l s (xs.foldl f s) := by
  induction xs with
  | nil => exact fun _ => .refl
  | cons a xs ih => exact fun s => (hf a List.mem_cons_self s).trans (ih (fun b hb => hf b (List.mem_cons_of_mem _ hb)) (f s a))

theorem Unshown.of_found {m : Label} (hm : m ≠ l) (ht : Moves .all s t)
    (hnone : findLabel s m = none → Staying s t) (hsome : ∀ i, findLabel s m = some i → Besides i s t) :
    Unshown l s t := fun hs => by
  refine ⟨ht.tablesOk hs, fun j r hr hl => ?_⟩
  cases hf : findLabel s m with
  | none => exact hnone hf j r hr
  | some i =>
    obtain ⟨x, hx, hlabel⟩ := findLabel_label hs hf
    refine hsome i hf j ?_ r hr
    rintro rfl
    cases hr.symm.trans hx
    exact hm (hlabel.symm.trans hl)

theorem rackInserted_unshown {m : Label} (hm : m ≠ l) (p : Fin 12) (s : State) : Unshown l s (rackInserted true p m s) := by
  refine .of_found hm (by apply rackInserted_moves true p m .refl <;> trivial) (fun hf => ?_) (fun i hf => ?_)
  · unfold rackInserted
    rw [hf]
    dsimp only
    split
    · exact .of_custody rfl
    · exact .of_custody rfl
  · unfold rackInserted
    rw [hf]
    dsimp only
    split
    · exact Staying.refl.besides
    · split
      · split
        · exact takeIntoRack_besides _ _ _
        · exact Staying.refl.besides
      · rw [if_pos rfl]
        exact (missedDeparture_besides _ _ _).trans (takeIntoRack_besides _ _ _)

theorem shelfInserted_unshown {m : Label} (hm : m ≠ l) (n : Nat) (s : State) : Unshown l s (shelfInserted true n m s) := by
  refine .of_found hm (by apply shelfInserted_moves true n m .refl <;> trivial) (fun hf => ?_) (fun i hf => ?_)
  · rw [shelfInserted_foreign true n hf]
    exact .of_custody rfl
  · unfold shelfInserted
    rw [hf]
    dsimp only
    rw [if_pos rfl]
    exact (missedDeparture_besides _ _ _).trans (claim_besides _ _ _ _ _)

/-! ## The second pass: the records not shown -/

/-- R62: a step that marks record i MISSING and leaves the others. -/
structure Misses (f : Nat → State → State) : Prop where
  missed : ∀ i s r, s.record? i = some r →
    RecordIs (f i s) i (if r.state.isBlocked then r.state else .blocked .missing) .unknown
  others : ∀ i s, Besides i s (f i s)

theorem markMissing_misses (who : Claimant) : Misses (markMissing who) where
  missed i s r hr := by
    obtain ⟨⟨y, hy, becomes⟩, -⟩ := claim_changed who hr (expected := fun _ => true) rfl
      (fun r => r.blockedAt .missing .unknown)
    exact becomes.recordIs hy rfl
  others i _ := claim_besides who i _ _ _

theorem leavePosition_misses (p : Fin 12) : Misses fun i s => markMissing .rack i (leavePosition i p s) where
  missed i _ r hr := (markMissing_misses .rack).missed i _ r ((record?_congr (leavePosition_custody ..) i).trans hr)
  others i s := (Staying.of_custody (s := s) (leavePosition_custody i p s)).besides.trans
    ((markMissing_misses .rack).others i _)

variable {f : Nat → State → State}

/-- A record once MISSING stays so. -/
theorem Misses.gone (h : Misses f) (is : List Nat) : ∀ s (st : CState), RecordIs s j st .unknown → st.isBlocked = true →
    RecordIs (is.foldl (fun s i => f i s) s) j st .unknown := by
  induction is with
  | nil => exact fun _ _ hj _ => hj
  | cons i is ih =>
    rintro s st ⟨r, hr, hst, hl⟩ hb
    refine ih _ st ?_ hb
    by_cases hi : j = i
    · subst hi
      have missed := h.missed j s r hr
      rw [hst, if_pos hb] at missed
      exact missed
    · obtain ⟨q, hq, stays⟩ := h.others i s j hi r hr
      exact ⟨q, hq, (stays.bides.blocked (by rw [hst]; exact hb)).trans hst, stays.bides.place.trans hl⟩

theorem Misses.all_in (h : Misses f) (is : List Nat) : ∀ s r, j ∈ is → s.record? j = some r →
    (∀ c, r.location ≠ .courier c) → RecordIs (is.foldl (fun s i => f i s) s) j
      (if r.state.isBlocked then r.state else .blocked .missing) .unknown := by
  induction is with
  | nil => exact fun _ _ hj => absurd hj List.not_mem_nil
  | cons i is ih =>
    intro s r hj hr hl
    by_cases hi : j = i
    · subst hi
      exact h.gone is _ _ (h.missed j s r hr) (blockedAt_isBlocked r .missing .unknown)
    · obtain ⟨q, hq, stays⟩ := h.others i s j hi r hr
      have rest := ih _ q ((List.mem_cons.mp hj).resolve_left hi) hq (by rw [stays.bides.place]; exact hl)
      rw [stays.bides.blockedFor hl] at rest
      exact rest

theorem Misses.all_out (h : Misses f) (is : List Nat) : ∀ s r, j ∉ is → s.record? j = some r →
    ∃ q, (is.foldl (fun s i => f i s) s).record? j = some q ∧ r.Stays q := by
  induction is with
  | nil => exact fun s r _ hr => ⟨r, hr, .refl r⟩
  | cons i is ih =>
    intro s r hj hr
    rw [List.mem_cons, not_or] at hj
    obtain ⟨hi, his⟩ := hj
    obtain ⟨q, hq, stays⟩ := h.others i s j hi r hr
    obtain ⟨x, hx, rest⟩ := ih _ q his hq
    exact ⟨x, hx, stays.trans rest⟩

/-! ## The shelves -/

theorem mem_insertBy {α : Type} (key : α → Nat) (x y : α) (xs : List α) : y ∈ insertBy key x xs ↔ y = x ∨ y ∈ xs := by
  induction xs with
  | nil => simp [insertBy]
  | cons z xs ih =>
    unfold insertBy
    split
    · exact List.mem_cons
    · rw [List.mem_cons, ih, List.mem_cons]
      exact or_left_comm

theorem mem_sortBy {α : Type} (key : α → Nat) (y : α) (xs : List α) : y ∈ sortBy key xs ↔ y ∈ xs := by
  have all : ∀ acc : List α, y ∈ xs.foldl (fun acc x => insertBy key x acc) acc ↔ y ∈ acc ∨ y ∈ xs := by
    induction xs with
    | nil => simp
    | cons x xs ih =>
      intro acc
      rw [List.foldl_cons, ih, mem_insertBy, List.mem_cons]
      tauto
  exact (all []).trans (by simp)

/-- A label that no occupied entry of a snapshot shows. -/
def Hidden (es : List SnapEntry) (l : Label) : Prop := ∀ e ∈ es, e.occupied = true → e.label ≠ l

/-- R62: a record in the range of a SHELF snapshot that does not show its label. -/
theorem shelfSnapshot_missing {base limit : Nat} (hs : TablesOk s) (hr : s.record? j = some r) (hl : r.location = .slot n)
    (hb : base ≤ n) (hn : n ≤ limit) (hidden : Hidden es r.label) :
    RecordIs (shelfSnapshot base limit es s) j (if r.state.isBlocked then r.state else .blocked .missing) .unknown := by
  have first : Unshown r.label s ((sortBy SnapEntry.place (es.filter (·.occupied))).foldl
      (fun s e => shelfInserted true e.place e.label s) s) := by
    refine .foldl _ (fun e he u => shelfInserted_unshown ?_ e.place u) s
    obtain ⟨he, hocc⟩ := List.mem_filter.mp ((mem_sortBy ..).mp he)
    exact hidden e he hocc
  obtain ⟨tables, stayed⟩ := first hs
  obtain ⟨q, hq, stays⟩ := stayed j r hr rfl
  unfold shelfSnapshot
  dsimp only
  generalize (sortBy SnapEntry.place (es.filter (·.occupied))).foldl
      (fun s e => shelfInserted true e.place e.label s) s = w at tables hq
  have place : q.location = .slot n := stays.bides.place.trans hl
  rw [← stays.bides.blockedFor (fun c hc => by rw [hl] at hc; cases hc)]
  refine (markMissing_misses .custody).all_in _ w q ?_ hq (fun c hc => by rw [place] at hc; cases hc)
  refine (mem_sortBy ..).mpr ((tables.mem_recordsWhere _).mpr ⟨q, hq, ?_⟩)
  rw [place]
  dsimp only
  rw [Bool.and_eq_true, Bool.and_eq_true, Bool.not_eq_true', List.any_eq_false]
  refine ⟨⟨decide_eq_true hb, decide_eq_true hn⟩, fun e he hshown => ?_⟩
  obtain ⟨hmem, hocc⟩ := List.mem_filter.mp ((mem_sortBy ..).mp he)
  rw [Bool.and_eq_true, beq_iff_eq, beq_iff_eq] at hshown
  exact hidden e hmem hocc (hshown.2.trans stays.lies.label)

/-! ## The rack -/

/-- The entry of a RACK snapshot at a position, taken in the first pass. -/
def shownTaken (es : List SnapEntry) (s : State) (p : Fin 12) : State :=
  match shownAt es p.val with
  | some l => rackInserted true p l s
  | none => s

/-- The records located at a position that a RACK snapshot does not show there. -/
def unshownAt (es : List SnapEntry) (p : Fin 12) (s : State) : List Nat :=
  recordsWhere s fun r => r.location == .rack p && some r.label != shownAt es p.val

/-- The second pass at a position, before a foreign label that is not shown is removed. -/
def unshownMissed (es : List SnapEntry) (p : Fin 12) (s : State) : State :=
  (unshownAt es p s).foldl (fun s i => markMissing .rack i (leavePosition i p s)) s

theorem rackSnapshot_eq (es : List SnapEntry) (s : State) : rackSnapshot es s =
    rackIds.foldl (fun s p => rackUnshown es p s) (rackIds.foldl (shownTaken es) s) := rfl

theorem rackUnshown_eq (es : List SnapEntry) (p : Fin 12) (s : State) : rackUnshown es p s = unshownMissed es p s ∨
    rackUnshown es p s = emptyPosition p (unshownMissed es p s) := by
  unfold rackUnshown
  dsimp only
  split
  · exact .inr rfl
  · exact .inl rfl

theorem emptyPosition_custody (p : Fin 12) (s : State) : (emptyPosition p s).custody = s.custody := by
  have m : Moves { Allow.all with custody := False } s (emptyPosition p s) := by
    apply emptyPosition_moves p .refl <;> trivial
  exact m.custody_eq id

theorem rackUnshown_custody (es : List SnapEntry) (p : Fin 12) (s : State) :
    (rackUnshown es p s).custody = (unshownMissed es p s).custody := by
  rcases rackUnshown_eq es p s with e | e
  · rw [e]
  · rw [e, emptyPosition_custody]

theorem rackUnshown_tables (hs : TablesOk s) (es : List SnapEntry) (p : Fin 12) : TablesOk (rackUnshown es p s) := by
  have m : Moves .all s (rackUnshown es p s) := by
    apply rackUnshown_moves es p .refl <;> trivial
  exact m.tablesOk hs

theorem mem_unshownAt (hs : TablesOk s) : j ∈ unshownAt es p s ↔
    ∃ r, s.record? j = some r ∧ r.location = .rack p ∧ some r.label ≠ shownAt es p.val := by
  unfold unshownAt
  rw [hs.mem_recordsWhere]
  simp only [Bool.and_eq_true, beq_iff_eq, bne_iff_ne]

/-- R107: the second pass at another position than a record's leaves the record. -/
theorem rackUnshown_stays (hs : TablesOk s) (hr : s.record? j = some r) (hl : r.location ≠ .rack p) :
    ∃ q, (rackUnshown es p s).record? j = some q ∧ r.Stays q := by
  obtain ⟨q, hq, stays⟩ := (leavePosition_misses p).all_out (unshownAt es p s) s r (fun hm => by
    obtain ⟨x, hx, hplace, -⟩ := (mem_unshownAt hs).mp hm
    cases hr.symm.trans hx
    exact hl hplace) hr
  exact ⟨q, (record?_congr (rackUnshown_custody ..) j).trans hq, stays⟩

/-- R107: the second pass at a record's position, where the snapshot shows another label there or none. -/
theorem rackUnshown_missing (hs : TablesOk s) (hr : s.record? j = some r) (hl : r.location = .rack p)
    (hn : some r.label ≠ shownAt es p.val) : RecordIs (rackUnshown es p s) j
      (if r.state.isBlocked then r.state else .blocked .missing) .unknown := by
  obtain ⟨q, hq, is⟩ := (leavePosition_misses p).all_in (unshownAt es p s) s r ((mem_unshownAt hs).mpr ⟨r, hr, hl, hn⟩) hr
    (fun c hc => by rw [hl] at hc; cases hc)
  exact ⟨q, (record?_congr (rackUnshown_custody ..) j).trans hq, is⟩

theorem secondPass_stays (ps : List (Fin 12)) : ∀ s r, TablesOk s → s.record? j = some r →
    (∀ p ∈ ps, r.location ≠ .rack p) →
    ∃ q, (ps.foldl (fun s p => rackUnshown es p s) s).record? j = some q ∧ r.Stays q := by
  induction ps with
  | nil => exact fun s r _ hr _ => ⟨r, hr, .refl r⟩
  | cons p ps ih =>
    intro s r hs hr hl
    obtain ⟨q, hq, stays⟩ := rackUnshown_stays (es := es) hs hr (hl p List.mem_cons_self)
    obtain ⟨x, hx, rest⟩ := ih _ q (rackUnshown_tables hs es p) hq fun o ho => by
      rw [stays.bides.place]
      exact hl o (List.mem_cons_of_mem _ ho)
    exact ⟨x, hx, stays.trans rest⟩

theorem secondPass_missing (ps : List (Fin 12)) : ∀ s r, TablesOk s → s.record? j = some r → p ∈ ps →
    r.location = .rack p → some r.label ≠ shownAt es p.val →
    RecordIs (ps.foldl (fun s p => rackUnshown es p s) s) j
      (if r.state.isBlocked then r.state else .blocked .missing) .unknown := by
  induction ps with
  | nil => exact fun _ _ _ _ h => absurd h List.not_mem_nil
  | cons o ps ih =>
    intro s r hs hr hp hl hn
    by_cases ho : p = o
    · subst ho
      obtain ⟨q, hq, hst, hplace⟩ := rackUnshown_missing (es := es) hs hr hl hn
      obtain ⟨x, hx, stays⟩ := secondPass_stays (es := es) ps _ q (rackUnshown_tables hs es p) hq fun o _ hc => by
        rw [hplace] at hc
        cases hc
      refine ⟨x, hx, ?_, stays.bides.place.trans hplace⟩
      rw [stays.bides.blocked (by rw [hst]; exact blockedAt_isBlocked r .missing .unknown), hst]
    · obtain ⟨q, hq, stays⟩ := rackUnshown_stays (es := es) hs hr (p := o) (fun h => ho (by rw [hl] at h; cases h; rfl))
      have rest := ih _ q (rackUnshown_tables hs es o) hq ((List.mem_cons.mp hp).resolve_left ho)
        (stays.bides.place.trans hl) (by rw [stays.lies.label]; exact hn)
      rw [stays.bides.blockedFor (fun c hc => by rw [hl] at hc; cases hc)] at rest
      exact rest

theorem shownAt_occupied (h : shownAt es n = some l) : ∃ e ∈ es, e.occupied = true ∧ e.place = n ∧ e.label = l := by
  unfold shownAt at h
  obtain ⟨e, hf, rfl⟩ := Option.map_eq_some_iff.mp h
  have shown := List.find?_some hf
  rw [Bool.and_eq_true, beq_iff_eq] at shown
  exact ⟨e, List.mem_of_find?_eq_some hf, shown.2, shown.1, rfl⟩

theorem Hidden.unshown (h : Hidden es l) (n : Nat) : some l ≠ shownAt es n := fun e => by
  obtain ⟨x, hx, hocc, -, hlabel⟩ := shownAt_occupied e.symm
  exact h x hx hocc hlabel

theorem mem_rackIds (p : Fin 12) : p ∈ rackIds := by
  revert p
  decide

theorem firstPass_unshown (h : Hidden es l) (s : State) : Unshown l s (rackIds.foldl (shownTaken es) s) := by
  refine .foldl _ (fun p _ u => ?_) s
  unfold shownTaken
  split
  · next m hm =>
    refine rackInserted_unshown (fun e => ?_) p u
    subst e
    exact h.unshown p.val hm.symm
  · exact .refl

/-- R62, R107: a record of the rack whose label a RACK snapshot does not show. -/
theorem rackSnapshot_missing (hs : TablesOk s) (hr : s.record? j = some r) (hl : r.location = .rack p)
    (hidden : Hidden es r.label) : RecordIs (rackSnapshot es s) j
      (if r.state.isBlocked then r.state else .blocked .missing) .unknown := by
  obtain ⟨tables, stayed⟩ := firstPass_unshown hidden s hs
  obtain ⟨q, hq, stays⟩ := stayed j r hr rfl
  rw [rackSnapshot_eq, ← stays.bides.blockedFor (fun c hc => by rw [hl] at hc; cases hc)]
  exact secondPass_missing rackIds _ q tables hq (mem_rackIds p) (stays.bides.place.trans hl)
    (by rw [stays.lies.label]; exact hidden.unshown _)

end Sys2Proof.Machine
end

section
/-! What the events and the snapshots of the rack leave at a position (R102, R103, R107). -/

namespace Sys2Proof.Machine

variable {s t u v w : State} {i j k n : Nat} {p o : Fin 12} {r q new old : Record} {l : Label} {es : List SnapEntry}
  {who : Claimant}

/-! ## A position that takes nothing in -/

/-- A step that puts nothing into position p. -/
structure Vacates (p : Fin 12) (s t : State) : Prop where
  held : ∀ x, (t.position p).occupant = some x → (s.position p).occupant = some x

theorem Vacates.refl : Vacates p s s := ⟨fun _ h => h⟩

theorem Vacates.trans (h : Vacates p s t) (g : Vacates p t u) : Vacates p s u := ⟨fun x hx => h.held x (g.held x hx)⟩

theorem Vacates.foldl {α : Type} {f : State → α → State} (xs : List α) (hf : ∀ a u, Vacates p u (f u a)) :
    ∀ s, Vacates p s (xs.foldl f s) := by
  induction xs with
  | nil => exact fun _ => .refl
  | cons a xs ih => exact fun s => (hf a s).trans (ih (f s a))

theorem Vacates.of_rack (h : t.rack = s.rack) : Vacates p s t :=
  ⟨fun x hx => by
    simp only [State.position, h] at hx
    exact hx⟩

theorem RackStill.vacates (h : RackStill p s t) : Vacates p s t :=
  ⟨fun x hx => by rw [h.position] at hx; exact hx⟩

theorem setPosition_vacates {x : Position} (h : x.occupant = (s.position o).occupant ∨ x.occupant = none) :
    Vacates p s (setPosition o x s) := by
  refine ⟨fun y hy => ?_⟩
  by_cases ho : p = o
  · subst ho
    rw [setPosition_same] at hy
    rcases h with h | h <;> rw [h] at hy
    · exact hy
    · cases hy
  · rw [setPosition_other ho] at hy
    exact hy

theorem postRack_vacates (o : Fin 12) (event : RackEvent) (item : Option Occupant) (s : State) :
    Vacates p s (postRack o event item s) := .of_rack rfl

theorem emptyPosition_vacates (o : Fin 12) (s : State) : Vacates p s (emptyPosition o s) := by
  unfold emptyPosition
  dsimp only
  split
  · exact .refl
  · exact (setPosition_vacates (x := .empty) (.inr rfl)).trans (postRack_vacates ..)

theorem rackTold_vacates (i : Nat) (old : Record) (s : State) : Vacates p s (rackTold i old s) := by
  unfold rackTold
  split
  · dsimp only
    split
    · split
      · exact emptyPosition_vacates ..
      · split
        · next o _ _ _ _ _ _ =>
          exact (setPosition_vacates (o := o) (x := { s.position o with dwell := none, paused := false }) (.inl rfl)).trans
            (postRack_vacates ..)
        · exact .refl
    · exact .refl
  · exact .refl

theorem tellOthers_vacates (who : Claimant) (i : Nat) (old : Record) (s : State) : Vacates p s (tellOthers who i old s) := by
  have ends : ∀ w, Vacates p s w →
      Vacates p s (climateTold i (some old.location) (if who = .rack then w else rackTold i old w)) := fun w first => by
    refine Vacates.trans ?_ (climateTold_rackStill ..).vacates
    split
    · exact first
    · exact first.trans (rackTold_vacates i old w)
  cases who with
  | handover c => exact ends s .refl
  | _ => exact ends _ (handoverTold_rackStill i old s).vacates

theorem releaseEntry_vacates (i : Nat) (s : State) : Vacates p s (releaseEntry i s) := by
  unfold releaseEntry
  split
  · exact .refl
  · split
    · exact (basicChange_rackStill ..).vacates.trans (tellOthers_vacates ..)
    · exact (dropOrderSlot_rackStill ..).vacates

theorem finishOrder_vacates (k : Nat) (outcome : OOutcome) (s : State) : Vacates p s (finishOrder k outcome s) := by
  unfold finishOrder
  split
  · exact .refl
  · split
    · exact .refl
    · exact ((putOrder_rackStill ..).vacates.trans (.foldl _ (fun i u => releaseEntry_vacates i u) _)).trans
        (postOrder_rackStill ..).vacates

theorem orderTold_vacates (who : Claimant) (i : Nat) (s : State) : Vacates p s (orderTold who i s) := by
  unfold orderTold
  split
  · exact .refl
  · split
    · exact .refl
    · split
      · exact .refl
      · split
        · exact .refl
        · split
          · exact (evaluateOrder_rackStill ..).vacates
          · exact (evaluateOrder_rackStill ..).vacates
          · exact (evaluateOrder_rackStill ..).vacates
          · exact (evaluateOrder_rackStill ..).vacates
          · split
            · split
              · exact ((putOrder_rackStill ..).trans (postOrder_rackStill ..)).vacates
              · exact .refl
            all_goals exact .refl
          · exact (markHanded_rackStill ..).vacates
          · exact finishOrder_vacates ..
          all_goals exact .refl

theorem changeRecord_vacates (who : Claimant) (quiet : Bool) (i : Nat) (new : Record) (s : State) :
    Vacates p s (changeRecord who quiet i new s) := by
  unfold changeRecord
  split
  · exact .refl
  · have basic := (basicChange_rackStill (p := p) quiet i new s).vacates
    dsimp only
    split
    · exact (basic.trans (orderTold_vacates who i _)).trans (tellOthers_vacates ..)
    · exact basic.trans (tellOthers_vacates ..)

theorem claim_vacates (who : Claimant) (i : Nat) (expected : Record → Bool) (f : Record → Record) (s : State) :
    Vacates p s (claim who i expected f s) := by
  unfold claim
  split
  · exact .refl
  · split
    · exact changeRecord_vacates ..
    · exact .refl

theorem leavePosition_vacates (i : Nat) (o : Fin 12) (s : State) : Vacates p s (leavePosition i o s) := by
  unfold leavePosition
  split
  · exact emptyPosition_vacates ..
  · split <;> exact postRack_vacates ..

theorem completeDwell_vacates (o : Fin 12) (s : State) : Vacates p s (completeDwell o s) := by
  have placed : Vacates p s (setPosition o { s.position o with dwell := none, paused := false } s) :=
    setPosition_vacates (.inl rfl)
  unfold completeDwell
  dsimp only
  split
  · split
    · exact placed
    · split
      · split
        · exact placed.trans ((changeRecord_vacates ..).trans (postRack_vacates ..))
        all_goals exact placed
      · exact placed
  · exact .refl

theorem startDwell_vacates (o : Fin 12) (i : Nat) (s : State) : Vacates p s (startDwell o i s) := by
  have started : ∀ d b, Vacates p s (postRack o .started (some (.record i))
      (setPosition o { s.position o with dwell := d, paused := b } s)) := fun d b =>
    (setPosition_vacates (o := o) (x := { s.position o with dwell := d, paused := b }) (.inl rfl)).trans
      (postRack_vacates ..)
  unfold startDwell
  split
  · exact .refl
  · dsimp only
    split
    · exact (started _ _).trans (completeDwell_vacates o _)
    · exact started _ _

theorem takeIntoRack_vacates (h : p ≠ o) (i : Nat) (s : State) : Vacates p s (takeIntoRack i o s) := by
  have claimed : Vacates p s (claim .rack i (fun _ => true) (fun r => r.rackInserted o)
      (setPosition o { occupant := some (.record i), dwell := none, paused := false } s)) :=
    (setPosition_rackStill h _ s).vacates.trans (claim_vacates _ _ _ _ _)
  unfold takeIntoRack
  dsimp only
  split
  · exact claimed
  · split
    · exact claimed.trans (startDwell_vacates ..)
    all_goals exact claimed.trans (postRack_vacates ..)

theorem rackDepart_vacates (i : Nat) (o : Fin 12) (s : State) : Vacates p s (rackDepart i o s) :=
  (leavePosition_vacates i o s).trans (claim_vacates _ _ _ _ _)

/-- A position that has been left holds the record no more. -/
theorem leavePosition_left (i : Nat) (p : Fin 12) (s : State) :
    ((leavePosition i p s).position p).occupant ≠ some (.record i) := by
  intro h
  have before := (leavePosition_vacates i p s).held _ h
  unfold leavePosition at h
  rw [if_pos before, emptyPosition_empty (by rw [before]; exact nofun)] at h
  cases h

/-! ## A position whose record lies there -/

/-- A step that puts nothing into position p, and leaves its record located there, if it was. -/
structure Shrinks (p : Fin 12) (s t : State) : Prop where
  vacates : Vacates p s t
  located : ∀ j r, (t.position p).occupant = some (.record j) → s.record? j = some r → r.location = .rack p →
    ∃ q, t.record? j = some q ∧ q.location = .rack p

theorem Shrinks.refl : Shrinks p s s := ⟨.refl, fun _ r _ hr hl => ⟨r, hr, hl⟩⟩

theorem Shrinks.trans (h : Shrinks p s t) (g : Shrinks p t u) : Shrinks p s u :=
  ⟨h.vacates.trans g.vacates, fun j r hu hr hl => by
    obtain ⟨q, hq, hql⟩ := h.located j r (g.vacates.held _ hu) hr hl
    exact g.located j q hu hq hql⟩

theorem Shrinks.foldl {α : Type} {f : State → α → State} (xs : List α) (hf : ∀ a ∈ xs, ∀ u, Shrinks p u (f u a)) :
    ∀ s, Shrinks p s (xs.foldl f s) := by
  induction xs with
  | nil => exact fun _ => .refl
  | cons a xs ih =>
    exact fun s => (hf a List.mem_cons_self s).trans (ih (fun b hb => hf b (List.mem_cons_of_mem _ hb)) (f s a))

theorem Shrinks.of_besides (hv : Vacates p s t) (hb : Besides i s t)
    (hi : (t.position p).occupant = some (.record i) → ∀ r, s.record? i = some r → r.location ≠ .rack p) : Shrinks p s t :=
  ⟨hv, fun j r hj hr hl => by
    by_cases e : j = i
    · subst e
      exact absurd hl (hi hj r hr)
    · obtain ⟨q, hq, stays⟩ := hb j e r hr
      exact ⟨q, hq, stays.bides.place.trans hl⟩⟩

theorem missedDeparture_shrinks (i : Nat) (place : Location) (s : State) : Shrinks p s (missedDeparture i place s) := by
  unfold missedDeparture
  split
  · exact .refl
  · next r hr =>
    split
    · exact .refl
    · split
      · next hl =>
        exact .of_besides (claim_vacates _ _ _ _ _) (claim_besides _ i _ _ _) fun _ q hq h => by
          cases hr.symm.trans hq
          rw [hl] at h
          cases h
      · next o hl =>
        refine .of_besides (rackDepart_vacates ..) (rackDepart_besides i o s) fun hocc q hq h => ?_
        cases hr.symm.trans hq
        rw [hl] at h
        cases h
        exact leavePosition_left i p s ((claim_vacates .rack i _ _ _).held _ hocc)
      all_goals exact .refl

/-- R56: a record that has left the place it is recorded in is in no position of the rack. -/
theorem missedDeparture_location (hr : s.record? i = some r) {place : Location} (hl : r.location ≠ place) :
    ∃ q, (missedDeparture i place s).record? i = some q ∧ ∀ o, q.location ≠ .rack o := by
  unfold missedDeparture
  rw [hr]
  dsimp only
  rw [if_neg hl]
  split
  · obtain ⟨⟨y, hy, becomes⟩, -⟩ := claim_changed .custody hr (expected := fun _ => true) rfl Record.shelfDeparted
    exact ⟨y, hy, fun o h => by rw [becomes.location, (shelfDeparted_record r).1] at h; cases h⟩
  · next o' _ =>
    have hr' : (leavePosition i o' s).record? i = some r := (record?_congr (leavePosition_custody ..) i).trans hr
    obtain ⟨⟨y, hy, becomes⟩, -⟩ := claim_changed .rack hr' (expected := fun _ => true) rfl
      (fun r => r.rackDeparted o' ((leavePosition i o' s).param .carryWindow * 60000))
    exact ⟨y, hy, fun o h => by rw [becomes.location, rackDeparted_location] at h; cases h⟩
  all_goals
    next e => exact ⟨r, hr, fun o h => by rw [e] at h; cases h⟩

theorem takeIntoRack_shrinks (h : p ≠ o) (hi : ∀ r, s.record? i = some r → r.location ≠ .rack p) :
    Shrinks p s (takeIntoRack i o s) :=
  .of_besides (takeIntoRack_vacates h i s) (takeIntoRack_besides i o s) fun _ => hi

/-- R107: the first pass at another position. -/
theorem rackInserted_shrinks (h : p ≠ o) (l : Label) (s : State) : Shrinks p s (rackInserted true o l s) := by
  unfold rackInserted
  split
  · dsimp only
    split
    · exact ⟨.of_rack rfl, fun _ r _ hr hl => ⟨r, hr, hl⟩⟩
    · rw [if_pos rfl]
      refine ⟨?_, fun _ r _ hr hl => ⟨r, hr, hl⟩⟩
      exact (Vacates.of_rack (s := s) (t := post _ s) rfl).trans ((setPosition_rackStill h ..).vacates.trans (postRack_vacates ..))
  · next i _ =>
    split
    · exact .refl
    · next r hr =>
      split
      · next hl =>
        split
        · refine takeIntoRack_shrinks h fun q hq e => ?_
          cases hr.symm.trans hq
          rw [hl] at e
          cases e
          exact h rfl
        · exact .refl
      · next hl =>
        dsimp only
        rw [if_pos rfl]
        obtain ⟨q, hq, hplace⟩ := missedDeparture_location hr hl
        refine (missedDeparture_shrinks ..).trans (takeIntoRack_shrinks h fun x hx => ?_)
        cases hq.symm.trans hx
        exact hplace p

/-- R107: records that lie elsewhere marked MISSING. -/
theorem missAll_shrinks (is : List Nat) : ∀ s, (∀ i ∈ is, ∃ r, s.record? i = some r ∧ r.location ≠ .rack p) →
    Shrinks p s (is.foldl (fun s i => markMissing .rack i (leavePosition i o s)) s) := by
  induction is with
  | nil => exact fun _ _ => .refl
  | cons i is ih =>
    intro s h
    obtain ⟨r, hr, hl⟩ := h i List.mem_cons_self
    refine Shrinks.trans (.of_besides ((leavePosition_vacates ..).trans (claim_vacates _ _ _ _ _))
      ((leavePosition_misses o).others i s) fun _ q hq => ?_) (ih _ fun k hk => ?_)
    · cases hr.symm.trans hq
      exact hl
    · obtain ⟨x, hx, hplace⟩ := h k (List.mem_cons_of_mem _ hk)
      by_cases e : k = i
      · subst e
        obtain ⟨y, hy, -, hy'⟩ := (leavePosition_misses o).missed k s x hx
        exact ⟨y, hy, by rw [hy']; exact nofun⟩
      · obtain ⟨y, hy, stays⟩ := (leavePosition_misses o).others i s k e x hx
        exact ⟨y, hy, by rw [stays.bides.place]; exact hplace⟩

theorem rackUnshown_vacates (es : List SnapEntry) (o : Fin 12) (s : State) : Vacates p s (rackUnshown es o s) := by
  have missed : Vacates p s (unshownMissed es o s) :=
    .foldl _ (fun i u => (leavePosition_vacates i o u).trans (claim_vacates _ _ _ _ _)) s
  rcases rackUnshown_eq es o s with e | e <;> rw [e]
  · exact missed
  · exact missed.trans (emptyPosition_vacates ..)

/-- R107: the second pass at another position. -/
theorem rackUnshown_shrinks (hs : TablesOk s) (h : p ≠ o) : Shrinks p s (rackUnshown es o s) := by
  have missed : Shrinks p s (unshownMissed es o s) := missAll_shrinks _ s fun i hi => by
    obtain ⟨r, hr, hl, -⟩ := (mem_unshownAt hs).mp hi
    exact ⟨r, hr, fun e => by rw [hl] at e; cases e; exact h rfl⟩
  refine ⟨rackUnshown_vacates es o s, fun j r hj hr hl => ?_⟩
  have before : ((unshownMissed es o s).position p).occupant = some (.record j) := by
    rcases rackUnshown_eq es o s with e | e <;> rw [e] at hj
    · exact hj
    · exact (emptyPosition_vacates o _).held _ hj
  obtain ⟨q, hq, hql⟩ := missed.located j r before hr hl
  exact ⟨q, (record?_congr (rackUnshown_custody ..) j).trans hq, hql⟩

/-- The record that a position holds is located there. -/
def Located (p : Fin 12) (s : State) : Prop :=
  ∀ j, (s.position p).occupant = some (.record j) → (s.record? j).map (·.location) = some (.rack p)

theorem Shrinks.keepsLocated (h : Shrinks p s t) (hs : Located p s) : Located p t := fun j hj => by
  obtain ⟨r, hr, hl⟩ := Option.map_eq_some_iff.mp (hs j (h.vacates.held _ hj))
  obtain ⟨q, hq, hql⟩ := h.located j r hj hr hl
  rw [hq]
  exact congrArg some hql

/-- Records marked MISSING at their position are held there no more. -/
theorem missAll_left (is : List Nat) : ∀ s, i ∈ is →
    ((is.foldl (fun s i => markMissing .rack i (leavePosition i p s)) s).position p).occupant ≠ some (.record i) := by
  induction is with
  | nil => exact fun _ h => absurd h List.not_mem_nil
  | cons k is ih =>
    intro s hi h
    have rest : Vacates p (markMissing .rack k (leavePosition k p s))
        (is.foldl (fun s i => markMissing .rack i (leavePosition i p s)) (markMissing .rack k (leavePosition k p s))) :=
      .foldl _ (fun i u => (leavePosition_vacates i p u).trans (claim_vacates _ _ _ _ _)) _
    rcases List.mem_cons.mp hi with rfl | hi
    · exact leavePosition_left i p s ((claim_vacates .rack i _ _ _).held _ (rest.held _ h))
    · exact ih _ hi h

/-- R107: the second pass at a position shown empty. -/
theorem rackUnshown_empties (hs : TablesOk s) (hl : Located p s) (hn : shownAt es p.val = none) :
    ((rackUnshown es p s).position p).occupant = none := by
  have missed : Vacates p s (unshownMissed es p s) :=
    .foldl _ (fun i u => (leavePosition_vacates i p u).trans (claim_vacates _ _ _ _ _)) s
  have unheld : ∀ j, ((unshownMissed es p s).position p).occupant ≠ some (.record j) := fun j hj => by
    obtain ⟨r, hr, hloc⟩ := Option.map_eq_some_iff.mp (hl j (missed.held _ hj))
    exact missAll_left _ s ((mem_unshownAt hs).mpr ⟨r, hr, hloc, by rw [hn]; exact nofun⟩) hj
  have e : rackUnshown es p s = match ((unshownMissed es p s).position p).occupant, shownAt es p.val with
      | some (.foreign _), none => emptyPosition p (unshownMissed es p s)
      | _, _ => unshownMissed es p s := rfl
  rw [e, hn]
  cases hocc : ((unshownMissed es p s).position p).occupant with
  | none => exact hocc
  | some x =>
    cases x with
    | record j => exact absurd hocc (unheld j)
    | foreign l => exact congrArg Position.occupant (emptyPosition_empty (by rw [hocc]; exact nofun))

theorem secondPass_empties (hn : shownAt es p.val = none) (ps : List (Fin 12)) : ∀ s, TablesOk s → Located p s → p ∈ ps →
    ((ps.foldl (fun s o => rackUnshown es o s) s).position p).occupant = none := by
  induction ps with
  | nil => exact fun _ _ _ h => absurd h List.not_mem_nil
  | cons o ps ih =>
    intro s hs hl hp
    by_cases ho : p = o
    · subst ho
      have rest : Vacates p (rackUnshown es p s) (ps.foldl (fun s o => rackUnshown es o s) (rackUnshown es p s)) :=
        .foldl _ (fun o u => rackUnshown_vacates es o u) _
      have empty := rackUnshown_empties hs hl hn
      rw [List.foldl_cons]
      cases hocc : ((ps.foldl (fun s o => rackUnshown es o s) (rackUnshown es p s)).position p).occupant with
      | none => rfl
      | some x =>
        have held := rest.held x hocc
        rw [empty] at held
        cases held
    · exact ih _ (rackUnshown_tables hs es o) ((rackUnshown_shrinks hs ho).keepsLocated hl)
        ((List.mem_cons.mp hp).resolve_left ho)

theorem firstPass_tables (hs : TablesOk s) (es : List SnapEntry) : TablesOk (rackIds.foldl (shownTaken es) s) := by
  have m : Moves .all s (rackIds.foldl (shownTaken es) s) := by
    refine Moves.foldl _ (fun p u hu => ?_) .refl
    unfold shownTaken
    split
    · apply rackInserted_moves true p _ hu <;> trivial
    · exact hu
  exact m.tablesOk hs

/-- R107: a position that the snapshot shows empty is empty. -/
theorem rackSnapshot_empties (hs : TablesOk s) (hl : Located p s) (hn : shownAt es p.val = none) :
    ((rackSnapshot es s).position p).occupant = none := by
  have first : Shrinks p s (rackIds.foldl (shownTaken es) s) := by
    refine .foldl _ (fun o _ u => ?_) s
    unfold shownTaken
    split
    · next l ho => exact rackInserted_shrinks (by rintro rfl; rw [hn] at ho; cases ho) l u
    · exact .refl
  rw [rackSnapshot_eq]
  exact secondPass_empties hn rackIds _ (firstPass_tables hs es) (first.keepsLocated hl) (mem_rackIds p)

/-! ## A foreign label over a record -/

/-- R107: a record that stood alone in the rack, under a foreign label at its position. -/
structure Overlaid (p : Fin 12) (l : Label) (j : Nat) (q : Record) (es : List SnapEntry) (s : State) : Prop where
  tables : TablesOk s
  record : s.record? j = some q
  place : q.location = .rack p
  alone : ∀ k y, s.record? k = some y → k ≠ j → ∀ o, y.location ≠ .rack o
  only : ∀ e ∈ es, e.occupied = true → e.place = p.val
  shown : shownAt es p.val = some l
  foreign : findLabel s l = none
  hidden : Hidden es q.label

theorem Overlaid.congr (h : Overlaid p l j q es s) (hc : t.custody = s.custody) (ht : TablesOk t) : Overlaid p l j q es t where
  tables := ht
  record := (record?_congr hc j).trans h.record
  place := h.place
  alone k y hy := h.alone k y ((record?_congr hc k).symm.trans hy)
  only := h.only
  shown := h.shown
  foreign := by
    have f := h.foreign
    unfold findLabel at f ⊢
    rw [hc]
    exact f
  hidden := h.hidden

theorem Overlaid.others (h : Overlaid p l j q es s) (ho : p ≠ o) : shownAt es o.val = none := by
  cases hs : shownAt es o.val with
  | none => rfl
  | some m =>
    obtain ⟨e, he, hocc, hplace, -⟩ := shownAt_occupied hs
    exact absurd (Fin.ext ((h.only e he hocc).symm.trans hplace)) ho

/-- R107: the first pass puts the foreign label into the position. -/
theorem Overlaid.firstStep (h : Overlaid p l j q es s)
    (hp : (s.position p).occupant = some (.record j) ∨ s.position p = ⟨some (.foreign l), none, false⟩) :
    (shownTaken es s p).custody = s.custody ∧ (shownTaken es s p).position p = ⟨some (.foreign l), none, false⟩ := by
  unfold shownTaken
  rw [h.shown]
  dsimp only
  unfold rackInserted
  rw [h.foreign]
  dsimp only
  rw [if_pos rfl]
  split
  · next hf =>
    refine ⟨rfl, ?_⟩
    rcases hp with hp | hp
    · have held : ((post (.foreignLabel l (.rack p)) s).position p).occupant = some (.record j) := hp
      rw [held] at hf
      cases hf.2
    · exact hp
  · exact ⟨rfl, setPosition_same ..⟩

theorem Overlaid.firstPass (ps : List (Fin 12)) : ∀ s, Overlaid p l j q es s → (p ∈ ps ∨
    s.position p = ⟨some (.foreign l), none, false⟩) → ((s.position p).occupant = some (.record j) ∨
      s.position p = ⟨some (.foreign l), none, false⟩) →
    (ps.foldl (shownTaken es) s).custody = s.custody ∧
      (ps.foldl (shownTaken es) s).position p = ⟨some (.foreign l), none, false⟩ := by
  induction ps with
  | nil => exact fun s _ h _ => ⟨rfl, h.resolve_left List.not_mem_nil⟩
  | cons o ps ih =>
    intro s h hin hp
    rw [List.foldl_cons]
    by_cases ho : p = o
    · subst ho
      obtain ⟨custody, position⟩ := h.firstStep hp
      have tables : TablesOk (shownTaken es s p) := by
        have m : Moves .all s (shownTaken es s p) := by
          unfold shownTaken
          rw [h.shown]
          apply rackInserted_moves true p l .refl <;> trivial
        exact m.tablesOk h.tables
      obtain ⟨rest, held⟩ := ih _ (h.congr custody tables) (.inr position) (.inr position)
      exact ⟨rest.trans custody, held⟩
    · have e : shownTaken es s o = s := by
        unfold shownTaken
        rw [h.others ho]
      rw [e]
      exact ih s h (hin.imp (fun hm => (List.mem_cons.mp hm).resolve_left ho) id) hp

/-- No record lies at the other positions. -/
theorem Overlaid.unshownAt_nil (h : Overlaid p l j q es s) (ho : p ≠ o) : unshownAt es o s = [] := by
  refine List.eq_nil_iff_forall_not_mem.mpr fun k hk => ?_
  obtain ⟨r, hr, hl, -⟩ := (mem_unshownAt h.tables).mp hk
  by_cases e : k = j
  · subst e
    cases h.record.symm.trans hr
    rw [h.place] at hl
    cases hl
    exact ho rfl
  · exact h.alone k r hr e o hl

theorem recordsWhere_nodup (hs : TablesOk s) (f : Record → Bool) : (recordsWhere s f).Nodup := by
  have places : (s.custody.records.map (·.1)).Nodup := hs.places.imp Nat.ne_of_lt
  exact places.sublist (List.filter_sublist.map _)

theorem Overlaid.unshownAt_self (h : Overlaid p l j q es s) : unshownAt es p s = [j] := by
  have nodup : (unshownAt es p s).Nodup := recordsWhere_nodup h.tables _
  have only : ∀ k, k ∈ unshownAt es p s → k = j := fun k hk => by
    obtain ⟨r, hr, hl, -⟩ := (mem_unshownAt h.tables).mp hk
    by_contra e
    exact h.alone k r hr e p hl
  have mem : j ∈ unshownAt es p s := (mem_unshownAt h.tables).mpr ⟨q, h.record, h.place, h.hidden.unshown _⟩
  generalize unshownAt es p s = is at nodup only mem
  cases is with
  | nil => exact absurd mem List.not_mem_nil
  | cons a as =>
    cases only a List.mem_cons_self
    cases as with
    | nil => rfl
    | cons b bs =>
      cases only b (List.mem_cons_of_mem _ List.mem_cons_self)
      exact absurd List.mem_cons_self (List.nodup_cons.mp nodup).1

/-- R107: a position with a foreign label stands through the second pass of another. -/
theorem rackUnshown_still (ho : p ≠ o) (hp : s.position p = ⟨some (.foreign l), none, false⟩) (es : List SnapEntry) :
    RackStill p s (rackUnshown es o s) := by
  have all : ∀ (is : List Nat) (u : State), u.position p = ⟨some (.foreign l), none, false⟩ →
      RackStill p u (is.foldl (fun s i => markMissing .rack i (leavePosition i o s)) u) := by
    intro is
    induction is with
    | nil => exact fun _ _ => .refl
    | cons i is ih =>
      intro u hu
      have left : RackStill p u (leavePosition i o u) := by
        unfold leavePosition
        split
        · exact emptyPosition_rackStill ho u
        · split <;> exact postRack_rackStill ho ..
      have marked : RackStill p u (markMissing .rack i (leavePosition i o u)) :=
        left.trans (claim_rackStill (fun k _ h => by rw [left.position, hu] at h; cases h) (.inl rfl))
      exact marked.trans (ih _ (marked.position.trans hu))
  have missed : RackStill p s (unshownMissed es o s) := all _ s hp
  rcases rackUnshown_eq es o s with e | e <;> rw [e]
  · exact missed
  · exact missed.trans (emptyPosition_rackStill ho _)

theorem secondPass_still (hp : s.position p = ⟨some (.foreign l), none, false⟩) (ps : List (Fin 12)) (hps : p ∉ ps) :
    RackStill p s (ps.foldl (fun s o => rackUnshown es o s) s) := by
  induction ps generalizing s with
  | nil => exact .refl
  | cons o ps ih =>
    rw [List.mem_cons, not_or] at hps
    have step := rackUnshown_still hps.1 hp es
    exact step.trans (ih (step.position.trans hp) hps.2)

/-- R107: the departure of the record under the foreign label. -/
def overlaidEvent (st : CState) : RackEvent :=
  match st with
  | .conditioning _ => .interrupted
  | _ => .removed

theorem Overlaid.unshown (h : Overlaid p l j q es s) (hp : s.position p = ⟨some (.foreign l), none, false⟩) :
    (rackUnshown es p s).position p = ⟨some (.foreign l), none, false⟩ ∧
      (rackUnshown es p s).notices.pending.get? (39 + p.val) =
        some (.rackPosition p (overlaidEvent q.state) true false (some j) none none) := by
  have left : leavePosition j p s = postRack p (overlaidEvent q.state) (some (.record j)) s := by
    unfold leavePosition overlaidEvent
    rw [if_neg (by rw [hp]; exact nofun), h.record]
    simp only [Option.map_some]
    cases q.state <;> rfl
  have posted := postRack_same p (overlaidEvent q.state) (some (.record j)) s
  rw [hp] at posted
  have position : (postRack p (overlaidEvent q.state) (some (.record j)) s).position p = ⟨some (.foreign l), none, false⟩ := hp
  have marked : RackStill p (postRack p (overlaidEvent q.state) (some (.record j)) s)
      (markMissing .rack j (postRack p (overlaidEvent q.state) (some (.record j)) s)) :=
    claim_rackStill (fun k _ hk => by rw [position] at hk; cases hk) (.inl rfl)
  have missed : unshownMissed es p s = markMissing .rack j (postRack p (overlaidEvent q.state) (some (.record j)) s) := by
    unfold unshownMissed
    rw [h.unshownAt_self, List.foldl_cons, List.foldl_nil, left]
  have e : rackUnshown es p s = match ((unshownMissed es p s).position p).occupant, shownAt es p.val with
      | some (.foreign _), none => emptyPosition p (unshownMissed es p s)
      | _, _ => unshownMissed es p s := rfl
  have held := marked.position.trans position
  rw [e, h.shown, missed, held]
  exact ⟨held, marked.notice.trans posted⟩

theorem Overlaid.secondPass (ps : List (Fin 12)) : ∀ s, Overlaid p l j q es s → p ∈ ps → ps.Nodup →
    s.position p = ⟨some (.foreign l), none, false⟩ →
    (ps.foldl (fun s o => rackUnshown es o s) s).position p = ⟨some (.foreign l), none, false⟩ ∧
      (ps.foldl (fun s o => rackUnshown es o s) s).notices.pending.get? (39 + p.val) =
        some (.rackPosition p (overlaidEvent q.state) true false (some j) none none) := by
  induction ps with
  | nil => exact fun _ _ h => absurd h List.not_mem_nil
  | cons o ps ih =>
    intro s h hin hnd hp
    obtain ⟨hno, hnd⟩ := List.nodup_cons.mp hnd
    rw [List.foldl_cons]
    by_cases ho : p = o
    · subst ho
      obtain ⟨position, notice⟩ := h.unshown hp
      have rest := secondPass_still (es := es) position ps hno
      exact ⟨rest.position.trans position, rest.notice.trans notice⟩
    · have custody : (rackUnshown es o s).custody = s.custody := by
        rw [rackUnshown_custody, unshownMissed, h.unshownAt_nil ho]
        rfl
      exact ih _ (h.congr custody (rackUnshown_tables h.tables es o)) ((List.mem_cons.mp hin).resolve_left ho) hnd
        ((rackUnshown_still ho hp es).position.trans hp)

/-- R107: the foreign label stays, and the record's departure is the position's last event. -/
theorem Overlaid.snapshot (h : Overlaid p l j q es s) (hp : (s.position p).occupant = some (.record j)) :
    (rackSnapshot es s).position p = ⟨some (.foreign l), none, false⟩ ∧
      (rackSnapshot es s).notices.pending.get? (39 + p.val) =
        some (.rackPosition p (overlaidEvent q.state) true false (some j) none none) := by
  obtain ⟨custody, position⟩ := Overlaid.firstPass rackIds s h (.inl (mem_rackIds p)) (.inl hp)
  rw [rackSnapshot_eq]
  exact Overlaid.secondPass rackIds _ (h.congr custody (firstPass_tables h.tables es)) (mem_rackIds p) (by decide) position

end Sys2Proof.Machine
end

section
/-! The reports of the rack's node and of the shelves' nodes as a whole (R56 to R60, R62, R99 to R107). -/

namespace Sys2Proof.Machine

variable {s t u v : State} {i j k : Nat} {n : Node} {x : Transaction} {r : Report} {p : Fin 12} {l : Label} {q : Record}

theorem findLabel_congr (h : t.custody = s.custody) (l : Label) : findLabel t l = findLabel s l := by
  unfold findLabel
  rw [h]

theorem findAt_congr (h : t.custody = s.custody) (place : Location) : findAt t place = findAt s place := by
  unfold findAt
  rw [h]

/-- R57: of no other record at a place none is found. -/
theorem findOtherAt_none (hs : TablesOk s) {place : Location} (h : ∀ k y, s.record? k = some y → y.location ≠ place) (j : Nat) :
    findOtherAt s place j = none := by
  unfold findOtherAt
  rw [Option.map_eq_none_iff, List.find?_eq_none]
  rintro ⟨k, y⟩ hk hy
  rw [Bool.and_eq_true, beq_iff_eq] at hy
  exact h k y (Table.get?_of_mem hs.records hk) hy.1

/-- A kind with snapshots, but the HATCH node: the state in which its items are handed over differs in the blocks of the
link alone. -/
theorem Ready.quiet {ns : NodeState} (h : Ready i n x ns s v) (hsnap : n.kind.hasSnapshot = true) (hk : n.kind ≠ .hatch) :
    Moves .onlining s v := by
  obtain ⟨frame, y, hnodes, -⟩ := h
  have untold : Moves .onlining s (onlined i n x s) := onlined_untold (healthTold_snapshot hsnap)
  have before := (handState_entered i n x ns s).1
  rw [handState_snapshot hsnap hk] at frame before
  rw [frame]
  refine .nodes _ trivial (fun hr => ?_) untold
  rw [hnodes, ← Table.put_put s.nodes i (n.online s x) y, ← before]
  exact Table.put_rising hr

theorem report_batch {report : List Byte} {e : FieldEvent} (hv : ValidAnswer s x i n report r)
    (hsnap : n.kind.hasSnapshot = true) (hk : n.kind ≠ .hatch) (hb : NewBatch n r [e]) :
    ∃ v t, Takes (.fieldReportReceived report) s t ∧ Moves .onlining (startEvent s) v ∧
      Closed (handEvent n.binding.target e v) t := by
  obtain ⟨t, takes, closed⟩ := report_taken hv
  obtain ⟨v, ready, e'⟩ := handed_batch (x := x) (i := i) ((readState n.kind r.state).getD .none) hb (startEvent s)
  rw [e'] at closed
  exact ⟨v, t, takes, ready.quiet hsnap hk, closed⟩

theorem report_snapshot {report : List Byte} {es : List SnapEntry} (hv : ValidAnswer s x i n report r)
    (hsnap : n.kind.hasSnapshot = true) (hk : n.kind ≠ .hatch) (hb : WholeSnapshot n r es) :
    ∃ v t, Takes (.fieldReportReceived report) s t ∧ Moves .onlining (startEvent s) v ∧
      Closed (handSnapshot n.binding.target es v) t := by
  obtain ⟨t, takes, closed⟩ := report_taken hv
  obtain ⟨v, ready, e'⟩ := handed_snapshot (x := x) (i := i) ((readState n.kind r.state).getD .none) hb (startEvent s)
  rw [e'] at closed
  exact ⟨v, t, takes, ready.quiet hsnap hk, closed⟩

theorem Closed.recordIs {st : CState} {place : Location} (h : Closed s t) (hr : RecordIs s j st place) :
    RecordIs t j st place := by
  obtain ⟨y, hy, is⟩ := hr
  exact ⟨y, (record?_congr (h.moves.custody_eq id) j).trans hy, is⟩

theorem Closed.position (h : Closed s t) (p : Fin 12) : t.position p = s.position p := position_congr (h.moves.rack_eq id) p

theorem Closed.record (h : Closed s t) (j : Nat) : t.record? j = s.record? j := record?_congr (h.moves.custody_eq id) j

theorem Closed.notice (h : Closed s t) (k : Nat) : t.notices.pending.get? k = s.notices.pending.get? k := by
  rw [h.moves.notices_eq id]

theorem handEvent_rackInserted (p : Fin 12) (l : Label) (s : State) :
    handEvent .rack (.inserted p.val l) s = rackInserted false p l s := dif_pos p.isLt

theorem handEvent_rackRemoved (p : Fin 12) (s : State) : handEvent .rack (.removed p.val) s = rackRemoved p s :=
  dif_pos p.isLt

theorem handEvent_shelfInserted {base limit slot : Nat} (hb : base ≤ slot) (hl : slot ≤ limit) (l : Label) (s : State) :
    handEvent (.shelf base limit) (.inserted slot l) s = shelfInserted false slot l s := if_pos ⟨hb, hl⟩

theorem handEvent_shelfRemoved {base limit slot : Nat} (hb : base ≤ slot) (hl : slot ≤ limit) (s : State) :
    handEvent (.shelf base limit) (.removed slot) s = shelfRemoved slot s := if_pos ⟨hb, hl⟩

theorem handSnapshot_rack (es : List SnapEntry) (s : State) : handSnapshot .rack es s = rackSnapshot es s := rfl

theorem handSnapshot_shelf (base limit : Nat) (es : List SnapEntry) (s : State) :
    handSnapshot (.shelf base limit) es s = shelfSnapshot base limit es s := rfl

/-! ## The timers -/

theorem dwellEnds_ready {left : Nat} {q : Record} {d : Direction} (hp : s.position p = ⟨some (.record i), some left, false⟩)
    (hr : s.record? i = some q) (hs : q.state = .conditioning d) (hl : q.location = .rack p) :
    (dwellEnds p s).record? i = some { q with state := .ready d, exposed := false, custodian := none, carry := none } ∧
      (dwellEnds p s).position p = ⟨some (.record i), none, false⟩ ∧
      (∀ j, j ≠ i → (dwellEnds p s).record? j = s.record? j) ∧ KeepsLayout s (dwellEnds p s) ∧
      (dwellEnds p s).fire = s.fire ∧ (dwellEnds p s).climate = s.climate ∧ (dwellEnds p s).hatch = s.hatch := by
  have e : dwellEnds p s = completeDwell p s := if_neg (by rw [hp]; exact Bool.false_ne_true)
  have held := setPosition_same p ⟨some (.record i), none, false⟩ s
  have hr' : (setPosition p ⟨some (.record i), none, false⟩ s).record? i = some q := hr
  obtain ⟨record, others⟩ := changeRecord_exact (new := { q with state := .ready d, exposed := false }) .rack false hr' rfl
    rfl nofun
  have still := changeRecord_rackStill (p := p) (who := .rack) (i := i) false (s := setPosition p ⟨some (.record i), none, false⟩ s)
    (fun k hk h => by rw [held] at h; cases h; exact hk rfl) (.inl rfl) { q with state := .ready d, exposed := false }
  obtain ⟨layout, fire, climate, hatch⟩ := changeRecord_layout .rack false i { q with state := .ready d, exposed := false }
    (setPosition p ⟨some (.record i), none, false⟩ s)
  rw [e, completeDwell_ready hp hr hl hs]
  generalize changeRecord .rack false i { q with state := .ready d, exposed := false }
    (setPosition p ⟨some (.record i), none, false⟩ s) = w at record others still layout fire climate hatch
  obtain ⟨settings, nodes, roster, image, outside⟩ := layout
  refine ⟨record.trans (congrArg some ?_), still.position.trans held, others,
    ⟨settings, nodes, roster, image, outside⟩, fire, climate, hatch⟩
  simp [normalise, custodianOf, carryOf, hl]

/-- A state that differs by a notice of the rack at most. -/
theorem carryExpired_picked {w : Carry} (hr : s.record? i = some q) (hs : q.state = .ready .outbound)
    (hl : q.location = .inHand) (hw : q.carry = some w) :
    (carryExpired i s).record? i = some { q with state := .picked, custodian := none, carry := none } ∧
      (∀ p, w.origin = some p → ∃ occupied paused dwell, (carryExpired i s).notices.pending.get? (39 + p.val) =
        some (.rackPosition p .carryExpired occupied paused (some i) none dwell)) ∧
      (∀ j, j ≠ i → (carryExpired i s).record? j = s.record? j) ∧ KeepsLayout s (carryExpired i s) ∧
      (carryExpired i s).fire = s.fire ∧ (carryExpired i s).climate = s.climate ∧ (carryExpired i s).hatch = s.hatch := by
  obtain ⟨record, others⟩ := changeRecord_exact (new := { q with state := .picked }) .rack false hr rfl rfl nofun
  obtain ⟨layout, fire, climate, hatch⟩ := changeRecord_layout .rack false i { q with state := .picked } s
  have e : carryExpired i s = match w.origin with
      | some p => postRack p .carryExpired (some (.record i)) (changeRecord .rack false i { q with state := .picked } s)
      | none => changeRecord .rack false i { q with state := .picked } s := by
    unfold carryExpired
    rw [hr]
    dsimp only
    rw [hw]
    dsimp only
    exact if_pos ⟨hs, hl⟩
  have new : normalise { q with state := .picked } = { q with state := .picked, custodian := none, carry := none } := by
    simp [normalise, custodianOf, carryOf]
  rw [e]
  generalize changeRecord .rack false i { q with state := .picked } s = v at record others layout fire climate hatch
  cases w.origin with
  | none => exact ⟨record.trans (congrArg some new), nofun, others, layout, fire, climate, hatch⟩
  | some o =>
    obtain ⟨settings, nodes, roster, image, outside⟩ := layout
    refine ⟨record.trans (congrArg some new), fun p hp => ?_, others, ⟨settings, nodes, roster, image, outside⟩, fire, climate, hatch⟩
    cases hp
    exact ⟨_, _, _, postRack_same ..⟩

/-! ## The reports -/

/-- What an event or a snapshot is handed in: the records, the rack, the settings and the readings as they were. -/
structure Handing (s v : State) : Prop where
  custody : v.custody = s.custody
  rack : v.rack = s.rack
  settings : v.settings = s.settings
  climate : v.climate = s.climate
  tables : TablesOk s → TablesOk v

theorem Handing.of_moves (m : Moves .onlining (startEvent s) v) : Handing s v :=
  ⟨m.custody_eq id, m.rack_eq id, m.settings_eq id, m.climate_eq id, fun h => m.tablesOk (s := startEvent s) h⟩

theorem Handing.dwellMinutes (h : Handing s v) (n : Nat) (e : Bool) :
    dwellMinutes v (v.airAt roomPoint).reading (homeReading v n) e =
      Machine.dwellMinutes s (s.airAt roomPoint).reading (homeReading s n) e := by
  rw [dwellMinutes_congr h.settings, homeReading_congr h.settings h.climate]
  simp only [State.airAt, h.climate]

end Sys2Proof.Machine

namespace Sys2Proof

open Machine

/-- Settles O45, timer by timer, event by event, and for the snapshots pass by pass. -/
theorem rackTimersExpire : Obligations.RackTimersExpire := by
  intro s hup keeps
  refine ⟨fun p i d left r hp hr hs hl => ?_, fun i r w hr hs hl hw => ?_, fun x i n report r hvalid hg => ?_,
    fun x i n report r base limit hvalid hg => ?_⟩
  · obtain ⟨record, position, others, layout, rest⟩ := dwellEnds_ready (s := startEvent s) hp hr hs hl
    exact ⟨_, takes_event (f := dwellEnds p) hup rfl, record, position, others, (startEvent_keepsLayout s).trans layout, rest⟩
  · obtain ⟨record, notice, others, layout, rest⟩ := carryExpired_picked (s := startEvent s) hr hs hl hw
    exact ⟨_, takes_event (f := carryExpired i.val) hup rfl, record, notice, others,
      (startEvent_keepsLayout s).trans layout, rest⟩
  · have kind : n.kind = .rack := by unfold Node.kind; rw [hg]; rfl
    have hsnap : n.kind.hasSnapshot = true := by rw [kind]; rfl
    have hhatch : n.kind ≠ .hatch := by rw [kind]; exact nofun
    refine ⟨fun p l j q hb hp hl hr hq hrun => ?_, fun p j q hb hp hr hq => ?_, fun es hes htables => ?_⟩
    · obtain ⟨v, t, takes, moves, closed⟩ := report_batch hvalid hsnap hhatch hb
      have handing := Handing.of_moves moves
      have hr' : v.record? j = some q := (record?_congr handing.custody j).trans hr
      rw [hg, handEvent_rackInserted, rackInserted_taken (by rw [position_congr handing.rack]; exact hp)
        ((findLabel_congr handing.custody l).trans hl) hr' hq] at closed
      obtain ⟨y, hy, becomes, position⟩ := (takeIntoRack_taken (p := p) hr'
        (by rw [handing.dwellMinutes, handing.rack]; exact hrun)).record
      refine ⟨t, y, takes, (closed.record j).trans hy, becomes.location.trans (rackInserted_kept q p).1,
        becomes.state.trans (rackInserted_state hq p), (closed.position p).trans (position.trans ?_)⟩
      rw [handing.dwellMinutes, handing.rack]
    · obtain ⟨v, t, takes, moves, closed⟩ := report_batch hvalid hsnap hhatch hb
      have handing := Handing.of_moves moves
      rw [hg, handEvent_rackRemoved] at closed
      obtain ⟨y, hy, becomes, position⟩ := rackRemoved_departed (by rw [position_congr handing.rack]; exact hp)
        ((record?_congr handing.custody j).trans hr)
      refine ⟨t, y, takes, (closed.record j).trans hy, becomes.location.trans (rackDeparted_location ..),
        (closed.position p).trans position, becomes.state.trans (rackDeparted_state ..), fun hs => ?_⟩
      rw [becomes.carry (by rw [rackDeparted_state, hs]; rfl), rackDeparted_carry hs, param_congr handing.settings]
    · obtain ⟨v, t, takes, moves, closed⟩ := report_snapshot hvalid hsnap hhatch hes
      have handing := Handing.of_moves moves
      have tables := handing.tables htables
      have same : ∀ p, v.position p = s.position p := position_congr handing.rack
      have records : ∀ j, v.record? j = s.record? j := record?_congr handing.custody
      rw [hg, handSnapshot_rack] at closed
      refine ⟨t, takes, fun p hn hl => ?_, fun j q p hr hl hidden => ?_,
        fun p l j q hr hl hp alone only shown foreign hidden => ?_⟩
      · rw [closed.position]
        refine rackSnapshot_empties tables (fun j hj => ?_) hn
        rw [records]
        exact hl j (by rw [← same]; exact hj)
      · exact closed.recordIs (rackSnapshot_missing tables ((records j).trans hr) hl hidden)
      · have overlaid : Overlaid p l j q es v := ⟨tables, (records j).trans hr, hl,
          fun k y hy => alone k y ((records k).symm.trans hy), only, shown, (findLabel_congr handing.custody l).trans foreign,
          hidden⟩
        obtain ⟨position, notice⟩ := overlaid.snapshot (by rw [same]; exact hp)
        exact ⟨(closed.position p).trans position, (closed.notice _).trans notice⟩
  · have kind : n.kind = .shelf := by unfold Node.kind; rw [hg]; rfl
    have hsnap : n.kind.hasSnapshot = true := by rw [kind]; rfl
    have hhatch : n.kind ≠ .hatch := by rw [kind]; exact nofun
    refine ⟨fun slot l hb h1 h2 => ⟨fun hl => ?_, fun j q htables hl hr hq hfree => ?_⟩,
      fun slot j q hb h1 h2 hf hr hq => ?_, fun es hes htables => ?_⟩
    · obtain ⟨v, t, takes, moves, closed⟩ := report_batch hvalid hsnap hhatch hb
      have handing := Handing.of_moves moves
      rw [hg, handEvent_shelfInserted h1 h2, shelfInserted_foreign false slot ((findLabel_congr handing.custody l).trans hl)] at closed
      exact ⟨t, takes, (closed.notice 29).trans (post_same ..), (closed.moves.custody_eq id).trans handing.custody⟩
    · obtain ⟨v, t, takes, moves, closed⟩ := report_batch hvalid hsnap hhatch hb
      have handing := Handing.of_moves moves
      have sighted := shelfInserted_sighted (n := slot) ((findLabel_congr handing.custody l).trans hl)
        ((record?_congr handing.custody j).trans hr) hq
        (findOtherAt_none (handing.tables htables) (fun k y hy => hfree k y ((record?_congr handing.custody k).symm.trans hy)) j)
      rw [(shelfSighted_record q slot).2] at sighted
      rw [hg, handEvent_shelfInserted h1 h2] at closed
      exact ⟨t, takes, closed.recordIs sighted⟩
    · obtain ⟨v, t, takes, moves, closed⟩ := report_batch hvalid hsnap hhatch hb
      have handing := Handing.of_moves moves
      have departed := shelfRemoved_departed ((findAt_congr handing.custody (.slot slot)).trans hf)
        ((record?_congr handing.custody j).trans hr)
      rw [(shelfDeparted_record q).2] at departed
      rw [hg, handEvent_shelfRemoved h1 h2] at closed
      exact ⟨t, takes, closed.recordIs departed⟩
    · obtain ⟨v, t, takes, moves, closed⟩ := report_snapshot hvalid hsnap hhatch hes
      have handing := Handing.of_moves moves
      rw [hg, handSnapshot_shelf] at closed
      exact ⟨t, takes, fun j q slot hr hl h1 h2 hidden => closed.recordIs (shelfSnapshot_missing (handing.tables htables)
        ((record?_congr handing.custody j).trans hr) hl h1 h2 hidden)⟩

end Sys2Proof
end

section
/-! The courier requests by ID (R149): REVOKE_COURIER, REINSTATE_COURIER and GET_COURIER. -/

namespace Sys2Proof.Machine

variable {s t : State} {i : Nat} {x e : Courier} {tag : Byte} {st : Status} {data : List Byte} {courier : Half}

theorem withCourier_malformed {carry : Nat → Courier → Answer} (h : courier.toNat = 0 ∨ 65000 < courier.toNat)
    (s : State) : withCourier courier s carry = refuse .badOperand s := by
  have bad : ¬courierIdOk courier = true := by
    rw [courierIdOk_iff]
    omega
  exact if_neg bad

theorem withCourier_unheld {carry : Nat → Courier → Answer} (h : courierIdOk courier = true)
    (hf : findCourier s courier.toNat = none) : withCourier courier s carry = refuse .notFound s := by
  unfold withCourier
  rw [if_pos h, hf]
  rfl

theorem withCourier_held {carry : Nat → Courier → Answer} (h : courierIdOk courier = true)
    (hf : findCourier s courier.toNat = some i) (he : s.courierAt? i = some e) :
    withCourier courier s carry = carry i e := by
  unfold withCourier
  rw [if_pos h, hf, Option.bind_some, he]
  rfl

theorem answers_revokeCourier (h : HostReady s) (ht : tag ≠ 0)
    (a : revokeCourierRequest courier (taken s) = .reply st data t) :
    Answers (.revokeCourier tag courier) tag 0x71 st data s t :=
  answers_of_carryOut h ht rfl rfl ((congrArg (revokeCourierRequest · _) (half_bytes courier)).trans a)

theorem answers_reinstateCourier (h : HostReady s) (ht : tag ≠ 0)
    (a : reinstateCourierRequest courier (taken s) = .reply st data t) :
    Answers (.reinstateCourier tag courier) tag 0x72 st data s t :=
  answers_of_carryOut h ht rfl rfl ((congrArg (reinstateCourierRequest · _) (half_bytes courier)).trans a)

theorem answers_getCourier (h : HostReady s) (ht : tag ≠ 0)
    (a : getCourierRequest courier (taken s) = .reply st data t) :
    Answers (.getCourier tag courier) tag 0x73 st data s t :=
  answers_of_carryOut h ht rfl rfl ((congrArg (getCourierRequest · _) (half_bytes courier)).trans a)

/-- A request of a roster entry touches no other entry and no other image, and writes the entry's image where the
entry changes (R147). -/
structure EntrySet (i : Nat) (x : Courier) (s t : State) : Prop where
  frame : t = { s with handover := t.handover, store := t.store, device := t.device, notices := t.notices }
  entry : t.courierAt? i = some x
  others : ∀ j, j ≠ i → t.courierAt? j = s.courierAt? j
  contexts : t.handover.contexts = s.handover.contexts
  holds : t.courierAt? i ≠ s.courierAt? i → s.store.nextFails = false →
    (t.store.roster.get? i).bind Image.loaded = some (t.courierAt? i)
  images : ∀ j, j ≠ i → t.store.roster.get? j = s.store.roster.get? j
  records : t.store.records = s.store.records
  settings : t.store.settings = s.store.settings

theorem changeCourier_entrySet (he : s.courierAt? i = some e) (x : Courier) :
    EntrySet i x s (changeCourier i e x s) := by
  unfold changeCourier
  split
  · next same =>
    subst same
    exact ⟨rfl, he, fun _ _ => rfl, rfl, fun h => absurd rfl h, fun _ _ => rfl, rfl, rfl⟩
  · obtain ⟨frame, entry, others, contexts, holds, images, records, settings⟩ := putCourier_written i x s
    exact ⟨frame, entry, others, contexts, fun _ => holds, images, records, settings⟩

theorem revoke_refused (h : HostReady s) (ht : tag ≠ 0) (hok : courierIdOk courier = true)
    (hf : findCourier s courier.toNat = some i) (he : s.courierAt? i = some e)
    (hu : courierHasOrder s e.id = true ∨ (courierContext s e.id).isSome = true) :
    Refuses (.revokeCourier tag courier) tag 0x71 .inUse s :=
  answers_revokeCourier h ht ((withCourier_held (s := taken s) hok hf he).trans
    (if_pos (Bool.or_eq_true_iff.mpr hu)))

/-- R149: a courier with no unfinished order and no live context is revoked. -/
theorem revoke_done (h : HostReady s) (ht : tag ≠ 0) (hok : courierIdOk courier = true)
    (hf : findCourier s courier.toNat = some i) (he : s.courierAt? i = some e)
    (ho : courierHasOrder s e.id = false) (hc : courierContext s e.id = none) :
    ∃ t, Answers (.revokeCourier tag courier) tag 0x71 .ok [] s t ∧
      EntrySet i { e with state := .revoked } (taken s) t := by
  have unused : ¬(courierHasOrder (taken s) e.id || (courierContext (taken s) e.id).isSome) = true := by
    rw [show courierHasOrder (taken s) e.id = false from ho, show courierContext (taken s) e.id = none from hc]
    exact Bool.false_ne_true
  exact ⟨_, answers_revokeCourier h ht ((withCourier_held (s := taken s) hok hf he).trans (if_neg unused)),
    changeCourier_entrySet (s := taken s) he _⟩

theorem reinstate_refused (h : HostReady s) (ht : tag ≠ 0) (hok : courierIdOk courier = true)
    (hf : findCourier s courier.toNat = some i) (he : s.courierAt? i = some e) (ha : e.state = .active) :
    Refuses (.reinstateCourier tag courier) tag 0x72 .wrongState s :=
  answers_reinstateCourier h ht ((withCourier_held (s := taken s) hok hf he).trans (if_pos ha))

theorem reinstate_done (h : HostReady s) (ht : tag ≠ 0) (hok : courierIdOk courier = true)
    (hf : findCourier s courier.toNat = some i) (he : s.courierAt? i = some e) (ha : e.state ≠ .active) :
    ∃ t, Answers (.reinstateCourier tag courier) tag 0x72 .ok [] s t ∧
      EntrySet i { e with state := .active, failed := 0 } (taken s) t :=
  ⟨_, answers_reinstateCourier h ht ((withCourier_held (s := taken s) hok hf he).trans (if_neg ha)),
    changeCourier_entrySet (s := taken s) he _⟩

theorem getCourier_answers (h : HostReady s) (ht : tag ≠ 0) (hok : courierIdOk courier = true)
    (hf : findCourier s courier.toNat = some i) (he : s.courierAt? i = some e) :
    Answers (.getCourier tag courier) tag 0x73 .ok (field16 e.id ++ [byteOf e.state.code, byteOf e.failed]) s (taken s) :=
  answers_getCourier h ht (withCourier_held (s := taken s) hok hf he)

end Sys2Proof.Machine

end

section
/-! TOKEN events (R151, R153): what the terminal's report is handed to, the codes, and the opening of a context. -/

namespace Sys2Proof.Machine

variable {s t u v : State} {c i k : Nat} {n y : Node} {x : Transaction} {r : Report} {e : Courier} {d : Direction}
  {data : List Byte} {report : List Byte}

/-! ## The terminal's events -/

/-- A node's new entry hides no node with another target. -/
theorem findNode_put_other {table : Table Node} {g : Target} (hk : table.get? k = some n) (hg : n.binding.target ≠ g)
    (h : (findNode table g).isSome = true) : (findNode (table.put k y) g).isSome = true := by
  have keeps : ∀ p ∈ table, p.2.binding.target = g → p ∈ table.put k y := by
    clear h
    induction table with
    | nil => exact fun _ hp => nomatch hp
    | cons q table ih =>
      obtain ⟨j, a⟩ := q
      intro p hp htarget
      unfold Table.put
      split
      · exact List.mem_cons_of_mem _ hp
      · split
        · next hj =>
          subst hj
          simp only [Table.get?, if_true, Option.some.injEq] at hk
          subst hk
          rcases List.mem_cons.mp hp with rfl | hp
          · exact absurd htarget hg
          · exact List.mem_cons_of_mem _ hp
        · next hj =>
          simp only [Table.get?, if_neg (Ne.symm hj)] at hk
          rcases List.mem_cons.mp hp with rfl | hp
          · exact List.mem_cons_self
          · exact List.mem_cons_of_mem _ (ih hk p hp htarget)
  unfold findNode at h ⊢
  rw [Option.isSome_map, List.find?_isSome] at h ⊢
  obtain ⟨p, hp, htarget⟩ := h
  exact ⟨p, keeps p hp (by simpa using htarget), htarget⟩

/-- What an event of the terminal is handed in: the link, the node table and the device's start-up alone differ. -/
structure Manned (s v : State) : Prop where
  moves : Moves .onlining (startEvent s) v
  running : s.device.condition = .running → v.device.condition = .running
  storeFault : v.device.storeFault = s.device.storeFault
  terminal : (findNode v.nodes .terminal).isSome = true
  hatch : (findNode s.nodes .hatch).isSome = true → (findNode v.nodes .hatch).isSome = true

theorem onlined_storeFault (hn : ∀ v, healthTold (n.answered (answeredRate s x n)) v = v) :
    (onlined i n x s).device.storeFault = s.device.storeFault := by
  have left : ∀ w, (leaveStartup i w).device.storeFault = w.device.storeFault := fun w => by
    unfold leaveStartup settleStartup
    split <;> rfl
  have told : (healthChanged i n.health (entered i (n.answered (answeredRate s x n)) true s)).device =
      (entered i (n.answered (answeredRate s x n)) true s).device := by
    have node := entered_node i (n.answered (answeredRate s x n)) true s
    by_cases hb : (n.answered (answeredRate s x n)).health = n.health
    · rw [healthChanged_same node hb]
    · rw [healthChanged_other node hb, if_neg (by exact nofun), hn]
      exact postHealth_device i _
  unfold onlined
  rw [left, told, entered_frame]
  rfl

theorem handState_terminal (hg : n.binding.target = .terminal) (code : Nat) (ns : NodeState) (v : State) :
    handState i n code ns v = v := by
  unfold handState
  rw [hg]

/-- R150, R151: an event of the terminal, heard. -/
theorem report_terminal {event : FieldEvent} (hv : ValidAnswer s x i n report r) (hg : n.binding.target = .terminal)
    (hb : NewBatch n r [event]) :
    ∃ v t, Takes (.fieldReportReceived report) s t ∧ Manned s v ∧ Closed (handEvent .terminal event v) t := by
  obtain ⟨t, takes, closed⟩ := report_taken hv
  obtain ⟨v, ⟨frame, y, hentered⟩, e⟩ :=
    handed_batch (x := x) (i := i) ((readState n.kind r.state).getD .none) hb (startEvent s)
  rw [e, hg] at closed
  have untold : ∀ w, healthTold (n.answered (answeredRate (startEvent s) x n)) w = w := fun w => by
    unfold healthTold Node.answered
    rw [hg]
  rw [handState_terminal hg] at frame
  have before := (handState_entered i n x ((readState n.kind r.state).getD .none) (startEvent s)).1
  rw [handState_terminal hg] at before
  obtain ⟨-, condition⟩ := onlined_left i n x (startEvent s)
  have node : s.nodes.get? i = some n := hv.2.2.2.1
  refine ⟨v, t, takes, ⟨?_, fun hrun => ?_, ?_, hentered.isSome hg, fun hh => ?_⟩, closed⟩
  · rw [frame]
    refine .nodes _ trivial (fun hr => ?_) (onlined_untold untold)
    rw [hentered.1, ← Table.put_put (startEvent s).nodes i (n.online (startEvent s) x) y, ← before]
    exact Table.put_rising hr
  · have e' : v.device.condition = (onlined i n x (startEvent s)).device.condition := by rw [frame]; rfl
    rw [e', condition, if_neg (fun h => by rw [show (startEvent s).device.condition = .running from hrun] at h; cases h.1)]
    exact hrun
  · have e' : v.device.storeFault = (onlined i n x (startEvent s)).device.storeFault := by rw [frame]; rfl
    rw [e', onlined_storeFault untold]
    rfl
  · rw [hentered.1]
    exact findNode_put_other node (by rw [hg]; exact nofun) hh

/-- R150: a prompt waits where the terminal is bound. -/
theorem postPrompt_prompts (h : (findNode s.nodes .terminal).isSome = true) (p : Prompt) (arg : Nat) :
    Prompts (postPrompt p arg s) (byteOf p.code :: field16 arg) := by
  obtain ⟨j, hj⟩ := Option.isSome_iff_exists.mp h
  have e : postPrompt p arg s = postTo j .prompt (byteOf p.code :: field16 arg) s := by
    unfold postPrompt postCommand
    rw [hj]
  obtain ⟨q, hq, -, hcmd, hdata⟩ := postTo_entry j .prompt (byteOf p.code :: field16 arg) s
  rw [e]
  exact ⟨q, hq, hcmd, hdata⟩

theorem postPrompt_linkOnly (p : Prompt) (arg : Nat) (s : State) : Moves .linkOnly s (postPrompt p arg s) :=
  postPrompt_moves p arg .refl trivial

end Sys2Proof.Machine
end

section
/-! The codes of TOKEN events, and the opening of a context (R151, R153). -/

namespace Sys2Proof.Machine

variable {s t u v : State} {c i k : Nat} {n y : Node} {x : Transaction} {r : Report} {e : Courier} {d : Direction}
  {data : List Byte} {report : List Byte} {id code direction : Nat}

/-! ## The roster entry of a token -/

/-- A token that names an entry by an ID and a code in range, heard with service available. -/
structure Known (v : State) (id code direction i : Nat) (e : Courier) (d : Direction) : Prop where
  service : serviceAvailable v = true
  direction : tokenDirection direction = some d
  place : findCourier v id = some i
  entry : v.courierAt? i = some e
  inRange : ¬(id = 0 ∨ 65000 < id ∨ 999999 < code)

theorem Known.takeToken (h : Known v id code direction i e d) :
    takeToken id code direction v =
      if e.state = .locked then postPrompt .locked 0 v
      else if e.code ≠ code then tokenWrong i e v
      else tokenAccepted { e with failed := 0 } d (changeCourier i e { e with failed := 0 } v) := by
  unfold Machine.takeToken
  rw [if_neg (by rw [h.service]; exact nofun), h.direction, h.place]
  dsimp only
  rw [h.entry]
  exact if_neg h.inRange

theorem courierAt?_congr (h : t.handover = s.handover) (j : Nat) : t.courierAt? j = s.courierAt? j := by
  simp only [State.courierAt?, h]

theorem postPrompt_handover (p : Prompt) (arg : Nat) (s : State) : (postPrompt p arg s).handover = s.handover :=
  (congrArg State.handover (postPrompt_linkOnly p arg s).linkOnly_eq).trans rfl

/-- R151: a wrong code is counted; the third locks. -/
theorem tokenWrong_counted (i : Nat) (e : Courier) (ht : (findNode v.nodes .terminal).isSome = true) :
    (tokenWrong i e v).handover.contexts = v.handover.contexts ∧
      (e.failed < 2 → (tokenWrong i e v).courierAt? i = some { e with failed := e.failed + 1 } ∧
        Prompts (tokenWrong i e v) [2, 0, byteOf (2 - e.failed)]) ∧
      (2 ≤ e.failed → (tokenWrong i e v).courierAt? i = some { e with failed := 3, state := .locked } ∧
        Prompts (tokenWrong i e v) [3, 0, 0]) := by
  have written : ∀ (new : Courier) p arg,
      (postPrompt p arg (putCourier i new v)).handover.contexts = v.handover.contexts ∧
        (postPrompt p arg (putCourier i new v)).courierAt? i = some new ∧
        Prompts (postPrompt p arg (putCourier i new v)) (byteOf p.code :: field16 arg) := fun new p arg => by
    have w := putCourier_written i new v
    have hand := postPrompt_handover p arg (putCourier i new v)
    refine ⟨(congrArg Handover.contexts hand).trans w.contexts, (courierAt?_congr hand i).trans w.entry, ?_⟩
    exact postPrompt_prompts (by rw [w.frame]; exact ht) p arg
  unfold tokenWrong
  split
  · next h =>
    obtain ⟨contexts, entry, prompts⟩ := written { e with failed := 3, state := .locked } .locked 0
    exact ⟨contexts, fun hlt => by omega, fun _ => ⟨entry, prompts⟩⟩
  · next h =>
    obtain ⟨contexts, entry, prompts⟩ := written { e with failed := e.failed + 1 } .wrongCode (3 - (e.failed + 1))
    refine ⟨contexts, fun hlt => ⟨entry, ?_⟩, fun hle => by omega⟩
    have high : byteOf ((3 - (e.failed + 1)) / 256) = 0 := by
      rw [Nat.div_eq_of_lt (by omega)]
      rfl
    have low : 3 - (e.failed + 1) = 2 - e.failed := by omega
    unfold field16 at prompts
    rw [high] at prompts
    rw [← low]
    exact prompts

/-! ## The opening of a context -/

/-- R153: a context as it opens. -/
def Context.opened (courier : Nat) (d : Direction) (s : State) : Context :=
  { courier := courier, direction := d, phase := .waitHatch, manifest := [], rejected := [],
    timer := phaseLimit s .waitHatch, pendingOutcome := none, accepted := 0, finish := none }

/-- R140: what the grant evaluation leaves of a context that waits. -/
theorem grantEval_waits {x : Context} (hx : s.context? c = some x) (hw : c ∈ s.hatch.waiting) :
    ((grantEval s).context? c = some x ∧ c ∈ (grantEval s).hatch.waiting) ∨
      ((∃ ls, (grantEval s).context? c = some (x.granted s ls)) ∧ (grantEval s).hatch.owner = .context c) := by
  have still : (s.context? c = some x ∧ c ∈ s.hatch.waiting) := ⟨hx, hw⟩
  unfold grantEval
  split
  · exact .inl still
  · split
    · exact .inl ⟨(startPurge_context s c).trans hx, by rw [startPurge_waiting]; exact hw⟩
    · split
      · next a _ _ _ =>
        split
        · next w hw' =>
          split
          · exact .inl still
          · by_cases hac : c = a
            · subst hac
              cases hx.symm.trans hw'
              obtain ⟨context, owner, -⟩ := grantContext_granted hx
              exact .inr ⟨context, owner⟩
            · refine .inl ⟨(grantContext_leaves hac s).context.trans hx, ?_⟩
              rw [(grantContext_granted hw').waiting]
              exact List.mem_filter.mpr ⟨hw, by simpa using hac⟩
        · exact .inl still
      · exact .inl still

/-- R153: the context opened, waiting for the hatch or granted it at once. -/
theorem openContext_opens (c courier : Nat) (d : Direction) (s : State) :
    ∃ y, (openContext c courier d s).context? c = some y ∧ y.courier = courier ∧ y.direction = d ∧ y.manifest = [] ∧
      y.finish = none ∧
      ((y.phase = .waitHatch ∧ c ∈ (openContext c courier d s).hatch.waiting) ∨
        (y.phase = d.firstPhase ∧ (openContext c courier d s).hatch.owner = .context c)) := by
  have put := putContext_same c (.opened courier d s) s
  generalize hp : putContext c (.opened courier d s) s = p at put
  have e : openContext c courier d s = grantEval (postHandover c (postPrompt .wait c
      (p.withHatch { p.hatch with waiting := p.hatch.waiting ++ [c] }))) := by rw [← hp]; rfl
  rw [e]
  have told : Moves .prompts (p.withHatch { p.hatch with waiting := p.hatch.waiting ++ [c] })
      (postHandover c (postPrompt .wait c (p.withHatch { p.hatch with waiting := p.hatch.waiting ++ [c] }))) :=
    postHandover_moves c (postPrompt_moves .wait c .refl trivial) trivial
  have context := (told.prompts_context c).trans put
  have waiting : c ∈ (postHandover c (postPrompt .wait c
      (p.withHatch { p.hatch with waiting := p.hatch.waiting ++ [c] }))).hatch.waiting := by
    rw [told.hatch_eq id]
    exact List.mem_append_right _ List.mem_cons_self
  generalize postHandover c (postPrompt .wait c _) = w at context waiting
  rcases grantEval_waits context waiting with ⟨context, waits⟩ | ⟨⟨ls, granted⟩, owner⟩
  · exact ⟨_, context, rfl, rfl, rfl, rfl, .inl ⟨rfl, waits⟩⟩
  · exact ⟨_, granted, rfl, rfl, rfl, rfl, .inr ⟨rfl, owner⟩⟩

theorem openContext_courierAt? (c courier : Nat) (d : Direction) (s : State) (j : Nat) :
    (openContext c courier d s).courierAt? j = s.courierAt? j := by
  have m : Moves { Allow.all with roster := False } s (openContext c courier d s) := by
    apply openContext_moves c courier d .refl <;> trivial
  simp only [State.courierAt?, m.roster_eq id]

/-! ## A right code -/

theorem tokenAccepted_revoked (hr : e.state = .revoked) (s : State) :
    tokenAccepted e .outbound s = postPrompt .revoked 0 s := if_pos ⟨hr, rfl⟩

theorem freeContext_eq (hc : s.context? c = none) (hlow : c = 0 ∨ (c = 1 ∧ (s.context? 0).isSome = true)) :
    freeContext s = some c := by
  unfold freeContext
  rcases hlow with rfl | ⟨rfl, h0⟩
  · rw [hc]
    rfl
  · obtain ⟨x, hx⟩ := Option.isSome_iff_exists.mp h0
    rw [hx, hc]
    rfl

theorem tokenAccepted_opens (hs : ¬(e.state = .revoked ∧ d = .outbound)) (hlive : courierContext s e.id = none)
    (hfree : freeContext s = some c) (hready : d = .outbound → courierHasReady s e.id = true)
    (hdue : d = .returning → outWith s e.id ≠ 0) : tokenAccepted e d s = openContext c e.id d s := by
  unfold tokenAccepted
  rw [if_neg hs, hlive]
  dsimp only
  rw [hfree]
  cases d with
  | outbound => exact if_pos (hready rfl)
  | returning => exact if_neg (hdue rfl)

/-! ## Token events -/

theorem Manned.fields (h : Manned s v) : v.handover = s.handover ∧ v.custody = s.custody ∧ v.orders = s.orders ∧
    v.hatch = s.hatch ∧ v.settings = s.settings ∧ v.fire = s.fire :=
  ⟨congrArg₂ Handover.mk (h.moves.roster_eq id) (h.moves.contexts_eq id), h.moves.custody_eq id, h.moves.orders_eq id,
    h.moves.hatch_eq id, h.moves.settings_eq id, h.moves.fire_eq id⟩

/-- R151: a token heard with service available. -/
theorem Manned.known (h : Manned s v) (hrun : s.device.condition = .running) (hstore : s.device.storeFault = false)
    (hfire : someFire s = false) (hhatch : (findNode s.nodes .hatch).isSome = true) (hd : tokenDirection direction = some d)
    (hlow : 1 ≤ id) (hhigh : id ≤ 65000) (hcode : code ≤ 999999) (hi : findCourier s id = some i)
    (he : s.courierAt? i = some e) : Known v id code direction i e d where
  service := by
    obtain ⟨-, -, -, -, -, fire⟩ := h.fields
    unfold serviceAvailable
    rw [h.running hrun, h.storeFault, hstore, someFire_congr fire, hfire, h.hatch hhatch]
    rfl
  direction := hd
  place := by
    obtain ⟨hand, -⟩ := h.fields
    simp only [findCourier, hand]
    exact hi
  entry := by
    obtain ⟨hand, -⟩ := h.fields
    exact (courierAt?_congr hand i).trans he
  inRange := by omega

theorem Closed.handover (h : Closed s t) : t.handover = s.handover :=
  congrArg₂ Handover.mk (h.moves.roster_eq id) (h.moves.contexts_eq id)

theorem Closed.hatch (h : Closed s t) : t.hatch = s.hatch := h.moves.hatch_eq id

theorem courierContext_congr (h : t.handover.contexts = s.handover.contexts) (id : Nat) :
    courierContext t id = courierContext s id := by
  simp only [courierContext, h]

theorem courierHasReady_congr (ho : t.orders = s.orders) (hc : t.custody = s.custody) (id : Nat) :
    courierHasReady t id = courierHasReady s id := by
  have ready : isReadyOutbound t = isReadyOutbound s := by
    funext i
    simp only [isReadyOutbound, State.record?, hc]
  simp only [courierHasReady, ready, ho]

theorem outWith_congr (h : t.custody = s.custody) (id : Nat) : outWith t id = outWith s id := by
  simp only [outWith, recordsWhere, h]

/-- R153: a token that opens a context does so with the courier's count cleared. -/
theorem accepted_opens {w : State} (hw : EntrySet i { e with failed := 0 } v w) (ha : e.state = .active ∨ (e.state = .revoked ∧ d = .returning))
    (hlive : courierContext v e.id = none) (hc : v.context? c = none)
    (hlow : c = 0 ∨ (c = 1 ∧ (v.context? 0).isSome = true)) (hready : d = .outbound → courierHasReady v e.id = true)
    (hdue : d = .returning → outWith v e.id ≠ 0) :
    tokenAccepted { e with failed := 0 } d w = openContext c e.id d w := by
  have orders : w.orders = v.orders := by rw [hw.frame]
  have custody : w.custody = v.custody := by rw [hw.frame]
  have contexts := context?_congr hw.contexts
  refine tokenAccepted_opens (e := { e with failed := 0 }) (fun h => ?_) ((courierContext_congr hw.contexts e.id).trans hlive)
    (freeContext_eq ((contexts c).trans hc) (by rw [contexts 0]; exact hlow))
    (fun h => (courierHasReady_congr orders custody e.id).trans (hready h))
    (fun h => by rw [outWith_congr custody]; exact hdue h)
  obtain ⟨hrevoked, rfl⟩ := h
  rcases ha with ha | ⟨-, ha⟩
  · rw [show e.state = .revoked from hrevoked] at ha
    cases ha
  · cases ha

end Sys2Proof.Machine
end

section
/-! CONFIRM and CANCEL at the terminal (R150, R154, R156, R157, R163, R165). -/

namespace Sys2Proof.Machine

variable {s t u v : State} {c i : Nat} {x y z : Context} {data : List Byte} {o : HOutcome}

/-! ## The terminal context -/

theorem AtTerminal.context (h : AtTerminal s c y) : terminalContext s = some c := by
  obtain ⟨-, place⟩ := h
  unfold terminalContext
  rcases place with owner | ⟨unowned, yielded | ⟨yielded, head⟩⟩
  · rw [owner]
  · cases ho : s.hatch.owner with
    | context d => exact absurd ho (unowned d)
    | _ => rw [yielded]
  · cases ho : s.hatch.owner with
    | context d => exact absurd ho (unowned d)
    | _ => rw [yielded]; exact head

theorem AtTerminal.congr (h : AtTerminal s c y) (hatch : t.hatch = s.hatch)
    (contexts : t.handover.contexts = s.handover.contexts) : AtTerminal t c y := by
  obtain ⟨live, place⟩ := h
  obtain ⟨hy, hl⟩ := liveContext?_iff.mp live
  refine ⟨liveContext?_eq ((context?_congr contexts c).trans hy) hl, ?_⟩
  rw [hatch]
  exact place

/-! ## Prompts that stay posted -/

/-- The node table stands, and of the prompts posted none is lost. -/
structure Retains (s t : State) : Prop where
  nodes : t.nodes = s.nodes
  prompts : ∀ q ∈ s.link.queue, q.cmd = .prompt → q ∈ t.link.queue

theorem Retains.of_eq (hn : t.nodes = s.nodes) (hq : t.link = s.link) : Retains s t :=
  ⟨hn, fun _ h _ => by rw [hq]; exact h⟩

theorem Retains.trans (h : Retains s t) (g : Retains t u) : Retains s u :=
  ⟨g.nodes.trans h.nodes, fun q hq hc => g.prompts q (h.prompts q hq hc) hc⟩

theorem Retains.apply (h : Retains s t) (hp : Prompts s data) : Prompts t data := by
  obtain ⟨q, hq, hcmd, hdata⟩ := hp
  exact ⟨q, h.prompts q hq hcmd, hcmd, hdata⟩

theorem postCommand_retains {g : Target} {cmd : CmdKind} (hc : cmd ≠ .prompt) (data : List Byte) (s : State) :
    Retains s (postCommand g cmd data s) := by
  unfold postCommand
  split
  · refine ⟨rfl, fun q hq hp => List.mem_append_left _ (List.mem_filter.mpr ⟨hq, ?_⟩)⟩
    rw [hp, Bool.not_eq_true', Bool.and_eq_false_iff]
    exact .inr (beq_eq_false_iff_ne.mpr (Ne.symm hc))
  · exact .of_eq rfl rfl

theorem commanded_retains {cmd : CmdKind} (hc : cmd ≠ .prompt) (data : List Byte) (h : Hatch) (s : State) :
    Retains s (postCommand .hatch cmd data (s.withHatch h)) :=
  Retains.trans (t := s.withHatch h) (.of_eq rfl rfl) (postCommand_retains hc ..)

theorem commandStore_retains (l : Lock) (s : State) : Retains s (commandStore l s) := by
  unfold commandStore
  split
  · exact .of_eq rfl rfl
  · exact commanded_retains (by exact nofun) _ _ s

theorem commandRoom_retains (l : Lock) (s : State) : Retains s (commandRoom l s) := by
  unfold commandRoom
  split
  · exact .of_eq rfl rfl
  · exact commanded_retains (by exact nofun) _ _ s

theorem commandExit_retains (l : Lock) (s : State) : Retains s (commandExit l s) := by
  unfold commandExit
  split
  · exact .of_eq rfl rfl
  · exact commanded_retains (by exact nofun) _ _ s

theorem commandPurge_retains (p : PurgeCmd) (s : State) : Retains s (commandPurge p s) := by
  unfold commandPurge
  split
  · exact .of_eq rfl rfl
  · exact commanded_retains (by exact nofun) _ _ s

theorem commandAll_retains (l room store exit : Lock) (s : State) : Retains s (commandAll l room store exit s) := by
  have each : ∀ (p : Prop) [Decidable p] {f : State → State}, (∀ w, Retains w (f w)) → ∀ w, Retains w (if p then f w else w) :=
    fun p _ f hf w => by
      split
      · exact hf w
      · exact .of_eq rfl rfl
  exact ((each _ (commandStore_retains l) s).trans (each _ (commandRoom_retains l) _)).trans
    (each _ (commandExit_retains l) _)

theorem updateLocks_retains (s : State) : Retains s (updateLocks s) :=
  (commandAll_retains ..).trans (commandAll_retains ..)

theorem startPurge_retains (s : State) : Retains s (startPurge s) := by
  unfold startPurge
  refine Retains.trans ?_ ((commandPurge_retains .run _).trans ((updateLocks_retains _).trans (.of_eq rfl rfl)))
  exact .of_eq rfl rfl

/-- R141: beside HATCH_AIR the start of a purge run posts no notice. -/
theorem startPurge_notice {k : Nat} (hk : k ≠ 51) (s : State) :
    (startPurge s).notices.pending.get? k = s.notices.pending.get? k := by
  have command : ∀ w, (commandPurge .run w).notices = w.notices := fun w => by
    unfold commandPurge
    split
    · rfl
    · obtain ⟨q, -, e⟩ := postCommand_link .hatch .purge [byteOf PurgeCmd.run.code] (w.withHatch { w.hatch with purgeCmd := .run })
      rw [e]
      rfl
  have locks : ∀ w, (updateLocks w).notices = w.notices := fun w => by
    obtain ⟨q, e⟩ := updateLocks_frame w
    rw [e]
    rfl
  unfold startPurge postHatchAir
  dsimp only
  rw [post_other (by exact hk), locks, command]
  rfl

/-! ## CONFIRM -/

/-- R154: AWAIT_RELEASE as it is entered. -/
def Context.awaiting (x : Context) (s : State) : Context :=
  { x with phase := .awaitRelease, timer := some (s.param .releaseWait * 1000) }

theorem postHandover_posted (hx : s.context? c = some x) (hc : c < 2) :
    (postHandover c s).notices.pending.get? (26 + c) = some (handoverNotice c x) := by
  have rank : (handoverNotice c x).rank = 26 + c := by
    show 26 + min c 1 = _
    omega
  unfold postHandover
  rw [hx, ← rank]
  exact post_same ..

theorem hold_prompts (hc : c < 2) (ht : (findNode s.nodes .terminal).isSome = true) :
    Prompts (postPrompt .hold c s) [15, 0, byteOf c] := by
  have prompts := postPrompt_prompts ht .hold c
  have high : byteOf (c / 256) = 0 := by
    rw [Nat.div_eq_of_lt (by omega)]
    rfl
  unfold field16 at prompts
  rw [high] at prompts
  exact prompts

/-- R157, R163: AWAIT_RELEASE entered, prompted HOLD and posted. -/
theorem enterAwait_spec (hx : s.context? c = some x) (hc : c < 2) (ht : (findNode s.nodes .terminal).isSome = true) :
    (enterAwait c s).context? c = some (x.awaiting s) ∧ Prompts (enterAwait c s) [15, 0, byteOf c] ∧
      (enterAwait c s).custody = s.custody ∧
      (enterAwait c s).notices.pending.get? (26 + c) = some (handoverNotice c (x.awaiting s)) := by
  have phase := setPhase_context hx .awaitRelease
  have aside := setPhase_aside c .awaitRelease s
  have posted : (setPhase c .awaitRelease s).notices.pending.get? (26 + c) = some (handoverNotice c (x.awaiting s)) := by
    rw [setPhase_eq hx]
    exact postHandover_posted (putContext_same ..) hc
  have nodes : (setPhase c .awaitRelease s).nodes = s.nodes := by
    rw [setPhase_eq hx, (postHandover_prompts c _).nodes_eq id]
    rfl
  have waits : enterAwait c s = if (postPrompt .hold c (updateLocks (setPhase c .awaitRelease s))).hatch.owner = .context c
      then grantEval (postPrompt .hold c (updateLocks (setPhase c .awaitRelease s)))
      else postPrompt .hold c (updateLocks (setPhase c .awaitRelease s)) := rfl
  generalize setPhase c .awaitRelease s = p at phase aside posted nodes waits
  have lockNodes := (updateLocks_retains p).nodes
  have lockNotices : (updateLocks p).notices = p.notices := by
    obtain ⟨q, e⟩ := updateLocks_frame p
    rw [e]
    rfl
  have lockContext := updateLocks_context p c
  have lockAside := updateLocks_aside p
  generalize updateLocks p = w at waits lockNodes lockNotices lockContext lockAside
  have prompt := postPrompt_linkOnly .hold c w
  have held : Prompts (postPrompt .hold c w) [15, 0, byteOf c] := hold_prompts hc (by rw [lockNodes, nodes]; exact ht)
  have context : (postPrompt .hold c w).context? c = some (x.awaiting s) :=
    (context?_congr (prompt.contexts_eq id) c).trans (lockContext.trans phase)
  have custody : (postPrompt .hold c w).custody = s.custody :=
    (prompt.custody_eq id).trans (lockAside.custody.trans aside.custody)
  have notice : (postPrompt .hold c w).notices.pending.get? (26 + c) = some (handoverNotice c (x.awaiting s)) := by
    rw [prompt.notices_eq id, lockNotices]
    exact posted
  rw [waits]
  generalize postPrompt .hold c w = q at held context custody notice
  split
  · next ho =>
    rcases grantEval_owned ho with e | ⟨e, -⟩
    · rw [e]
      exact ⟨context, held, custody, notice⟩
    · rw [e]
      exact ⟨(startPurge_context q c).trans context, (startPurge_retains q).apply held,
        (startPurge_aside q).custody.trans custody, (startPurge_notice (by omega) q).trans notice⟩
  · exact ⟨context, held, custody, notice⟩

/-- A step that leaves everything but the link. -/
theorem phasePrompt_linkOnly (c : Nat) (s : State) : Moves .linkOnly s (phasePrompt c s) := phasePrompt_moves c .refl trivial

theorem takeConfirm_roomSide (h : AtTerminal s c y) (hp : y.phase = .collecting ∨ y.phase = .loadingIn) :
    takeConfirm s = confirmRoomSide c y s := by
  unfold takeConfirm
  rw [h.context]
  dsimp only
  rw [h.1]
  dsimp only
  rcases hp with hp | hp
  · rw [hp]
  · rw [hp]

theorem takeConfirm_elsewhere (h : AtTerminal s c y) (hp : ¬(y.phase = .collecting ∨ y.phase = .loadingIn)) :
    takeConfirm s = phasePrompt c s := by
  unfold takeConfirm
  rw [h.context]
  dsimp only
  rw [h.1]
  dsimp only
  split
  · next e => exact absurd (.inl e) hp
  · next e => exact absurd (.inr e) hp
  all_goals rfl

theorem phasePrompt_hold (hy : s.context? c = some y) (hp : y.phase = .awaitRelease) :
    phasePrompt c s = postPrompt .hold c s := by
  unfold phasePrompt
  rw [hy]
  dsimp only
  rw [hp]

/-- A phase that CONFIRM or CANCEL does not name: its prompt is posted again. -/
theorem phasePrompt_spec (hy : s.context? c = some y) (hc : c < 2) (ht : (findNode s.nodes .terminal).isSome = true) :
    (phasePrompt c s).handover = s.handover ∧ (phasePrompt c s).custody = s.custody ∧
      (y.phase = .awaitRelease → Prompts (phasePrompt c s) [15, 0, byteOf c]) := by
  have link := phasePrompt_linkOnly c s
  refine ⟨(congrArg State.handover link.linkOnly_eq).trans rfl, link.custody_eq id, fun hp => ?_⟩
  rw [phasePrompt_hold hy hp]
  exact hold_prompts hc ht

/-- R157, R163, R154: CONFIRM, taken. -/
theorem takeConfirm_heard (h : AtTerminal s c y) (hc : c < 2) (ht : (findNode s.nodes .terminal).isSome = true) :
    HeardConfirm s (takeConfirm s) c y := by
  obtain ⟨hy, hl⟩ := liveContext?_iff.mp h.1
  refine ⟨fun hside hopen => ?_, fun hside hclosed hrej => ?_, fun hp ⟨hclosed, hrej⟩ hempty => ?_,
    fun hside ⟨hclosed, hrej⟩ hmanifest => ?_, fun hother => ?_⟩
  · have e : takeConfirm s = postPrompt .closeDoor 0 s := (takeConfirm_roomSide h hside).trans (if_pos hopen)
    rw [e]
    exact ⟨postPrompt_handover .., postPrompt_prompts ht .closeDoor 0⟩
  · have shut : ¬roomDoor s = .opened := by rw [hclosed]; exact nofun
    have remove : promptRemove c s = postPrompt .removeItems y.rejected.length s := by
      unfold promptRemove
      rw [hy]
    have e : takeConfirm s = postPrompt .removeItems y.rejected.length s := by
      rw [takeConfirm_roomSide h hside, confirmRoomSide, if_neg shut, if_pos hrej, remove]
    rw [e]
    exact ⟨postPrompt_handover .., postPrompt_prompts ht .removeItems _⟩
  · have shut : ¬roomDoor s = .opened := by rw [hclosed]; exact nofun
    have e : takeConfirm s = endContext c .nothingLoaded s := by
      rw [takeConfirm_roomSide h (.inr hp), confirmRoomSide, if_neg shut, if_neg (fun k => k hrej), if_pos ⟨hp, hempty⟩]
    obtain ⟨ended, -, -⟩ := endContext_spec hy hl .nothingLoaded
    rw [hp] at ended
    rw [e]
    exact ended
  · have shut : ¬roomDoor s = .opened := by rw [hclosed]; exact nofun
    have e : takeConfirm s = enterAwait c s := by
      rw [takeConfirm_roomSide h hside, confirmRoomSide, if_neg shut, if_neg (fun k => k hrej),
        if_neg (fun k => hmanifest k.1 k.2)]
    rw [e]
    exact enterAwait_spec hy hc ht
  · rw [takeConfirm_elsewhere h hother]
    exact phasePrompt_spec hy hc ht

/-! ## CANCEL -/

/-- R156, R157, R163, R165: what CANCEL does in each phase. -/
def cancelStep (ph : Phase) (c : Nat) (s : State) : State :=
  match ph with
  | .waitHatch => endContext c .cancelled s
  | .loading => abandonLoading c .cancelled s
  | .collecting => enterRecall c .cancelled s
  | .loadingIn => enterRecallReturn c .cancelled s
  | .awaitRelease | .recall | .waitDry | .unloading | .recallReturn | .ended => phasePrompt c s

theorem takeCancel_eq (h : AtTerminal s c y) : takeCancel s = cancelStep y.phase c s := by
  unfold takeCancel
  rw [h.context]
  dsimp only
  rw [h.1] <;> rfl

theorem heardCancel_elsewhere (hy : s.context? c = some y) (hc : c < 2) (ht : (findNode s.nodes .terminal).isSome = true)
    (hp : y.phase ∉ [.waitHatch, .loading, .collecting, .loadingIn]) : HeardCancel s (phasePrompt c s) c y := by
  obtain ⟨hand, custody, prompts⟩ := phasePrompt_spec hy hc ht
  exact ⟨y, (context?_congr (congrArg Handover.contexts hand) c).trans hy, fun k => absurd (by rw [k]; simp) hp,
    fun k => absurd (by rw [k]; simp) hp, fun k => absurd (by rw [k]; simp) hp, fun k => absurd (by rw [k]; simp) hp,
    fun _ => ⟨hand, custody, prompts⟩⟩

/-- R156, R157, R163, R165: CANCEL, taken. -/
theorem takeCancel_heard (h : AtTerminal s c y) (hc : c < 2) (ht : (findNode s.nodes .terminal).isSome = true) :
    HeardCancel s (takeCancel s) c y := by
  obtain ⟨hy, hl⟩ := liveContext?_iff.mp h.1
  rw [takeCancel_eq h]
  clear h
  obtain ⟨courier, direction, phase, manifest, rejected, timer, outcome, accepted, finish⟩ := y
  cases phase with
  | waitHatch =>
    obtain ⟨ended, -, -⟩ := endContext_spec hy hl .cancelled
    exact ⟨_, ended, fun _ => rfl, nofun, nofun, nofun, fun k => absurd List.mem_cons_self k⟩
  | loading =>
    obtain ⟨z, hz, left, picked⟩ := abandonLoading_left hy hl .cancelled
    exact ⟨z, hz, nofun, fun _ => ⟨left, picked⟩, nofun, nofun, fun k => absurd (by simp) k⟩
  | collecting =>
    obtain ⟨z, hz, left⟩ := enterRecall_left hy hl .cancelled
    exact ⟨z, hz, nofun, nofun, fun _ => left, nofun, fun k => absurd (by simp) k⟩
  | loadingIn =>
    obtain ⟨z, hz, left⟩ := enterRecallReturn_left hy hl .cancelled
    exact ⟨z, hz, nofun, nofun, nofun, fun _ => left, fun k => absurd (by simp) k⟩
  | _ => exact heardCancel_elsewhere hy hc ht (by simp)

/-! ## The reports -/

/-- What was heard in the state the event is handed in, with the transaction closed. -/
theorem HeardConfirm.closed (m : Manned s v) (h : HeardConfirm v u c y) (closed : Closed u t) : HeardConfirm s t c y := by
  obtain ⟨hand, custody, -, hatch, settings, -⟩ := m.fields
  have door : roomDoor v = roomDoor s := by simp only [roomDoor, hatch]
  have context : t.context? c = u.context? c := context?_congr (congrArg Handover.contexts closed.handover) c
  obtain ⟨opened, rejected, nothing, awaits, elsewhere⟩ := h
  rw [door, hand] at opened rejected
  rw [door] at nothing
  rw [door, custody, param_congr settings] at awaits
  rw [hand, custody] at elsewhere
  refine ⟨fun hp hd => ?_, fun hp hd hr => ?_, fun hp hset hm => ?_, fun hp hset hm => ?_, fun hp => ?_⟩
  · obtain ⟨same, prompts⟩ := opened hp hd
    exact ⟨closed.handover.trans same, closed.prompts prompts⟩
  · obtain ⟨same, prompts⟩ := rejected hp hd hr
    exact ⟨closed.handover.trans same, closed.prompts prompts⟩
  · exact context.trans (nothing hp hset hm)
  · obtain ⟨held, prompts, still, posted⟩ := awaits hp hset hm
    exact ⟨context.trans held, closed.prompts prompts, (closed.moves.custody_eq id).trans still,
      (closed.notice _).trans posted⟩
  · obtain ⟨same, still, prompts⟩ := elsewhere hp
    exact ⟨closed.handover.trans same, (closed.moves.custody_eq id).trans still, fun k => closed.prompts (prompts k)⟩

theorem LeftRecalled.congr {g : Direction} (hatch : t.hatch = s.hatch) (settings : t.settings = s.settings)
    (h : LeftRecalled t c g o x y) : LeftRecalled s c g o x y := by
  have door : roomDoor t = roomDoor s := by simp only [roomDoor, hatch]
  unfold LeftRecalled at h ⊢
  rw [door, hatch, param_congr settings] at h
  cases g with
  | outbound =>
    dsimp only at h ⊢
    split
    · next hc =>
      rw [if_pos hc] at h
      exact h.of_hatch hatch
    · next hc =>
      rw [if_neg hc] at h
      exact h
  | returning => exact h

theorem HeardCancel.closed (m : Manned s v) (h : HeardCancel v u c y) (closed : Closed u t) : HeardCancel s t c y := by
  obtain ⟨hand, custody, -, hatch, settings, -⟩ := m.fields
  have context : t.context? c = u.context? c := context?_congr (congrArg Handover.contexts closed.handover) c
  obtain ⟨z, hz, waits, loading, collecting, loadingIn, elsewhere⟩ := h
  rw [hand, custody] at elsewhere
  refine ⟨z, context.trans hz, waits, fun hp => ?_, fun hp => (collecting hp).congr hatch settings,
    fun hp => (loadingIn hp).congr hatch settings, fun hp => ?_⟩
  · obtain ⟨left, picked⟩ := loading hp
    exact ⟨left.of_hatch hatch, fun i hi hr => closed.recordIs (picked i hi (by rw [record?_congr custody]; exact hr))⟩
  · obtain ⟨same, still, prompts⟩ := elsewhere hp
    exact ⟨closed.handover.trans same, (closed.moves.custody_eq id).trans still, fun k => closed.prompts (prompts k)⟩

end Sys2Proof.Machine

namespace Sys2Proof

open Machine

/-- Settles O55, request by request, token by token, and phase by phase at the terminal. -/
theorem courierRequestsByEntry : Obligations.CourierRequestsByEntry := by
  refine ⟨fun s tag courier h ht => ⟨fun bad => ?_, fun h1 h2 hf => ?_, fun i e h1 h2 hf he => ?_⟩, ?_,
    fun s x n report r i c y hvalid hg hat => ⟨fun hb => ?_, fun hb => ?_⟩⟩
  · exact ⟨answers_revokeCourier h ht (withCourier_malformed bad _),
      answers_reinstateCourier h ht (withCourier_malformed bad _), answers_getCourier h ht (withCourier_malformed bad _)⟩
  · have ok := (courierIdOk_iff courier).mpr ⟨h1, h2⟩
    exact ⟨answers_revokeCourier h ht (withCourier_unheld (s := taken s) ok hf),
      answers_reinstateCourier h ht (withCourier_unheld (s := taken s) ok hf),
      answers_getCourier h ht (withCourier_unheld (s := taken s) ok hf)⟩
  · have ok := (courierIdOk_iff courier).mpr ⟨h1, h2⟩
    refine ⟨revoke_refused h ht ok hf he, fun ho hc => ?_, reinstate_refused h ht ok hf he, fun ha => ?_,
      getCourier_answers h ht ok hf he⟩
    · obtain ⟨t, answers, frame, entry, others, contexts, holds, images, records, settings⟩ :=
        revoke_done h ht ok hf he ho hc
      exact ⟨t, answers, entry, others, contexts, holds, images, records, settings, frame⟩
    · obtain ⟨t, answers, frame, entry, others, contexts, holds, images, records, settings⟩ :=
        reinstate_done h ht ok hf he ha
      exact ⟨t, answers, entry, others, contexts, holds, images, records, settings, frame⟩
  · intro s x n report r id code direction i node e d hvalid hg hb hrun hstore hfire hhatch hd hlow hhigh hcode hi he
    obtain ⟨v, t, takes, manned, closed⟩ := report_terminal hvalid hg hb
    have known := manned.known hrun hstore hfire hhatch hd hlow hhigh hcode hi he
    obtain ⟨hand, custody, orders, hatch, -⟩ := manned.fields
    have contexts : v.handover.contexts = s.handover.contexts := congrArg Handover.contexts hand
    have changed := changeCourier_entrySet known.entry { e with failed := 0 }
    rw [show handEvent .terminal (.token id code direction) v = takeToken id code direction v from rfl, known.takeToken]
      at closed
    refine ⟨fun hl => ?_, fun hl hwrong => ?_, fun hrev hout hright => ?_, fun c ha hright hlive hc hfirst hready hdue => ?_⟩
    · rw [if_pos hl] at closed
      exact ⟨t, takes, closed.handover.trans ((postPrompt_handover ..).trans hand),
        closed.prompts (postPrompt_prompts manned.terminal .locked 0)⟩
    · rw [if_neg hl, if_pos (Ne.symm hwrong)] at closed
      obtain ⟨kept, counted, locks⟩ := tokenWrong_counted i e manned.terminal
      refine ⟨t, takes, (congrArg Handover.contexts closed.handover).trans (kept.trans contexts), fun h => ?_, fun h => ?_⟩
      · obtain ⟨entry, prompts⟩ := counted h
        exact ⟨(courierAt?_congr closed.handover i).trans entry, closed.prompts prompts⟩
      · obtain ⟨entry, prompts⟩ := locks h
        exact ⟨(courierAt?_congr closed.handover i).trans entry, closed.prompts prompts⟩
    · rw [if_neg (by rw [hrev]; exact nofun), if_neg (fun h => h hright.symm), hout,
        tokenAccepted_revoked (e := { e with failed := 0 }) hrev] at closed
      have kept := closed.handover.trans (postPrompt_handover ..)
      exact ⟨t, takes, (congrArg Handover.contexts kept).trans (changed.contexts.trans contexts),
        (courierAt?_congr kept i).trans changed.entry,
        closed.prompts (postPrompt_prompts (by rw [changed.frame]; exact manned.terminal) .revoked 0)⟩
    · have unlocked : e.state ≠ .locked := fun h => by
        rcases ha with ha | ⟨ha, -⟩
        · rw [h] at ha; cases ha
        · rw [h] at ha; cases ha
      rw [if_neg unlocked, if_neg (fun h => h hright.symm), accepted_opens changed ha
        ((courierContext_congr contexts e.id).trans hlive) ((context?_congr contexts c).trans hc)
        (by rw [context?_congr contexts 0]; exact hfirst)
        (fun h => (courierHasReady_congr orders custody e.id).trans (hready h))
        (fun h => by rw [outWith_congr custody]; exact hdue h)] at closed
      obtain ⟨y, hy, courier, dir, manifest, finish, granted⟩ :=
        openContext_opens c e.id d (changeCourier i e { e with failed := 0 } v)
      refine ⟨t, y, takes, (courierAt?_congr closed.handover i).trans ((openContext_courierAt? ..).trans changed.entry),
        (context?_congr (congrArg Handover.contexts closed.handover) c).trans hy, courier, dir, manifest, finish, ?_⟩
      rw [closed.hatch]
      exact granted
  · obtain ⟨v, t, takes, manned, closed⟩ := report_terminal hvalid hg hb
    obtain ⟨hand, -, -, hatch, -⟩ := manned.fields
    exact ⟨t, takes, (takeConfirm_heard (hat.congr hatch (congrArg Handover.contexts hand)) c.isLt manned.terminal).closed
      manned closed⟩
  · obtain ⟨v, t, takes, manned, closed⟩ := report_terminal hvalid hg hb
    obtain ⟨hand, -, -, hatch, -⟩ := manned.fields
    exact ⟨t, takes, (takeCancel_heard (hat.congr hatch (congrArg Handover.contexts hand)) c.isLt manned.terminal).closed
      manned closed⟩

end Sys2Proof
end

section
/-! The timers of the hatch (R141, R142, R144) and the report of its node (R132, R135). -/

namespace Sys2Proof.Machine

variable {s t u v : State} {i : Nat} {r : Record} {run : PurgeRun} {q : HatchReport}

/-! ## The purge run's timers -/

/-- What the end of a purge run may touch. -/
def Allow.purging : Allow :=
  { Allow.all with host := False, nodes := False, settings := False, climate := False, fire := False, roster := False,
                   image := False }

/-- What the work of the hatch touches but for its air. -/
def Allow.airless : Allow := { Allow.purging with air := False }

theorem Moves.purging (m : Moves .purging s t) : KeepsLayout s t ∧ t.fire = s.fire ∧ t.climate = s.climate :=
  ⟨m.keepsLayout id id id id, m.fire_eq id, m.climate_eq id⟩

theorem purgeComplete_purging (s : State) : Moves .purging s (purgeComplete s) := by
  apply purgeComplete_moves .refl <;> trivial

theorem purgeFail_airless (s : State) : Moves .airless s (purgeFail s) := by
  apply purgeFail_moves .refl <;> trivial

theorem purgeFail_purging (s : State) : Moves .purging s (purgeFail s) := by
  apply purgeFail_moves .refl <;> trivial

/-- R141: a purge that completes leaves the air DRY. -/
theorem purgeComplete_air (s : State) : (purgeComplete s).hatch.air = .dry := by
  have dried : (setHatchAir .dry .wentDry (stopRun s)).hatch.air = .dry := by
    have m : Moves { Allow.all with air := False } (setAirField .dry (stopRun s)) (setHatchAir .dry .wentDry (stopRun s)) := by
      apply updateWetDwell_moves
      · apply postHatchAir_moves
        · apply updateLocks_moves .refl <;> trivial
        · trivial
      · trivial
    exact m.air_eq id
  have m : Moves .airless (setHatchAir .dry .wentDry (stopRun s)) (purgeComplete s) := by
    apply returnHatch_moves .refl <;> trivial
  exact (m.air_eq id).trans dried

/-- R141: the longest time of a purge run. -/
theorem purgeMaxExpired_spec (hp : s.hatch.purge = some run) :
    Moves .purging s (purgeMaxExpired s) ∧ (purgeMaxExpired s).hatch.air =
      (if purgeTest s = true ∨ (s.airAt (airZone s.hatchZone)).reading = none then .dry else s.hatch.air) := by
  have e : purgeMaxExpired s = if purgeTest s ∨ (s.airAt (airZone s.hatchZone)).reading = none then purgeComplete s
      else purgeFail s := by
    unfold purgeMaxExpired
    rw [hp]
  rw [e]
  split
  · exact ⟨purgeComplete_purging s, purgeComplete_air s⟩
  · exact ⟨purgeFail_purging s, (purgeFail_airless s).air_eq id⟩

/-- R141: the completion test does not look at the minimum timer. -/
theorem purgeTest_minTimer (hp : s.hatch.purge = some run) (m : Option Nat) :
    purgeTest (s.withHatch { s.hatch with purge := some { run with minTimer := m } }) = purgeTest s := by
  show (match some { run with minTimer := m }, (s.airAt (airZone s.hatchZone)).reading, s.hatch.report with
      | some run, some r, some h => run.reportTaken && decide (h.rh ≤ r.1 + s.param .purgeMargin)
      | _, _, _ => false) = _
  unfold purgeTest
  rw [hp]
  cases (s.airAt (airZone s.hatchZone)).reading with
  | none => rfl
  | some a =>
    cases s.hatch.report with
    | none => rfl
    | some b => rfl

theorem purgeMinExpired_eq {m : Nat} (hp : s.hatch.purge = some run) (hm : run.minTimer = some m) :
    purgeMinExpired s =
      if purgeTest s then purgeComplete (s.withHatch { s.hatch with purge := some { run with minTimer := none } })
      else s.withHatch { s.hatch with purge := some { run with minTimer := none } } := by
  unfold purgeMinExpired
  rw [hp]
  dsimp only
  rw [hm]
  dsimp only
  rw [purgeTest_minTimer hp]

theorem retryExpired_eq (h : s.hatch.retry.isSome = true) :
    retryExpired s = grantEval (s.withHatch { s.hatch with retry := none }) := by
  obtain ⟨n, hn⟩ := Option.isSome_iff_exists.mp h
  unfold retryExpired
  rw [hn]

/-! ## The wet dwell -/

theorem wetDwellExpired_eq (h : s.hatch.wetDwell.isSome = true) :
    wetDwellExpired s = (postHatchAir .wetDwell (hatchExposureSweep s)).withHatch
      { s.hatch with wetDwell := some (s.param .wetDwell * 60000) } := by
  obtain ⟨n, hn⟩ := Option.isSome_iff_exists.mp h
  have m : Moves { Allow.all with hatch := False, settings := False } s (hatchExposureSweep s) := by
    apply hatchExposureSweep_moves .refl <;> trivial
  have hatch : (postHatchAir .wetDwell (hatchExposureSweep s)).hatch = s.hatch := m.hatch_eq id
  have param : (postHatchAir .wetDwell (hatchExposureSweep s)).param .wetDwell = s.param .wetDwell :=
    param_congr (m.settings_eq id) _
  unfold wetDwellExpired
  rw [hn]
  dsimp only
  rw [hatch, param]
  rfl

theorem exposeAll_frame (is : List Nat) : ∀ s, exposeAll is s =
    { s with custody := (exposeAll is s).custody, store := (exposeAll is s).store, device := (exposeAll is s).device,
             notices := (exposeAll is s).notices } := by
  induction is with
  | nil => exact fun _ => rfl
  | cons i is ih =>
    intro s
    have first : expose i s =
        { s with custody := (expose i s).custody, store := (expose i s).store, device := (expose i s).device,
                 notices := (expose i s).notices } := by
      cases h : s.record? i with
      | none => unfold expose; rw [h]
      | some r =>
        rw [expose_record h]
        split
        · rfl
        · exact (placeWritten_putRecord ..).frame
    have rest : exposeAll (i :: is) s = _ := ih (expose i s)
    rw [show exposeAll is (expose i s) = exposeAll (i :: is) s from rfl] at rest
    generalize exposeAll (i :: is) s = w at rest ⊢
    exact rest.trans (by rw [first])

/-- R144: what the end of a wet dwell leaves. -/
theorem wetDwellExpired_spec (h : s.hatch.wetDwell.isSome = true) (tables : TablesOk s) :
    (wetDwellExpired s).hatch = { s.hatch with wetDwell := some (s.param .wetDwell * 60000) } ∧
      (∀ i r, s.record? i = some r → (wetDwellExpired s).record? i =
        some { r with exposed := r.exposed || decide (r.location = .hatch) }) ∧
      KeepsLayout s (wetDwellExpired s) ∧
      (wetDwellExpired s).notices.pending.get? 51 =
        some (.hatchAir .wetDwell s.hatch.air (s.hatch.report.map (·.rh))) ∧
      wetDwellExpired s =
        { s with hatch := (wetDwellExpired s).hatch, custody := (wetDwellExpired s).custody,
                 store := (wetDwellExpired s).store, device := (wetDwellExpired s).device,
                 notices := (wetDwellExpired s).notices } := by
  have frame : hatchExposureSweep s = _ := exposeAll_frame (recordsWhere s fun r => r.location == .hatch) s
  have swept := fun i r (hr : s.record? i = some r) => hatchExposureSweep_record tables hr
  have m : Moves { Allow.all with settings := False, nodes := False, roster := False, image := False, hatch := False }
      s (hatchExposureSweep s) := by
    apply hatchExposureSweep_moves .refl <;> trivial
  have hatch := m.hatch_eq id
  rw [wetDwellExpired_eq h]
  rw [show exposeAll (recordsWhere s fun r => r.location == .hatch) s = hatchExposureSweep s from rfl] at frame
  generalize hatchExposureSweep s = w at frame swept m hatch
  obtain ⟨settings, nodes, roster, image, outside⟩ := m.keepsLayout id id id id
  have posted : (postHatchAir .wetDwell w).notices.pending.get? 51 =
      some (.hatchAir .wetDwell w.hatch.air (w.hatch.report.map (·.rh))) := post_same ..
  rw [hatch] at posted
  refine ⟨rfl, swept, ⟨settings, nodes, roster, image, outside⟩, posted, ?_⟩
  have e : (postHatchAir .wetDwell w).withHatch { s.hatch with wetDwell := some (s.param .wetDwell * 60000) } =
      { w with hatch := { s.hatch with wetDwell := some (s.param .wetDwell * 60000) },
               notices := (postHatchAir .wetDwell w).notices } := rfl
  rw [e]
  generalize (postHatchAir .wetDwell w).notices = n
  rw [frame]

end Sys2Proof.Machine
end

section
/-! The report of the HATCH node (R132, R135): its state fields, and what the items handed over after them leave. -/

namespace Sys2Proof.Machine

variable {s t u v : State} {i : Nat} {n : Node} {x : Transaction} {r : Report} {q : HatchReport}

/-! ## The items leave the report and the air -/

/-- Where the hatch's reader is heard. -/
def Scope.reader : Scope := ⟨False, True, False⟩

theorem setAssembly_report (i : Nat) (a : Option Assembly) (k : Option Nat) (s : State) :
    (setAssembly i a k s).hatch.report = s.hatch.report := by
  unfold setAssembly
  rw [modifyNode_frame]
  rfl

theorem acceptBatch_report (i : Nat) (n : Node) (k : Nat) (es : List FieldEvent) (s : State) :
    (acceptBatch i n k es s).hatch.report = s.hatch.report := by
  have w : Works .reader (modifyNode i (fun n => { n with accepted := some k }) s) (acceptBatch i n k es s) :=
    .foldl es (fun e t h => handEvent_works trivial n.binding.target e h) .refl
  rw [w.report id, modifyNode_frame]
  rfl

theorem addSegment_report (i : Nat) (n : Node) (held : List SnapEntry) (k : Nat) (last : Bool) (es : List SnapEntry)
    (s : State) : (addSegment i n held k last es s).hatch.report = s.hatch.report := by
  unfold addSegment
  dsimp only
  split
  · have w : Works .reader (setAssembly i none (some (k % 16)) s)
        (handSnapshot n.binding.target (held ++ entriesOf n.binding.target es) (setAssembly i none (some (k % 16)) s)) :=
      handSnapshot_works trivial _ _ .refl
    rw [w.report id, setAssembly_report]
  · exact setAssembly_report ..

theorem takeItems_report (i : Nat) (r : Report) (items : Items) (s : State) :
    (takeItems i r items s).hatch.report = s.hatch.report := by
  unfold takeItems
  split
  · rfl
  · split
    · unfold takeSegment
      split
      · exact addSegment_report ..
      · split
        · exact setAssembly_report ..
        · split
          · exact addSegment_report ..
          · split
            · rfl
            · exact setAssembly_report ..
    · split
      · exact acceptBatch_report ..
      · unfold takeBatch
        split
        · exact setAssembly_report ..
        · split
          · rfl
          · split
            · rfl
            · exact acceptBatch_report ..

theorem takeItems_air (i : Nat) (r : Report) (items : Items) (s : State) :
    (takeItems i r items s).hatch.air = s.hatch.air := by
  have m : Moves { Allow.all with air := False } s (takeItems i r items s) := by
    apply takeItems_moves i r items .refl <;> trivial
  exact m.air_eq id

/-! ## The state fields -/

/-- The report held, and the air WET where the room door is reported OPEN. -/
def reported (q : HatchReport) (s : State) : State :=
  if q.room = .opened ∧ s.hatch.air = .dry then setHatchAir .wet .wentWet (s.withHatch { s.hatch with report := some q })
  else s.withHatch { s.hatch with report := some q }

/-- The locks worked out, and the commands that the report does not show posted again. -/
def compared (q : HatchReport) (code : Nat) (s : State) : State := checkCommanded code q (updateLocks (reported q s))

/-- The owning context told of the doors. -/
def doorsTold (q : HatchReport) (code : Nat) (s : State) : State :=
  ownerDoors s.hatch.owner (roomDoor s) (storeDoor s) (compared q code s)

theorem takeHatch_eq (q : HatchReport) (code : Nat) (s : State) : takeHatch q code s =
    grantEval (if s.hatch.owner = .purge then purgeReport (doorsTold q code s) else doorsTold q code s) := rfl

theorem reported_works (q : HatchReport) (s : State) :
    Works .none (s.withHatch { s.hatch with report := some q }) (reported q s) := by
  unfold reported
  split
  · exact setHatchAir_works _ _ .refl
  · exact .refl

theorem compared_works (q : HatchReport) (code : Nat) (s : State) : Works .none (reported q s) (compared q code s) :=
  checkCommanded_works code q (updateLocks_works .refl)

theorem doorsTold_works (q : HatchReport) (code : Nat) (s : State) : Works .none (compared q code s) (doorsTold q code s) :=
  ownerDoors_works _ _ _ .refl

theorem doorsTold_report (q : HatchReport) (code : Nat) (s : State) : (doorsTold q code s).hatch.report = some q :=
  ((doorsTold_works q code s).report id).trans (((compared_works q code s).report id).trans ((reported_works q s).report id))

theorem takeHatch_report (q : HatchReport) (code : Nat) (s : State) : (takeHatch q code s).hatch.report = some q := by
  have w : Works .none (doorsTold q code s) (takeHatch q code s) := by
    rw [takeHatch_eq]
    refine grantEval_works ?_
    split
    · exact purgeReport_works .refl
    · exact .refl
  exact (w.report id).trans (doorsTold_report q code s)

theorem reported_air (q : HatchReport) (s : State) : (q.room = .opened → (reported q s).hatch.air = .wet) ∧
    (q.room = .closed → reported q s = s.withHatch { s.hatch with report := some q }) := by
  unfold reported
  refine ⟨fun hopen => ?_, fun hclosed => if_neg fun h => by rw [hclosed] at h; cases h.1⟩
  split
  · have m : Moves { Allow.all with air := False } (setAirField .wet (s.withHatch { s.hatch with report := some q }))
        (setHatchAir .wet .wentWet (s.withHatch { s.hatch with report := some q })) := by
      apply updateWetDwell_moves
      · apply postHatchAir_moves
        · apply updateLocks_moves .refl <;> trivial
        · trivial
      · trivial
    exact m.air_eq id
  · next h =>
    cases ha : s.hatch.air with
    | wet => exact ha
    | dry => exact absurd ⟨hopen, ha⟩ h

theorem compared_airless (q : HatchReport) (code : Nat) (s : State) : Moves .airless (reported q s) (compared q code s) := by
  apply checkCommanded_moves
  · apply updateLocks_moves .refl <;> trivial
  · trivial

theorem compared_purge (q : HatchReport) (code : Nat) (s : State) :
    (compared q code s).hatch.purge = (reported q s).hatch.purge := by
  have m : Moves .linkOnly (updateLocks (reported q s)) (compared q code s) := checkCommanded_moves code q .refl trivial
  rw [m.hatch_eq id]
  obtain ⟨p, e⟩ := updateLocks_frame (reported q s)
  rw [e]
  rfl

theorem doorsTold_airless (q : HatchReport) (code : Nat) (s : State) : Moves .airless (compared q code s) (doorsTold q code s) := by
  apply ownerDoors_moves _ _ _ .refl <;> trivial

theorem grantEval_airless (s : State) : Moves .airless s (grantEval s) := by
  apply grantEval_moves .refl <;> trivial

/-- R135: the air that a HATCH report leaves. -/
theorem takeHatch_air (q : HatchReport) (code : Nat) (s : State) :
    (q.room = .opened → (takeHatch q code s).hatch.air = .wet) ∧
      (q.room = .closed → s.hatch.purge = none → (takeHatch q code s).hatch.air = s.hatch.air) := by
  have doors : (doorsTold q code s).hatch.air = (reported q s).hatch.air :=
    ((doorsTold_airless q code s).air_eq id).trans ((compared_airless q code s).air_eq id)
  have room : roomDoor (doorsTold q code s) = q.room := by
    unfold roomDoor
    rw [doorsTold_report]
    rfl
  obtain ⟨opened, closed⟩ := reported_air q s
  rw [takeHatch_eq, (grantEval_airless _).air_eq id]
  refine ⟨fun hopen => ?_, fun hclosed hpurge => ?_⟩
  · refine Eq.trans ?_ (doors.trans (opened hopen))
    split
    · unfold purgeReport
      split
      · rfl
      · rw [if_pos (room.trans hopen)]
        exact (purgeFail_airless _).air_eq id
    · rfl
  · refine Eq.trans ?_ (doors.trans (by rw [closed hclosed]; rfl))
    split
    · next ho =>
      have none : (doorsTold q code s).hatch.purge = none := by
        have e : doorsTold q code s = compared q code s := by
          unfold doorsTold
          rw [ho]
          rfl
        rw [e, compared_purge, closed hclosed]
        exact hpurge
      have e : purgeReport (doorsTold q code s) = doorsTold q code s := by
        unfold purgeReport
        rw [none]
      rw [e]
    · rfl

/-! ## The node's report as a whole -/

theorem handState_hatch (hg : n.binding.target = .hatch) (code : Nat) (v : State) :
    handState i n code (.hatch q) v = takeHatch q code v := by
  unfold handState
  rw [hg]

theorem healthTold_hatch (hg : n.binding.target = .hatch) (v : State) : healthTold n v = v := by
  unfold healthTold
  rw [hg]

theorem kind_hatch (hg : n.binding.target = .hatch) : n.kind = .hatch := by
  unfold Node.kind
  rw [hg]
  rfl

/-- R132, R135: the state fields of a HATCH report, whatever its items. -/
theorem report_hatch {report : List Byte} (hv : ValidAnswer s x i n report r) (hg : n.binding.target = .hatch)
    (hq : readState .hatch r.state = some (.hatch q)) :
    ∃ t, Takes (.fieldReportReceived report) s t ∧ t.hatch.report = some q ∧ (q.room = .opened → t.hatch.air = .wet) ∧
      (q.room = .closed → s.hatch.purge = none → t.hatch.air = s.hatch.air) := by
  obtain ⟨t, takes, closed⟩ := report_taken hv
  rw [kind_hatch hg, hq, Option.getD_some] at closed
  have onlining : Moves .onlining (startEvent s) (onlined i n x (startEvent s)) :=
    onlined_untold fun w => healthTold_hatch (n := n.answered _) hg w
  have before : (onlined i n x (startEvent s)).hatch = s.hatch := onlining.hatch_eq id
  obtain ⟨opened, shut⟩ := takeHatch_air q x.code (onlined i n x (startEvent s))
  have held := takeHatch_report q x.code (onlined i n x (startEvent s))
  rw [before] at shut
  rw [← handState_hatch (i := i) hg] at opened shut held
  have after : t.hatch = (handed i n x r (.hatch q) (startEvent s)).hatch := closed.hatch
  have report : t.hatch.report = (handState i n x.code (.hatch q) (onlined i n x (startEvent s))).hatch.report := by
    rw [after]
    exact takeItems_report ..
  have air : t.hatch.air = (handState i n x.code (.hatch q) (onlined i n x (startEvent s))).hatch.air := by
    rw [after]
    exact takeItems_air ..
  exact ⟨t, takes, report.trans held, fun h => air.trans (opened h), fun h hp => air.trans (shut h hp)⟩

end Sys2Proof.Machine
end

section
/-! What an event or a snapshot of the HATCH node is handed in (R132, R136): the state fields of its report taken, with
no context at the hatch or with the owning one undisturbed. -/

namespace Sys2Proof.Machine

variable {s t u v w : State} {c i : Nat} {n : Node} {x : Transaction} {r : Report} {q : HatchReport} {y : Context}
  {code : Nat} {report : List Byte}

/-! ## Work that leaves the hatch's ownership -/

/-- The blocks that the locks and the air of the hatch reach. -/
def Allow.tending : Allow := { Allow.prompts with hatch := True, air := True }

/-- Work at the locks and the air of the hatch. -/
structure Tended (s t : State) : Prop where
  moves : Moves .tending s t
  owner : t.hatch.owner = s.hatch.owner
  waiting : t.hatch.waiting = s.hatch.waiting
  yielded : t.hatch.yielded = s.hatch.yielded
  contents : t.hatch.contents = s.hatch.contents
  report : t.hatch.report = s.hatch.report

theorem Tended.refl : Tended s s := ⟨.refl, rfl, rfl, rfl, rfl, rfl⟩

theorem Tended.trans (h : Tended s t) (g : Tended t u) : Tended s u :=
  ⟨h.moves.trans g.moves, g.owner.trans h.owner, g.waiting.trans h.waiting, g.yielded.trans h.yielded,
    g.contents.trans h.contents, g.report.trans h.report⟩

theorem Tended.of_hatch (m : Moves .tending s t) (h : t.hatch = s.hatch) : Tended s t :=
  ⟨m, by rw [h], by rw [h], by rw [h], by rw [h], by rw [h]⟩

theorem Tended.context (h : Tended s t) (c : Nat) : t.context? c = s.context? c := context?_congr (h.moves.contexts_eq id) c

theorem Tended.roomDoor (h : Tended s t) : roomDoor t = roomDoor s := by simp only [Machine.roomDoor, h.report]

theorem Tended.storeDoor (h : Tended s t) : storeDoor t = storeDoor s := by simp only [Machine.storeDoor, h.report]

theorem updateLocks_tended (s : State) : Tended s (updateLocks s) := by
  refine ⟨by apply updateLocks_moves .refl <;> trivial, updateLocks_owner s, updateLocks_waiting s, ?_,
    (updateLocks_aside s).contents, (updateLocks_aside s).report⟩
  obtain ⟨q, e⟩ := updateLocks_frame s
  rw [e]
  rfl

theorem updateWetDwell_hatch (s : State) : ∃ d, (updateWetDwell s).hatch = { s.hatch with wetDwell := d } := by
  unfold updateWetDwell
  split
  · split
    · exact ⟨s.hatch.wetDwell, rfl⟩
    · exact ⟨_, rfl⟩
  · exact ⟨_, rfl⟩

theorem updateWetDwell_tended (s : State) : Tended s (updateWetDwell s) := by
  obtain ⟨d, e⟩ := updateWetDwell_hatch s
  exact ⟨updateWetDwell_moves .refl trivial, by rw [e], by rw [e], by rw [e], by rw [e], by rw [e]⟩

theorem setHatchAir_tended (a : Air) (e : HatchEvent) (s : State) : Tended s (setHatchAir a e s) := by
  have locks := updateLocks_tended (setAirField a s)
  have posted : Tended (updateLocks (setAirField a s)) (postHatchAir e (updateLocks (setAirField a s))) :=
    .of_hatch (postHatchAir_moves e .refl trivial) rfl
  have rest := locks.trans (posted.trans (updateWetDwell_tended _))
  exact ⟨by apply setHatchAir_moves a e .refl <;> trivial, rest.owner, rest.waiting, rest.yielded, rest.contents, rest.report⟩

theorem checkCommanded_tended (code : Nat) (q : HatchReport) (s : State) : Tended s (checkCommanded code q s) := by
  have m : Moves .linkOnly s (checkCommanded code q s) := checkCommanded_moves code q .refl trivial
  exact .of_hatch (checkCommanded_moves code q .refl trivial) (m.hatch_eq id)

theorem stopRun_tended (s : State) : Tended s (stopRun s) := by
  have e := stopRun_hatch s
  exact ⟨by apply stopRun_moves .refl <;> trivial, by rw [e], by rw [e], by rw [e], by rw [e], by rw [e]⟩

/-- Work but for the report held and the retry delay. -/
theorem reported_tended (q : HatchReport) (s : State) :
    Tended (s.withHatch { s.hatch with report := some q }) (reported q s) := by
  unfold reported
  split
  · exact setHatchAir_tended ..
  · exact .refl

theorem compared_tended (q : HatchReport) (code : Nat) (s : State) :
    Tended (s.withHatch { s.hatch with report := some q }) (compared q code s) :=
  (reported_tended q s).trans ((updateLocks_tended _).trans (checkCommanded_tended ..))

/-! ## No context at the hatch -/

/-- No context owns the hatch, and none waits for a free one. -/
structure Unowned (s : State) : Prop where
  unowned : ∀ c, s.hatch.owner ≠ .context c
  alone : s.hatch.owner = .nobody → s.hatch.waiting = []

theorem Unowned.congr (h : Unowned s) (ho : t.hatch.owner = s.hatch.owner) (hw : t.hatch.waiting = s.hatch.waiting) :
    Unowned t := ⟨fun c => by rw [ho]; exact h.unowned c, fun k => hw.trans (h.alone (ho.symm.trans k))⟩

/-- R140: with no context at the hatch the grant evaluation can start a purge run and nothing else. -/
theorem grantEval_unowned (h : Unowned s) : Unowned (grantEval s) ∧ (grantEval s).custody = s.custody := by
  unfold grantEval
  split
  · exact ⟨h, rfl⟩
  · split
    · refine ⟨⟨fun c hc => ?_, fun hn => ?_⟩, (startPurge_aside s).custody⟩
      · rw [startPurge_owner] at hc
        cases hc
      · rw [startPurge_owner] at hn
        cases hn
    · split
      · next ho hw =>
        rw [h.alone ho] at hw
        cases hw
      · exact ⟨h, rfl⟩

/-- R140, R141: a purge run that no context yielded to ends with the hatch no one's. -/
theorem returnHatch_unowned (hy : s.hatch.yielded = none) (hw : s.hatch.waiting = []) :
    Unowned (returnHatch s) ∧ (returnHatch s).custody = s.custody := by
  have e : returnHatch s = grantEval (testOwner (updateLocks (s.withHatch { s.hatch with owner := .nobody, yielded := none }))) := by
    unfold returnHatch
    rw [hy]
  have locks := updateLocks_tended (s.withHatch { s.hatch with owner := .nobody, yielded := none })
  have test : testOwner (updateLocks (s.withHatch { s.hatch with owner := .nobody, yielded := none })) =
      updateLocks (s.withHatch { s.hatch with owner := .nobody, yielded := none }) := by
    unfold testOwner
    rw [locks.owner]
    rfl
  rw [e, test]
  have free : Unowned (updateLocks (s.withHatch { s.hatch with owner := .nobody, yielded := none })) :=
    ⟨fun c hc => (by rw [locks.owner] at hc; cases hc), fun _ => locks.waiting.trans hw⟩
  obtain ⟨unowned, custody⟩ := grantEval_unowned free
  exact ⟨unowned, custody.trans (locks.moves.custody_eq id)⟩

theorem purgeComplete_unowned (hy : s.hatch.yielded = none) (hw : s.hatch.waiting = []) :
    Unowned (purgeComplete s) ∧ (purgeComplete s).custody = s.custody := by
  have dried := (stopRun_tended s).trans (setHatchAir_tended .dry .wentDry (stopRun s))
  obtain ⟨unowned, custody⟩ := returnHatch_unowned (dried.yielded.trans hy) (dried.waiting.trans hw)
  exact ⟨unowned, custody.trans (dried.moves.custody_eq id)⟩

theorem purgeFail_unowned (hy : s.hatch.yielded = none) (hw : s.hatch.waiting = []) :
    Unowned (purgeFail s) ∧ (purgeFail s).custody = s.custody := by
  have stopped := stopRun_tended s
  obtain ⟨unowned, custody⟩ := returnHatch_unowned (s := postHatchAir .purgeFailed ((stopRun s).withHatch
    { (stopRun s).hatch with retry := some ((stopRun s).param .retryDelay * 1000) }))
    (stopped.yielded.trans hy) (stopped.waiting.trans hw)
  exact ⟨unowned, custody.trans (stopped.moves.custody_eq id)⟩

theorem purgeReport_unowned (ho : s.hatch.owner = .purge) (hy : s.hatch.yielded = none) (hw : s.hatch.waiting = []) :
    Unowned (purgeReport s) ∧ (purgeReport s).custody = s.custody := by
  have still : ∀ t : State, t.hatch.owner = .purge → Unowned t := fun t h =>
    ⟨fun c hc => (by rw [h] at hc; cases hc), fun hn => (by rw [h] at hn; cases hn)⟩
  unfold purgeReport
  split
  · exact ⟨still s ho, rfl⟩
  · split
    · exact purgeFail_unowned hy hw
    · dsimp only
      split
      · exact purgeComplete_unowned hy hw
      · exact ⟨still _ ho, rfl⟩

/-- R132, R141: a HATCH report with no context at the hatch. -/
theorem takeHatch_unowned (h : NoContext s) (q : HatchReport) (code : Nat) :
    Unowned (takeHatch q code s) ∧ (takeHatch q code s).custody = s.custody := by
  have tended := compared_tended q code s
  have custody : (compared q code s).custody = s.custody := tended.moves.custody_eq id
  have doors : (∀ c, s.hatch.owner ≠ .context c) → doorsTold q code s = compared q code s := fun hn => by
    unfold doorsTold
    cases ho : s.hatch.owner with
    | context c => exact absurd ho (hn c)
    | _ => rfl
  have quiet : s.hatch.owner ≠ .purge → Unowned s → Unowned (takeHatch q code s) ∧ (takeHatch q code s).custody = s.custody :=
    fun hp hu => by
      rw [takeHatch_eq, if_neg hp, doors hu.unowned]
      obtain ⟨unowned, same⟩ := grantEval_unowned (hu.congr tended.owner tended.waiting)
      exact ⟨unowned, same.trans custody⟩
  rcases h with ho | ⟨ho, hw⟩ | ⟨ho, hw, hy⟩
  · exact quiet (by rw [ho]; exact nofun)
      ⟨fun c hc => (by rw [ho] at hc; cases hc), fun hn => (by rw [ho] at hn; cases hn)⟩
  · exact quiet (by rw [ho]; exact nofun) ⟨fun c hc => (by rw [ho] at hc; cases hc), fun _ => hw⟩
  · rw [takeHatch_eq, if_pos ho, doors fun c hc => (by rw [ho] at hc; cases hc)]
    obtain ⟨unowned, same⟩ := purgeReport_unowned (tended.owner.trans ho) (tended.yielded.trans hy) (tended.waiting.trans hw)
    obtain ⟨unowned', same'⟩ := grantEval_unowned unowned
    exact ⟨unowned', same'.trans (same.trans custody)⟩

theorem NoContext.unowned (h : NoContext s) : Unowned s := by
  rcases h with ho | ⟨ho, hw⟩ | ⟨ho, -⟩
  · exact ⟨fun c hc => (by rw [ho] at hc; cases hc), fun hn => (by rw [ho] at hn; cases hn)⟩
  · exact ⟨fun c hc => (by rw [ho] at hc; cases hc), fun _ => hw⟩
  · exact ⟨fun c hc => (by rw [ho] at hc; cases hc), fun hn => (by rw [ho] at hn; cases hn)⟩

/-! ## The owning context -/

/-- What the owner keeps its hatch by: a phase that does not yield, or DRY air behind a CLOSED room door. -/
def Settled (y : Context) (s : State) : Prop :=
  y.phase.yieldable = false ∨ (s.hatch.air = .dry ∧ roomDoor s = .closed)

theorem grantEval_settled (ho : s.hatch.owner = .context c) (hy : s.context? c = some y) (h : Settled y s) :
    grantEval s = s := by
  rcases h with h | ⟨h, -⟩
  · exact grantEval_unyielding ho hy h
  · exact grantEval_dry ho h

theorem doorTold_still (hy : liveContext? s c = some y) : doorTold c (roomDoor s) (storeDoor s) s = s := by
  unfold doorTold
  rw [hy]
  dsimp only
  split
  · split
    · split
      · next h => exact absurd (h.1.symm.trans h.2) nofun
      · rfl
    · split
      · next h => exact absurd h (by simp)
      · rfl
  · rfl

/-- R132: a report that shows the hatch as it was leaves an owner that keeps its hatch. -/
theorem takeHatch_settled (ho : s.hatch.owner = .context c) (hy : s.context? c = some y) (hl : y.finish = none)
    (hq : s.hatch.report = some q) (h : Settled y s) (code : Nat) :
    Tended s (takeHatch q code s) ∧ (roomDoor s = .closed → (takeHatch q code s).hatch.air = s.hatch.air) := by
  have same : s.withHatch { s.hatch with report := some q } = s := by rw [← hq]; rfl
  have tended : Tended s (compared q code s) := by
    have t := compared_tended q code s
    rw [same] at t
    exact t
  have context := (tended.context c).trans hy
  have air : roomDoor s = .closed → (compared q code s).hatch.air = s.hatch.air := fun hd => by
    have room : q.room = .closed := by
      unfold roomDoor at hd
      rw [hq] at hd
      exact hd
    rw [(compared_airless q code s).air_eq id, (reported_air q s).2 room]
    rfl
  have doors : doorsTold q code s = compared q code s := by
    unfold doorsTold
    rw [ho, ← tended.roomDoor, ← tended.storeDoor]
    exact doorTold_still (liveContext?_eq context hl)
  have settled : Settled y (compared q code s) := h.imp id fun k => ⟨(air k.2).trans k.1, tended.roomDoor.trans k.2⟩
  rw [takeHatch_eq, if_neg (by rw [ho]; exact nofun), doors, grantEval_settled (tended.owner.trans ho) context settled]
  exact ⟨tended, air⟩

/-! ## The state an event is handed in -/

/-- The state fields of a HATCH report, where they are well formed. -/
def fieldsTaken (r : Report) (code : Nat) (s : State) : State :=
  match readState .hatch r.state with
  | some (.hatch q) => takeHatch q code s
  | _ => s

theorem handState_fieldsTaken (hg : n.binding.target = .hatch) (code : Nat) (s : State) :
    handState i n code ((readState .hatch r.state).getD .none) s = fieldsTaken r code s := by
  unfold handState fieldsTaken
  rw [hg]
  cases readState .hatch r.state with
  | none => rfl
  | some ns => cases ns <;> rfl

/-- The state that the items of a HATCH report are handed in. -/
structure Fed (r : Report) (code : Nat) (s v : State) : Prop where
  frame : ∃ w, Moves .onlining (startEvent s) w ∧ v = (fieldsTaken r code w).withNodes v.nodes
  node : (findNode v.nodes .hatch).isSome = true
  tables : TablesOk s → TablesOk v

theorem Ready.fed {ns : NodeState} (hg : n.binding.target = .hatch) (hns : ns = (readState .hatch r.state).getD .none)
    (h : Ready i n x ns (startEvent s) v) : Fed r x.code s v := by
  subst hns
  obtain ⟨frame, y, entered⟩ := h
  have onlining : Moves .onlining (startEvent s) (onlined i n x (startEvent s)) :=
    onlined_untold fun w => healthTold_hatch (n := n.answered _) hg w
  rw [handState_fieldsTaken hg] at frame
  refine ⟨⟨_, onlining, frame⟩, entered.isSome hg, fun hs => ?_⟩
  have taken : Moves .all (onlined i n x (startEvent s)) (fieldsTaken r x.code (onlined i n x (startEvent s))) := by
    unfold fieldsTaken
    split
    · apply takeHatch_moves _ _ .refl <;> trivial
    · exact .refl
  have tables := taken.tablesOk (onlining.tablesOk (s := startEvent s) hs)
  have before := (handState_entered i n x ((readState .hatch r.state).getD .none) (startEvent s)).1
  rw [handState_fieldsTaken hg] at before
  rw [frame]
  obtain ⟨hnodes, rest⟩ := tables
  refine ⟨?_, rest⟩
  show v.nodes.rising
  rw [entered.1, ← Table.put_put (startEvent s).nodes i (n.online (startEvent s) x) y, ← before]
  exact Table.put_rising hnodes

theorem report_reader {event : FieldEvent} (hv : ValidAnswer s x i n report r) (hg : n.binding.target = .hatch)
    (hb : NewBatch n r [event]) :
    ∃ v t, Takes (.fieldReportReceived report) s t ∧ Fed r x.code s v ∧ Closed (handEvent .hatch event v) t := by
  obtain ⟨t, takes, closed⟩ := report_taken hv
  obtain ⟨v, ready, e⟩ := handed_batch (x := x) (i := i) ((readState n.kind r.state).getD .none) hb (startEvent s)
  rw [e, hg] at closed
  exact ⟨v, t, takes, ready.fed hg (by rw [kind_hatch hg]), closed⟩

theorem report_readerSnapshot {es : List SnapEntry} (hv : ValidAnswer s x i n report r) (hg : n.binding.target = .hatch)
    (hb : WholeSnapshot n r es) :
    ∃ v t, Takes (.fieldReportReceived report) s t ∧ Fed r x.code s v ∧ Closed (hatchSnapshot (es.map (·.label)) v) t := by
  obtain ⟨t, takes, closed⟩ := report_taken hv
  obtain ⟨v, ready, e⟩ := handed_snapshot (x := x) (i := i) ((readState n.kind r.state).getD .none) hb (startEvent s)
  rw [e, hg] at closed
  exact ⟨v, t, takes, ready.fed hg (by rw [kind_hatch hg]), closed⟩

theorem Fed.contents (h : Fed r code s v) : v.hatch.contents = s.hatch.contents := by
  obtain ⟨⟨w, onlining, frame⟩, -, -⟩ := h
  have taken : Works ⟨False, False, True⟩ w (fieldsTaken r code w) := by
    unfold fieldsTaken
    split
    · exact takeHatch_works trivial _ _ .refl
    · exact .refl
  have e : v.hatch = (fieldsTaken r code w).hatch := by rw [frame]; rfl
  rw [e, taken.contents id, onlining.hatch_eq id]
  rfl

theorem Fed.unowned (h : Fed r code s v) (hn : NoContext s) : Unowned v ∧ v.custody = s.custody := by
  obtain ⟨⟨w, onlining, frame⟩, -, -⟩ := h
  have hatch : w.hatch = s.hatch := onlining.hatch_eq id
  have custody : w.custody = s.custody := onlining.custody_eq id
  have none : NoContext w := by
    unfold NoContext
    rw [hatch]
    exact hn
  have taken : Unowned (fieldsTaken r code w) ∧ (fieldsTaken r code w).custody = w.custody := by
    unfold fieldsTaken
    split
    · exact takeHatch_unowned none ..
    · exact ⟨none.unowned, rfl⟩
  rw [frame]
  exact ⟨taken.1.congr rfl rfl, taken.2.trans custody⟩

/-- The owning context in the state that it hears the reader in. -/
structure Owning (c : Nat) (y : Context) (s v : State) : Prop where
  owner : v.hatch.owner = .context c
  context : v.context? c = some y
  live : y.finish = none
  settled : Settled y v
  custody : v.custody = s.custody
  orders : v.orders = s.orders
  settings : v.settings = s.settings
  room : roomDoor v = roomDoor s
  store : storeDoor v = storeDoor s
  contents : v.hatch.contents = s.hatch.contents
  node : (findNode v.nodes .hatch).isSome = true

theorem Settled.congr (h : Settled y s) (hatch : t.hatch = s.hatch) : Settled y t := by
  unfold Settled at h ⊢
  simp only [roomDoor, hatch] at h ⊢
  exact h

theorem Fed.undisturbed (h : Fed r code s v) (howner : s.hatch.owner = .context c) (hlive : liveContext? s c = some y)
    (hreport : readState .hatch r.state = s.hatch.report.map NodeState.hatch) (hset : Settled y s) : Owning c y s v := by
  have hcontents := h.contents
  obtain ⟨⟨w, onlining, frame⟩, node, -⟩ := h
  obtain ⟨hy, hl⟩ := liveContext?_iff.mp hlive
  have hatch : w.hatch = s.hatch := onlining.hatch_eq id
  have owner : w.hatch.owner = .context c := by rw [hatch]; exact howner
  have context : w.context? c = some y := (context?_congr (onlining.contexts_eq id) c).trans hy
  have settled := hset.congr hatch
  have taken : Tended w (fieldsTaken r code w) ∧
      (roomDoor w = .closed → (fieldsTaken r code w).hatch.air = w.hatch.air) := by
    unfold fieldsTaken
    rw [hreport]
    cases hq : s.hatch.report with
    | none => exact ⟨.refl, fun _ => rfl⟩
    | some q => exact takeHatch_settled owner context hl (by rw [hatch]; exact hq) settled code
  obtain ⟨tended, air⟩ := taken
  have settled' : Settled y (fieldsTaken r code w) := settled.imp id fun k => ⟨(air k.2).trans k.1, tended.roomDoor.trans k.2⟩
  have door : roomDoor w = roomDoor s ∧ storeDoor w = storeDoor s := by simp only [roomDoor, storeDoor, hatch, and_self]
  refine ⟨?_, ?_, hl, ?_, ?_, ?_, ?_, ?_, ?_, hcontents, node⟩ <;> rw [frame]
  · exact tended.owner.trans owner
  · exact (tended.context c).trans context
  · exact settled'.congr rfl
  · exact (tended.moves.custody_eq id).trans (onlining.custody_eq id)
  · exact (tended.moves.orders_eq id).trans (onlining.orders_eq id)
  · exact (tended.moves.settings_eq id).trans (onlining.settings_eq id)
  · exact tended.roomDoor.trans door.1
  · exact tended.storeDoor.trans door.2

theorem Fed.owned (h : Fed r code s v) (ho : OwnerHears s c y r) (hset : Settled y s) : Owning c y s v := by
  obtain ⟨howner, hlive, -, hreport⟩ := ho
  exact h.undisturbed howner hlive hreport hset

end Sys2Proof.Machine
end

section
/-! The reader of the hatch while no context owns or awaits it (R61, R63, R136, R137). -/

namespace Sys2Proof.Machine

variable {s t u v : State} {c i j : Nat} {q : Record} {l : Label} {y : Context}

/-! ## The contents list -/

theorem withoutRepeats_nodup {ls : List Label} (h : ls.Nodup) : withoutRepeats ls = ls := by
  have all : ∀ (ls acc : List Label), (acc ++ ls).Nodup →
      ls.foldl (fun acc l => if acc.contains l then acc else acc ++ [l]) acc = acc ++ ls := by
    intro ls
    induction ls with
    | nil => exact fun acc _ => (List.append_nil acc).symm
    | cons l ls ih =>
      intro acc hn
      have fresh : acc.contains l = false := by
        rw [← Bool.not_eq_true, List.contains_iff_mem]
        intro hm
        exact (List.disjoint_of_nodup_append hn) hm List.mem_cons_self
      rw [List.foldl_cons, fresh, if_neg Bool.false_ne_true, ih _ (by simpa using hn)]
      simp
  exact all ls [] h

/-- The label joined to the contents list (R136). -/
def withLabel (l : Label) (s : State) : State :=
  s.withHatch { s.hatch with contents :=
    if s.hatch.contents.contains l ∨ Config.hatchCapacity ≤ s.hatch.contents.length then s.hatch.contents
    else s.hatch.contents ++ [l] }

/-- The label taken from the contents list (R136). -/
def withoutLabel (l : Label) (s : State) : State :=
  s.withHatch { s.hatch with contents := s.hatch.contents.filter (· != l) }

/-- The contents list replaced (R137). -/
def withLabels (ls : List Label) (s : State) : State :=
  s.withHatch { s.hatch with contents := (withoutRepeats ls).take Config.hatchCapacity }

/-- A reader event passed on, with the wet dwell and the grants worked out after it. -/
def heard (toContext : Nat → State → State) (toCustody : State → State) (s : State) : State :=
  grantEval (updateWetDwell (passEvent toContext toCustody s))

theorem hatchEntered_eq (l : Label) (s : State) :
    hatchEntered l s = heard (fun c => contextEntered c l) (hatchSighted l) (withLabel l s) := rfl

theorem hatchLeft_eq (l : Label) (s : State) :
    hatchLeft l s = heard (fun c => contextLeft c l) (hatchDeparted l) (withoutLabel l s) := rfl

theorem hatchSnapshot_eq (ls : List Label) (s : State) :
    hatchSnapshot ls s = heard (fun c => contextSnapshot c ls) (hatchSnapshotUnowned ls) (withLabels ls s) := rfl

theorem heard_contents {f : Nat → State → State} {g : State → State} (hf : ∀ c u, Works .none u (f c u))
    (hg : ∀ u, Works .none u (g u)) (s : State) : (heard f g s).hatch.contents = s.hatch.contents := by
  have passed : Works .none s (passEvent f g s) := by
    unfold passEvent
    split
    · exact hf ..
    all_goals exact hg s
  exact (grantEval_works (updateWetDwell_works passed)).contents id

theorem hatchEntered_contents (l : Label) (s : State) : (hatchEntered l s).hatch.contents =
    if l ∈ s.hatch.contents ∨ 24 ≤ s.hatch.contents.length then s.hatch.contents else s.hatch.contents ++ [l] := by
  rw [hatchEntered_eq, heard_contents (fun _ _ => contextEntered_works _ _ .refl) (fun _ => hatchSighted_works _ .refl)]
  simp only [withLabel, List.contains_iff_mem]
  rfl

theorem hatchLeft_contents (l : Label) (s : State) :
    (hatchLeft l s).hatch.contents = s.hatch.contents.filter (· != l) := by
  rw [hatchLeft_eq, heard_contents (fun _ _ => contextLeft_works _ _ .refl) (fun _ => hatchDeparted_works _ .refl)]
  rfl

theorem hatchSnapshot_contents {ls : List Label} (hn : ls.Nodup) (hl : ls.length ≤ 24) (s : State) :
    (hatchSnapshot ls s).hatch.contents = ls := by
  rw [hatchSnapshot_eq, heard_contents (fun _ _ => contextSnapshot_works _ _ .refl) (fun _ => hatchSnapshotUnowned_works _ .refl)]
  show (withoutRepeats ls).take 24 = ls
  rw [withoutRepeats_nodup hn, List.take_of_length_le hl]

/-! ## Heard by the Custody Table -/

theorem heard_unowned {f : Nat → State → State} {g : State → State} (h : Unowned s) (hg : (g s).hatch = s.hatch) :
    (heard f g s).custody = (g s).custody := by
  have passed : passEvent f g s = g s := by
    unfold passEvent
    cases ho : s.hatch.owner with
    | context c => exact absurd ho (h.unowned c)
    | _ => rfl
  have dwell := updateWetDwell_tended (g s)
  unfold heard
  rw [passed]
  obtain ⟨-, custody⟩ := grantEval_unowned (s := updateWetDwell (g s))
    (h.congr (dwell.owner.trans (by rw [hg])) (dwell.waiting.trans (by rw [hg])))
  exact custody.trans (dwell.moves.custody_eq id)

theorem hatchSighted_hatch (l : Label) (s : State) : (hatchSighted l s).hatch = s.hatch := by
  have m : Moves { Allow.all with hatch := False } s (hatchSighted l s) := by
    apply hatchSighted_moves l .refl <;> trivial
  exact m.hatch_eq id

/-- R61: a record that is sighted in the hatch and was known to lie nowhere else. -/
theorem hatchSighted_conflict (hf : findLabel s l = some j) (hr : s.record? j = some q)
    (hl : q.location = .inHand ∨ q.location = .unknown) :
    RecordIs (hatchSighted l s) j (if q.state.isBlocked then q.state else .blocked .custodyConflict) .hatch := by
  have away : q.location ≠ .hatch := by
    rcases hl with hl | hl
    · rw [hl]; exact nofun
    · rw [hl]; exact nofun
  have missed : missedDeparture j .hatch s = s := by
    unfold missedDeparture
    rw [hr]
    dsimp only
    rw [if_neg away]
    rcases hl with hl | hl
    · rw [hl]
    · rw [hl]
  have e : hatchSighted l s = claim .custody j (fun r => r.location != .hatch) (fun r => r.blockedAt .custodyConflict .hatch) s := by
    unfold hatchSighted
    rw [hf]
    dsimp only
    rw [missed]
  rw [e]
  obtain ⟨⟨y, hy, becomes⟩, -⟩ := claim_changed .custody hr (expected := fun r => r.location != .hatch) (by simpa using away)
    (fun r => r.blockedAt .custodyConflict .hatch)
  exact becomes.recordIs hy rfl

theorem hatchDeparted_location (q : Record) : q.hatchDeparted.location = .inHand := by
  unfold Record.hatchDeparted
  split <;> rfl

theorem hatchDeparted_hatch (l : Label) (s : State) : (hatchDeparted l s).hatch = s.hatch := by
  have m : Moves { Allow.all with hatch := False } s (hatchDeparted l s) := by
    apply hatchDeparted_moves l .refl <;> trivial
  exact m.hatch_eq id

/-- R61: a record that leaves the hatch. -/
theorem hatchDeparted_leaves (hf : findLabel s l = some j) (hr : s.record? j = some q) (hl : q.location = .hatch) :
    RecordIs (hatchDeparted l s) j q.hatchDeparted.state .inHand := by
  have e : hatchDeparted l s = claim .custody j (fun r => r.location == .hatch) Record.hatchDeparted s := by
    unfold hatchDeparted
    rw [hf]
  rw [e]
  obtain ⟨⟨y, hy, becomes⟩, -⟩ := claim_changed .custody hr (expected := fun r => r.location == .hatch) (by simpa using hl)
    Record.hatchDeparted
  exact becomes.recordIs hy (hatchDeparted_location q)

theorem hatchSighted_unshown {m : Label} (hm : m ≠ l) (s : State) : Unshown l s (hatchSighted m s) := by
  refine .of_found hm (by apply hatchSighted_moves m .refl <;> trivial) (fun hf => ?_) (fun i hf => ?_)
  · unfold hatchSighted
    rw [hf]
    exact .of_custody rfl
  · unfold hatchSighted
    rw [hf]
    dsimp only
    exact (missedDeparture_besides _ _ _).trans (claim_besides _ _ _ _ _)

/-- R63: a record at HATCH that a snapshot does not show. -/
theorem hatchSnapshotUnowned_missing {ls : List Label} (hs : TablesOk s) (hr : s.record? j = some q)
    (hl : q.location = .hatch) (hidden : q.label ∉ ls) :
    RecordIs (hatchSnapshotUnowned ls s) j (if q.state.isBlocked then q.state else .blocked .missing) .unknown := by
  have first : Unshown q.label s (ls.foldl (fun s l => hatchSighted l s) s) :=
    .foldl _ (fun m hm u => hatchSighted_unshown (fun e => hidden (by rw [← e]; exact hm)) u) s
  obtain ⟨tables, stayed⟩ := first hs
  obtain ⟨r, hr', stays⟩ := stayed j q hr rfl
  unfold hatchSnapshotUnowned
  dsimp only
  generalize ls.foldl (fun s l => hatchSighted l s) s = w at tables hr'
  have place : r.location = .hatch := stays.bides.place.trans hl
  rw [← stays.bides.blockedFor (fun c hc => by rw [hl] at hc; cases hc)]
  refine (markMissing_misses .custody).all_in _ w r ?_ hr' (fun c hc => by rw [place] at hc; cases hc)
  refine (tables.mem_recordsWhere _).mpr ⟨r, hr', ?_⟩
  rw [place, stays.lies.label, Bool.and_eq_true, Bool.not_eq_true']
  refine ⟨by simp, ?_⟩
  rw [← Bool.not_eq_true, List.contains_iff_mem]
  exact hidden

theorem hatchSnapshotUnowned_hatch (ls : List Label) (s : State) : (hatchSnapshotUnowned ls s).hatch = s.hatch := by
  have m : Moves { Allow.all with hatch := False } s (hatchSnapshotUnowned ls s) := by
    apply hatchSnapshotUnowned_moves ls .refl <;> trivial
  exact m.hatch_eq id

/-! ## The events in the state they are handed in -/

theorem RecordIs.of_custody {st : CState} {place : Location} (h : t.custody = s.custody) (hr : RecordIs s j st place) :
    RecordIs t j st place := by
  obtain ⟨r, hr, is⟩ := hr
  exact ⟨r, (record?_congr h j).trans hr, is⟩

theorem entered_unowned (h : Unowned s) (hf : findLabel s l = some j) (hr : s.record? j = some q)
    (hl : q.location = .inHand ∨ q.location = .unknown) :
    RecordIs (hatchEntered l s) j (if q.state.isBlocked then q.state else .blocked .custodyConflict) .hatch := by
  rw [hatchEntered_eq]
  exact (hatchSighted_conflict (s := withLabel l s) hf hr hl).of_custody
    (heard_unowned (s := withLabel l s) (h.congr rfl rfl) (hatchSighted_hatch ..))

theorem left_unowned (h : Unowned s) (hf : findLabel s l = some j) (hr : s.record? j = some q) (hl : q.location = .hatch) :
    RecordIs (hatchLeft l s) j q.hatchDeparted.state .inHand := by
  rw [hatchLeft_eq]
  exact (hatchDeparted_leaves (s := withoutLabel l s) hf hr hl).of_custody
    (heard_unowned (s := withoutLabel l s) (h.congr rfl rfl) (hatchDeparted_hatch ..))

theorem snapshot_unowned {ls : List Label} (h : Unowned s) (hs : TablesOk s) (hr : s.record? j = some q)
    (hl : q.location = .hatch) (hidden : q.label ∉ ls) :
    RecordIs (hatchSnapshot ls s) j (if q.state.isBlocked then q.state else .blocked .missing) .unknown := by
  rw [hatchSnapshot_eq]
  exact (hatchSnapshotUnowned_missing (s := withLabels ls s) hs hr hl hidden).of_custody
    (heard_unowned (s := withLabels ls s) (h.congr rfl rfl) (hatchSnapshotUnowned_hatch ..))

theorem departed_state (q : Record) : q.hatchDeparted.state =
    match q.state with
    | .picked => .picked
    | .received => .received
    | .loose => .loose
    | .blocked b => .blocked b
    | _ => .blocked .custodyConflict := by
  unfold Record.hatchDeparted Record.blockedAt
  cases q.state <;> simp [CState.isBlocked]

end Sys2Proof.Machine
end

section
/-! The tests that follow a reader event at an owned hatch (R160 to R164): they change no record, and of the context
that they are made for they keep the lists. -/

namespace Sys2Proof.Machine

variable {s t u v w : State} {c d i j : Nat} {x y z : Context} {o : HOutcome}

/-! ## Where context c stands -/

/-- Context c owns the hatch, or has yielded it to a purge run, or has left it empty. -/
def Placed (c : Nat) (s : State) : Prop :=
  s.hatch.owner = .context c ∨ s.hatch.owner = .purge ∨ (s.hatch.contents = [] ∧ c ∉ s.hatch.waiting)

/-- A step at the hatch of context c: the records stand, and so do the context's lists. -/
structure Rests (c : Nat) (s t : State) : Prop where
  placed : Placed c t
  contents : t.hatch.contents = s.hatch.contents
  custody : t.custody = s.custody
  context : ∀ x, s.context? c = some x → ∃ y, t.context? c = some y ∧ y.manifest = x.manifest ∧ y.rejected = x.rejected

theorem Rests.refl (h : Placed c s) : Rests c s s := ⟨h, rfl, rfl, fun x hx => ⟨x, hx, rfl, rfl⟩⟩

theorem Rests.trans (h : Rests c s t) (g : Rests c t u) : Rests c s u where
  placed := g.placed
  contents := g.contents.trans h.contents
  custody := g.custody.trans h.custody
  context x hx := by
    obtain ⟨y, hy, hm, hr⟩ := h.context x hx
    obtain ⟨z, hz, hm', hr'⟩ := g.context y hy
    exact ⟨z, hz, hm'.trans hm, hr'.trans hr⟩

theorem Rests.of_tended (h : Placed c s) (g : Tended s t) : Rests c s t where
  placed := by
    unfold Placed
    rw [g.owner, g.contents, g.waiting]
    exact h
  contents := g.contents
  custody := g.moves.custody_eq id
  context x hx := ⟨x, (g.context c).trans hx, rfl, rfl⟩

theorem Rests.of_prompts (h : Placed c s) (m : Moves .prompts s t) : Rests c s t where
  placed := by
    unfold Placed
    rw [m.hatch_eq id]
    exact h
  contents := by rw [m.hatch_eq id]
  custody := m.custody_eq id
  context x hx := ⟨x, (m.prompts_context c).trans hx, rfl, rfl⟩

theorem setPhase_rests (h : Placed c s) (hx : s.context? c = some x) (ph : Phase) : Rests c s (setPhase c ph s) where
  placed := by
    unfold Placed
    rw [setPhase_hatch]
    exact h
  contents := by rw [setPhase_hatch]
  custody := (setPhase_aside c ph s).custody
  context y hy := by
    cases hx.symm.trans hy
    exact ⟨_, setPhase_context hx ph, rfl, rfl⟩

theorem grantEval_rests (h : Placed c s) : Rests c s (grantEval s) := by
  have contents : (grantEval s).hatch.contents = s.hatch.contents := (grantEval_works (W := .none) .refl).contents id
  have purging : grantEval s = startPurge s → Rests c s (grantEval s) := fun e => by
    rw [e]
    rw [e] at contents
    exact ⟨.inr (.inl (startPurge_owner s)), contents, (startPurge_aside s).custody,
      fun x hx => ⟨x, (startPurge_context s c).trans hx, rfl, rfl⟩⟩
  rcases h with ho | ho | ⟨he, hw⟩
  · rcases grantEval_owned ho with e | ⟨e, -⟩
    · rw [e]
      exact .refl (.inl ho)
    · exact purging e
  · have e : grantEval s = s := by
      unfold grantEval
      split
      · rfl
      · split
        · next h =>
          have take := h.2
          unfold purgeMayTake at take
          rw [ho] at take
          cases take
        · rw [ho]
    rw [e]
    exact .refl (.inr (.inl ho))
  · have leaves := grantEval_leaves (c := c) (s := s) fun _ => hw
    exact ⟨.inr (.inr ⟨contents.trans he, fun hm => hw (grantEval_waiting hm)⟩), contents, leaves.empty he,
      fun x hx => ⟨x, leaves.context.trans hx, rfl, rfl⟩⟩

theorem enterPhase_rests (h : Placed c s) (hx : s.context? c = some x) (ph : Phase) : Rests c s (enterPhase c ph s) := by
  have phase := setPhase_rests h hx ph
  have locks := phase.trans (.of_tended phase.placed (updateLocks_tended _))
  unfold enterPhase
  dsimp only
  split
  · exact locks.trans (grantEval_rests locks.placed)
  · exact locks

/-- R168: a context that ends at an empty hatch. -/
theorem endContext_rests (he : s.hatch.contents = []) (hx : s.context? c = some x) (hl : x.finish = none) (o : HOutcome) :
    Rests c s (endContext c o s) := by
  obtain ⟨ended, -, custody⟩ := endContext_spec hx hl o
  have contents : (endContext c o s).hatch.contents = s.hatch.contents := (endContext_works (W := .none) c o .refl).contents id
  refine ⟨.inr (.inr ⟨contents.trans he, fun hm => (endContext_waiting (liveContext?_eq hx hl) o hm).2 rfl⟩), contents,
    custody he, fun y hy => ?_⟩
  cases hx.symm.trans hy
  exact ⟨_, ended, rfl, rfl⟩

theorem testUnloading_rests (h : Placed c s) : Rests c s (testUnloading c s) := by
  unfold testUnloading
  split
  · exact .refl h
  · next x hx =>
    obtain ⟨hx, hl⟩ := liveContext?_iff.mp hx
    split
    · exact .refl h
    · split
      · next hc => exact endContext_rests hc.2.1 hx hl _
      · exact .refl h

theorem testWaitDry_rests (h : Placed c s) : Rests c s (testWaitDry c s) := by
  unfold testWaitDry
  split
  · exact .refl h
  · next x hx =>
    obtain ⟨hx, hl⟩ := liveContext?_iff.mp hx
    split
    · have entered := enterPhase_rests h hx .unloading
      exact entered.trans (testUnloading_rests entered.placed)
    · exact .refl h

theorem enterWaitDry_rests (accepted : Bool) (h : Placed c s) (hx : s.context? c = some x) :
    Rests c s (enterWaitDry accepted c s) := by
  have phase := setPhase_rests h hx .waitDry
  have prompt : Moves .prompts (setPhase c .waitDry s)
      (if accepted then setPhase c .waitDry s else promptClosed c (setPhase c .waitDry s)) := by
    split
    · exact .refl
    · exact promptClosed_prompts ..
  unfold enterWaitDry
  dsimp only
  generalize (if accepted then setPhase c .waitDry s else promptClosed c (setPhase c .waitDry s)) = p at prompt
  have prompted := phase.trans (.of_prompts phase.placed prompt)
  have locks := prompted.trans (.of_tended prompted.placed (updateLocks_tended _))
  split
  · have granted := locks.trans (grantEval_rests locks.placed)
    exact granted.trans (testWaitDry_rests granted.placed)
  · exact locks.trans (testWaitDry_rests locks.placed)

theorem testRecallReturn_rests (h : Placed c s) : Rests c s (testRecallReturn c s) := by
  unfold testRecallReturn
  split
  · exact .refl h
  · next x hx =>
    obtain ⟨hx, hl⟩ := liveContext?_iff.mp hx
    split
    · split
      · next he _ => exact endContext_rests he hx hl _
      · split
        · exact enterWaitDry_rests false h hx
        · exact .refl h
    · exact .refl h

/-- R160: RECALL within its limit. -/
theorem testRecall_rests (h : Placed c s) (hx : s.context? c = some x) (ht : x.timer.isSome = true) :
    Rests c s (testRecall c s) := by
  unfold testRecall
  split
  · exact .refl h
  · next y hy =>
    obtain ⟨hy, hl⟩ := liveContext?_iff.mp hy
    cases hx.symm.trans hy
    split
    · split
      · next hn =>
        obtain ⟨m, hm⟩ := Option.isSome_iff_exists.mp ht
        rw [hm] at hn
        cases hn
      · split
        · exact enterWaitDry_rests false h hx
        · exact .refl h
    · exact .refl h

/-! ## An event heard by the owner -/

theorem heard_owned {f : Nat → State → State} {g : State → State} (ho : s.hatch.owner = .context c) :
    heard f g s = grantEval (updateWetDwell (f c s)) := by
  unfold heard passEvent
  rw [ho]

theorem dwelt_rests (h : Placed c s) : Rests c s (grantEval (updateWetDwell s)) :=
  have dwell := Rests.of_tended h (updateWetDwell_tended s)
  dwell.trans (grantEval_rests dwell.placed)

/-- R140: an owner that keeps its hatch goes on with it. -/
theorem dwelt_settled (ho : s.hatch.owner = .context c) (hy : s.context? c = some y) (h : Settled y s) :
    grantEval (updateWetDwell s) = updateWetDwell s := by
  have dwell := updateWetDwell_tended s
  refine grantEval_settled (dwell.owner.trans ho) ((dwell.context c).trans hy) (h.imp id fun k => ?_)
  obtain ⟨m, e⟩ := updateWetDwell_hatch s
  exact ⟨by rw [e]; exact k.1, dwell.roomDoor.trans k.2⟩

end Sys2Proof.Machine
end

section
/-! ENTERED events heard by the owning context (R154, R156, R157, R160, R162 to R164). -/

namespace Sys2Proof.Machine

variable {s t u v w : State} {c d i j k : Nat} {x y z : Context} {o : Order} {q r : Record} {l : Label} {f : Record → Record}

/-! ## Claims of the owner that end no order -/

/-- What a claim touches that ends no order: not the contexts, the hatch, the node table or the settings. -/
def Allow.calm : Allow := { Allow.all with contexts := False, hatch := False, nodes := False, settings := False }

/-- Told of a change to a state that is not BLOCKED, the Order Queue releases nothing. -/
theorem orderTold_calmly (who : Claimant) (hr : s.record? i = some r) (hb : r.state.isBlocked = false) :
    Moves .calm s (orderTold who i s) := by
  have evaluated : ∀ k, Moves .calm s (evaluateOrder k s) := fun k => by
    apply evaluateOrder_moves k .refl <;> trivial
  unfold orderTold
  rw [hr]
  dsimp only
  split
  · exact .refl
  · split
    · exact .refl
    · split
      · exact .refl
      · split
        · exact evaluated _
        · exact evaluated _
        · exact evaluated _
        · exact evaluated _
        · split
          · split
            · exact postOrder_moves _ (putOrder_moves _ _ .refl trivial) trivial
            · exact .refl
          all_goals exact .refl
        · apply markHanded_moves _ _ .refl <;> trivial
        · next e => rw [e] at hb; cases hb
        all_goals exact .refl

/-- A claim of the sequencer to a state that is not BLOCKED, or one that keeps the state. -/
theorem claim_calmly {expected : Record → Bool} (hf : ∀ r, (f r).state.isBlocked = false ∨ (f r).state = r.state)
    (c i : Nat) (s : State) : Moves .calm s (claim (.handover c) i expected f s) := by
  unfold claim
  split
  · exact .refl
  · next r hr =>
    split
    · rw [changeRecord_eq hr]
      have basic : Moves .calm s (basicChange false i (f r) s) := by
        apply basicChange_moves false i (f r) .refl <;> trivial
      have told : Moves .calm s (if (f r).state ≠ r.state then orderTold (.handover c) i (basicChange false i (f r) s)
          else basicChange false i (f r) s) := by
        split
        · next hne =>
          exact basic.trans (orderTold_calmly _ (basicChange_record hr false (f r)) ((hf r).resolve_right hne))
        · exact basic
      show Moves .calm s (climateTold i (some r.location) (rackTold i r _))
      apply climateTold_moves
      · exact rackTold_moves i r told trivial trivial
      all_goals trivial
    · exact .refl

theorem Moves.calm_context (m : Moves .calm s t) (c : Nat) : t.context? c = s.context? c :=
  context?_congr (m.contexts_eq id) c

/-! ## The owner -/

/-- Context c, y, owns the hatch and is live. -/
structure Owns (c : Nat) (y : Context) (s : State) : Prop where
  owner : s.hatch.owner = .context c
  context : s.context? c = some y
  live : y.finish = none

theorem Owns.live? (h : Owns c y s) : liveContext? s c = some y := liveContext?_eq h.context h.live

theorem Owns.placed (h : Owns c y s) : Placed c s := .inl h.owner

theorem hasRoom_iff (y : Context) : y.hasRoom = true ↔ y.roomLeft := decide_eq_true_iff

/-- The record of a label that the manifest holds. -/
theorem manifestRecord_held (hf : findLabel s l = some j) (h : y.holds j = true) : manifestRecord s y l = some j := by
  unfold manifestRecord
  rw [hf]
  exact if_pos h

theorem manifestRecord_unheld (hf : findLabel s l = some j) (h : y.holds j = false) : manifestRecord s y l = none := by
  unfold manifestRecord
  rw [hf]
  exact if_neg (by rw [h]; exact Bool.false_ne_true)

theorem manifestRecord_foreign (hf : findLabel s l = none) : manifestRecord s y l = none := by
  unfold manifestRecord
  rw [hf]

theorem Works.hasEntry {W : Scope} {g : Target} {cmd : CmdKind} (h : Works W s t) (he : hasEntry s g cmd = true) :
    hasEntry t g cmd = true := by
  unfold Machine.hasEntry at he ⊢
  rw [h.nodes]
  cases hf : findNode s.nodes g with
  | none => rw [hf] at he; cases he
  | some n =>
    rw [hf] at he
    dsimp only at he ⊢
    obtain ⟨e, hm, hkey⟩ := List.any_eq_true.mp he
    obtain ⟨e', hm', hnode, hcmd⟩ := h.keys e hm
    exact List.any_eq_true.mpr ⟨e', hm', by rw [hnode, hcmd]; exact hkey⟩

/-! ## A label that the phase does not name -/

/-- Record j, q, at HATCH in its state. -/
def Sheltered (j : Nat) (q : Record) (t : State) : Prop :=
  ∃ r, t.record? j = some r ∧ r.state = q.state ∧ r.location = .hatch ∧ r.label = q.label

theorem Sheltered.of_custody (h : t.custody = s.custody) (hr : Sheltered j q s) : Sheltered j q t := by
  obtain ⟨r, hr, is⟩ := hr
  exact ⟨r, (record?_congr h j).trans hr, is⟩

theorem Sheltered.recordIs (h : Sheltered j q t) : RecordIs t j q.state .hatch := by
  obtain ⟨r, hr, hstate, hplace, -⟩ := h
  exact ⟨r, hr, hstate, hplace⟩

/-- A label rejected: it joins the list, SIGNAL_REJECT waits, a BLOCKED record is at HATCH, any other stands. -/
structure Rejects (c : Nat) (y : Context) (l : Label) (s t : State) : Prop where
  hatch : t.hatch = s.hatch
  context : t.context? c = some { y with rejected := y.rejected ++ [l] }
  signalled : hasEntry t .hatch .signalReject = true
  foreign : findLabel s l = none → t.custody = s.custody ∧ t.notices.pending.get? 29 = some (.foreignLabel l .hatch)
  known : ∀ j q, findLabel s l = some j → s.record? j = some q →
    (q.state.isBlocked = true → Sheltered j q t) ∧ (q.state.isBlocked = false → t.record? j = some q)
  others : ∀ j, findLabel s l = some j → ∀ k, k ≠ j → t.record? k = s.record? k

theorem blockedToHatch_record (c : Nat) (hf : findLabel s l = some j) (hr : s.record? j = some q)
    (hb : q.state.isBlocked = true) : Sheltered j q (blockedToHatch c l s) := by
  unfold blockedToHatch
  rw [hf]
  dsimp only
  by_cases hl : q.location = .hatch
  · have refused : claim (.handover c) j (fun r => r.state.isBlocked && r.location != .hatch)
        (fun r => { r with location := .hatch }) s = s := by
      unfold claim
      rw [hr]
      exact if_neg (by simp [hl])
    rw [refused]
    exact ⟨q, hr, rfl, hl, rfl⟩
  · obtain ⟨⟨y, hy, becomes⟩, -⟩ := claim_changed (.handover c) hr
      (expected := fun r => r.state.isBlocked && r.location != .hatch) (by simp [hb, hl])
      (fun r => { r with location := .hatch })
    exact ⟨y, hy, becomes.state, becomes.location, becomes.label⟩

/-- A claim that keeps the state is no other record's. -/
theorem blockedToHatch_others (c : Nat) (hf : findLabel s l = some j) (hk : k ≠ j) :
    (blockedToHatch c l s).record? k = s.record? k := by
  unfold blockedToHatch
  rw [hf]
  dsimp only
  unfold claim
  split
  · rfl
  · next r hr =>
    split
    · exact (changeRecord_atRecord (new := { r with location := .hatch }) hr rfl _ _).others k hk
    · rfl

theorem addRejected_eq (hy : s.context? c = some y) (l : Label) :
    addRejected c l s = putContext c { y with rejected := y.rejected ++ [l] } s := by
  unfold addRejected
  rw [hy]

theorem signalReject_prompts (s : State) : Moves .prompts s (signalReject s) := signalReject_moves .refl trivial

theorem promptRemove_prompts (c : Nat) (s : State) : Moves .prompts s (promptRemove c s) :=
  promptRemove_moves c .refl trivial

theorem unnamedEntered_eq (hy : s.context? c = some y) (hl : l ∉ y.rejected) (hm : manifestRecord s y l = none)
    (hroom : y.roomLeft) : unnamedEntered c l s =
      let v := blockedToHatch c l (signalReject (putContext c { y with rejected := y.rejected ++ [l] } s))
      let v := if (findLabel v l).isSome then v else post (.foreignLabel l .hatch) v
      if y.phase.side = .room then promptRemove c v else v := by
  have listed : ¬(y.rejected.contains l = true ∨ (manifestRecord s y l).isSome = true) := by
    rw [hm, List.contains_iff_mem]
    exact fun h => h.elim hl (by simp)
  unfold unnamedEntered
  rw [hy]
  dsimp only
  rw [if_neg listed, if_pos ((hasRoom_iff y).mpr hroom), addRejected_eq hy]
  cases findLabel (blockedToHatch c l (signalReject (putContext c { y with rejected := y.rejected ++ [l] } s))) l with
  | none => rfl
  | some i => rfl

theorem unnamedEntered_rejects (hy : s.context? c = some y) (hnode : (findNode s.nodes .hatch).isSome = true)
    (hl : l ∉ y.rejected) (hm : manifestRecord s y l = none) (hroom : y.roomLeft) :
    Rejects c y l s (unnamedEntered c l s) := by
  rw [unnamedEntered_eq hy hl hm hroom]
  have listed := putContext_same c { y with rejected := y.rejected ++ [l] } s
  have signal := signalReject_prompts (putContext c { y with rejected := y.rejected ++ [l] } s)
  have signalled : hasEntry (signalReject (putContext c { y with rejected := y.rejected ++ [l] } s)) .hatch .signalReject = true :=
    postCommand_hasEntry (s := putContext c { y with rejected := y.rejected ++ [l] } s) hnode ..
  have custody : (signalReject (putContext c { y with rejected := y.rejected ++ [l] } s)).custody = s.custody := signal.custody_eq id
  have hatch : (signalReject (putContext c { y with rejected := y.rejected ++ [l] } s)).hatch = s.hatch := signal.hatch_eq id
  have context := (signal.prompts_context c).trans listed
  generalize signalReject (putContext c { y with rejected := y.rejected ++ [l] } s) = a at signalled custody hatch context
  obtain ⟨moved, spares⟩ := blockedToHatch_spares c l a
  have works : Works .none a (blockedToHatch c l a) := blockedToHatch_works c l .refl
  have label : findLabel a l = findLabel s l := findLabel_congr custody l
  have placed : ∀ j q, findLabel s l = some j → s.record? j = some q →
      (q.state.isBlocked = true → Sheltered j q (blockedToHatch c l a)) ∧
        (q.state.isBlocked = false → (blockedToHatch c l a).record? j = some q) := fun j q hf hr => by
    have hr' := (record?_congr custody j).trans hr
    exact ⟨blockedToHatch_record c (label.trans hf) hr', spares j q hr'⟩
  have untouched : findLabel s l = none → blockedToHatch c l a = a := fun hf => by
    unfold blockedToHatch
    rw [label, hf]
  have found : findLabel s l = none → (findLabel (blockedToHatch c l a) l).isSome = false := fun hf => by
    rw [untouched hf, label, hf]
    rfl
  have hatch' : (blockedToHatch c l a).hatch = s.hatch := (moved.hatch_eq id).trans hatch
  have context' := (context?_congr (moved.contexts_eq id) c).trans context
  have signalled' := works.hasEntry signalled
  have foreign : findLabel s l = none → (blockedToHatch c l a).custody = s.custody := fun hf => by
    rw [untouched hf, custody]
  have others : ∀ j, findLabel s l = some j → ∀ k, k ≠ j → (blockedToHatch c l a).record? k = s.record? k :=
    fun j hf k hk => (blockedToHatch_others c (label.trans hf) hk).trans (record?_congr custody k)
  generalize blockedToHatch c l a = b at placed found hatch' context' signalled' foreign others
  have posted : Rejects c y l s (if (findLabel b l).isSome then b else post (.foreignLabel l .hatch) b) := by
    split
    · next hs => exact ⟨hatch', context', signalled', fun hf => (by rw [found hf] at hs; cases hs), placed, others⟩
    · exact ⟨hatch', context', signalled', fun hf => ⟨foreign hf, post_same ..⟩, placed, others⟩
  dsimp only
  generalize (if (findLabel b l).isSome then b else post (.foreignLabel l .hatch) b) = p at posted
  split
  · have prompt := promptRemove_prompts c p
    have link : Moves .linkOnly p (promptRemove c p) := promptRemove_moves c .refl trivial
    have works : Works .none p (promptRemove c p) := promptRemove_works c .refl
    obtain ⟨hatch, context, signalled, foreign, known, others⟩ := posted
    refine ⟨(prompt.hatch_eq id).trans hatch, (prompt.prompts_context c).trans context, works.hasEntry signalled,
      fun hf => ?_, fun j q hf hr => ?_, fun j hf k hk => (record?_congr (prompt.custody_eq id) k).trans (others j hf k hk)⟩
    · obtain ⟨custody, notice⟩ := foreign hf
      exact ⟨(prompt.custody_eq id).trans custody, by rw [link.notices_eq id]; exact notice⟩
    · obtain ⟨blocked, free⟩ := known j q hf hr
      exact ⟨fun hb => (blocked hb).of_custody (prompt.custody_eq id), fun hb =>
        (record?_congr (prompt.custody_eq id) j).trans (free hb)⟩
  · exact posted

/-! ## Labels that the phase names -/

/-- The owner's claim of record j made: the context as z, the record as new. -/
structure Acted (c j : Nat) (z : Context) (new : Record) (s t : State) : Prop where
  hatch : t.hatch = s.hatch
  context : t.context? c = some z
  record : ∃ r, t.record? j = some r ∧ new.Becomes r

theorem Acted.recordIs {new : Record} (h : Acted c j z new s t) : RecordIs t j new.state new.location := by
  obtain ⟨r, hr, becomes⟩ := h.record
  exact ⟨r, hr, becomes.state, becomes.location⟩

theorem Acted.linked {new : Record} (h : Acted c j z new s t) (m : Moves .linkOnly t u) : Acted c j z new s u := by
  obtain ⟨r, hr, becomes⟩ := h.record
  exact ⟨(m.hatch_eq id).trans h.hatch, (context?_congr (m.contexts_eq id) c).trans h.context, r,
    (record?_congr (m.custody_eq id) j).trans hr, becomes⟩

theorem changePrompt_linkOnly (c : Nat) (s : State) : Moves .linkOnly s (changePrompt c s) :=
  changePrompt_moves c .refl trivial

theorem claim_acted (hy : s.context? c = some z) (hr : s.record? j = some r)
    (hf : ∀ r, (f r).state.isBlocked = false ∨ (f r).state = r.state) :
    Acted c j z (f r) s (claim (.handover c) j (fun _ => true) f s) := by
  have calm := claim_calmly (expected := fun _ => true) hf c j s
  exact ⟨calm.hatch_eq id, (calm.calm_context c).trans hy,
    (claim_changed (.handover c) hr (expected := fun _ => true) rfl f).self⟩

/-- A context with the entry of record j marked taken, or untaken. -/
def Context.marked (y : Context) (j : Nat) (taken : Bool) : Context :=
  { y with manifest := y.manifest.map fun e => if e.record = j then ⟨j, taken⟩ else e }

/-- A context without the entry of record j. -/
def Context.dropped (y : Context) (j : Nat) : Context :=
  { y with manifest := y.manifest.filter fun e => e.record != j }

/-- A context with an entry of record j, untaken. -/
def Context.added (y : Context) (j : Nat) : Context := { y with manifest := y.manifest ++ [⟨j, false⟩] }

theorem markTaken_eq (hy : s.context? c = some y) (j : Nat) (taken : Bool) :
    markTaken c j taken s = putContext c (y.marked j taken) s := by
  have entries : (y.manifest.map fun e => if e.record == j then { e with taken := taken } else e) =
      y.manifest.map fun e => if e.record = j then ⟨j, taken⟩ else e := by
    refine List.map_congr_left fun e _ => ?_
    by_cases h : e.record = j
    · subst h
      simp
    · simp [h]
  unfold markTaken Context.marked
  rw [hy]
  dsimp only
  rw [entries]

theorem dropManifest_dropped (hy : s.context? c = some y) (j : Nat) : dropManifest c j s = putContext c (y.dropped j) s := by
  unfold dropManifest
  rw [hy]
  rfl

theorem addManifest_eq (hy : s.context? c = some y) (j : Nat) : addManifest c j s = putContext c (y.added j) s := by
  unfold addManifest
  rw [hy]
  rfl

/-- A claim of a record whose manifest entry has been written first. -/
theorem acted_after (hr : s.record? j = some r) (hf : ∀ r, (f r).state.isBlocked = false ∨ (f r).state = r.state) (z : Context) :
    Acted c j z (f r) s (changePrompt c (claim (.handover c) j (fun _ => true) f (putContext c z s))) := by
  obtain ⟨hatch, context, record⟩ := claim_acted (s := putContext c z s) (putContext_same c z s) hr hf
  exact Acted.linked ⟨hatch, context, record⟩ (changePrompt_linkOnly c _)

/-- A claim of a record that joins the manifest after it. -/
theorem acted_before (hy : s.context? c = some y) (hr : s.record? j = some r)
    (hf : ∀ r, (f r).state.isBlocked = false ∨ (f r).state = r.state) :
    Acted c j (y.added j) (f r) s
      (changePrompt c (addManifest c j (claim (.handover c) j (fun _ => true) f s))) := by
  obtain ⟨hatch, context, record⟩ := claim_acted hy hr hf
  rw [addManifest_eq context]
  generalize claim (.handover c) j (fun _ => true) f s = v at hatch record
  have joined : Acted c j (y.added j) (f r) s (putContext c (y.added j) v) := ⟨hatch, putContext_same .., record⟩
  exact joined.linked (changePrompt_linkOnly c _)

/-- A record staged at a place. -/
def Record.stagedAt (r : Record) (place : Location) : Record := { r with state := .staged, location := place }

theorem putBack_acted (hy : s.context? c = some y) (hr : s.record? j = some r) :
    Acted c j (y.marked j false) (r.stagedAt .hatch) s (putBack c j s) := by
  unfold putBack
  rw [markTaken_eq hy]
  exact acted_after (f := fun r => r.stagedAt .hatch) hr (fun _ => .inl rfl) _

theorem takeOut_acted (hy : s.context? c = some y) (hr : s.record? j = some r) (courier : Nat) :
    Acted c j (y.marked j true) (r.stagedAt (.courier courier)) s (takeOut c j courier s) := by
  unfold takeOut
  rw [markTaken_eq hy]
  exact acted_after (f := fun r => r.stagedAt (.courier courier)) hr (fun _ => .inl rfl) _

theorem leftManifest_acted (hy : s.context? c = some y) (hr : s.record? j = some r)
    (hf : ∀ r, (f r).state.isBlocked = false ∨ (f r).state = r.state) :
    Acted c j (y.dropped j) (f r) s (leftManifest c j f s) := by
  unfold leftManifest
  rw [dropManifest_dropped hy]
  exact acted_after hr hf _

/-! ## Staging (R156) -/

/-- R103: a READY/OUTBOUND record that leaves the rack as it is staged: no context hears of it. -/
theorem rackDepart_calmly (p : Fin 12) (hr : s.record? j = some r) (hs : r.state = .ready .outbound) :
    Moves .calm s (rackDepart j p s) ∧ ∃ q, (rackDepart j p s).record? j = some q := by
  have left : Moves .calm s (leavePosition j p s) := by
    apply leavePosition_moves j p .refl <;> trivial
  have hr' : (leavePosition j p s).record? j = some r := (record?_congr (leavePosition_custody ..) j).trans hr
  unfold rackDepart
  dsimp only
  generalize leavePosition j p s = v at left hr'
  obtain ⟨⟨q, hq, -⟩, -⟩ := claim_changed .rack hr' (expected := fun _ => true) rfl
    (fun r => r.rackDeparted p (v.param .carryWindow * 60000))
  refine ⟨left.trans ?_, q, hq⟩
  unfold claim
  rw [hr']
  dsimp only
  rw [if_pos rfl, changeRecord_eq hr', if_neg (by unfold Record.rackDeparted; rw [hs]; simp)]
  have basic : Moves .calm v (basicChange false j (r.rackDeparted p (v.param .carryWindow * 60000)) v) := by
    apply basicChange_moves false j _ .refl <;> trivial
  have untold : ∀ w, handoverTold j r w = w := fun w => by
    unfold handoverTold
    rw [hs]
  show Moves .calm v (climateTold j (some r.location) (handoverTold j r _))
  rw [untold]
  apply climateTold_moves _ _ basic <;> trivial

theorem missedDeparture_calmly (hr : s.record? j = some r) (hs : r.state = .ready .outbound)
    (hl : ∀ n, r.location ≠ .slot n) :
    Moves .calm s (missedDeparture j .hatch s) ∧ ∃ q, (missedDeparture j .hatch s).record? j = some q := by
  unfold missedDeparture
  rw [hr]
  dsimp only
  split
  · exact ⟨.refl, r, hr⟩
  · cases h : r.location with
    | slot n => exact absurd h (hl n)
    | rack p => exact rackDepart_calmly p hr hs
    | _ => exact ⟨.refl, r, hr⟩

/-- R156: a record staged. -/
theorem stage_acted (hy : s.context? c = some y) (hr : s.record? j = some r) (hs : r.state = .ready .outbound)
    (hl : ∀ n, r.location ≠ .slot n) : ∃ q : Record, Acted c j (y.added j) (q.stagedAt .hatch) s (stage c j s) := by
  obtain ⟨calm, q, hq⟩ := missedDeparture_calmly hr hs hl
  obtain ⟨hatch, context, record⟩ := acted_before (f := fun r => r.stagedAt .hatch) ((calm.calm_context c).trans hy) hq
    fun _ => .inl rfl
  exact ⟨q, hatch.trans (calm.hatch_eq id), context, record⟩

end Sys2Proof.Machine
end

section
/-! What ENTERED events heard by the owning context leave (R154, R156, R157, R160, R162 to R164). -/

namespace Sys2Proof.Machine

variable {s t u v w : State} {c d i j k code : Nat} {x y z : Context} {o : Order} {q r : Record} {l : Label} {f : Record → Record}
  {rep : Report}

/-! ## From the owner's effect to the end of the event -/

/-- What the end of an event leaves of its effect. -/
structure Echoes (w t : State) : Prop where
  custody : t.custody = w.custody
  contexts : t.handover.contexts = w.handover.contexts
  notices : t.notices = w.notices
  entries : ∀ g cmd, hasEntry t g cmd = hasEntry w g cmd

theorem Echoes.context (h : Echoes w t) (c : Nat) : t.context? c = w.context? c := context?_congr h.contexts c

theorem Echoes.record (h : Echoes w t) (j : Nat) : t.record? j = w.record? j := record?_congr h.custody j

/-- R140: the effect of an event on an owner that keeps its hatch. -/
theorem heard_echoes {f : Nat → State → State} {g : State → State} (ho : s.hatch.owner = .context c)
    (hw : (f c s).hatch = s.hatch) (hy : (f c s).context? c = some y) (hset : Settled y s)
    (closed : Closed (heard f g s) t) : Echoes (f c s) t := by
  rw [heard_owned ho, dwelt_settled (s := f c s) (by rw [hw]; exact ho) hy (hset.congr hw)] at closed
  generalize f c s = w at closed
  have frame := updateWetDwell_frame w
  refine ⟨(closed.moves.custody_eq id).trans (by rw [frame]), (closed.moves.contexts_eq id).trans (by rw [frame]),
    (closed.moves.notices_eq id).trans (by rw [frame]), fun g cmd => (closed.hasEntry g cmd).trans ?_⟩
  rw [frame]
  rfl

/-- The effect of an event that tests follow. -/
theorem heard_rests {f : Nat → State → State} {g : State → State} (ho : s.hatch.owner = .context c)
    (h : Rests c w (f c s)) (closed : Closed (heard f g s) t) : t.custody = w.custody ∧
      ∀ x, w.context? c = some x → ∃ y, t.context? c = some y ∧ y.manifest = x.manifest ∧ y.rejected = x.rejected := by
  rw [heard_owned ho] at closed
  have rest := h.trans (dwelt_rests h.placed)
  refine ⟨(closed.moves.custody_eq id).trans rest.custody, fun x hx => ?_⟩
  obtain ⟨y, hy, lists⟩ := rest.context x hx
  exact ⟨y, (context?_congr (closed.moves.contexts_eq id) c).trans hy, lists⟩

/-! ## ENTERED by phase -/

theorem contextEntered_loading (h : Owns c y s) (hp : y.phase = .loading) (l : Label) :
    contextEntered c l s = enteredLoading c y l s := by
  unfold contextEntered
  rw [h.live?]
  dsimp only
  rw [hp]

theorem contextEntered_loadingIn (h : Owns c y s) (hp : y.phase = .loadingIn) (l : Label) :
    contextEntered c l s = enteredLoadingIn c y l s := by
  unfold contextEntered
  rw [h.live?]
  dsimp only
  rw [hp]

theorem contextEntered_collecting (h : Owns c y s) (hp : y.phase = .collecting) (l : Label) :
    contextEntered c l s = enteredTaken c y l s := by
  unfold contextEntered
  rw [h.live?]
  dsimp only
  rw [hp]

theorem contextEntered_recall (h : Owns c y s) (hp : y.phase = .recall) (l : Label) :
    contextEntered c l s = testRecall c (enteredTaken c y l s) := by
  unfold contextEntered
  rw [h.live?]
  dsimp only
  rw [hp]

theorem contextEntered_unloading (h : Owns c y s) (hp : y.phase = .unloading ∨ y.phase = .recallReturn) (l : Label) :
    contextEntered c l s = unnamedEntered c l s := by
  unfold contextEntered
  rw [h.live?]
  dsimp only
  rcases hp with hp | hp
  · rw [hp]
  · rw [hp]

theorem enteredTaken_taken (hm : manifestRecord s y l = some j) (ht : y.isTaken j = true) :
    enteredTaken c y l s = putBack c j s := by
  unfold enteredTaken
  rw [hm]
  exact if_pos ht

theorem enteredTaken_unlisted (hm : manifestRecord s y l = none) : enteredTaken c y l s = unnamedEntered c l s := by
  unfold enteredTaken
  rw [hm]

/-- R154: a foreign label in any of the phases that reject it. -/
theorem contextEntered_foreign (h : Owns c y s) (hf : findLabel s l = none)
    (hp : y.phase ∈ [.loading, .collecting, .unloading, .loadingIn, .recallReturn]) :
    contextEntered c l s = unnamedEntered c l s := by
  simp only [List.mem_cons, List.not_mem_nil, or_false] at hp
  rcases hp with hp | hp | hp | hp | hp
  · rw [contextEntered_loading h hp, enteredLoading, hf]
  · rw [contextEntered_collecting h hp, enteredTaken_unlisted (manifestRecord_foreign hf)]
  · exact contextEntered_unloading h (.inl hp) l
  · rw [contextEntered_loadingIn h hp, enteredLoadingIn, hf]
  · exact contextEntered_unloading h (.inr hp) l

/-- R157, R162, R164: a known label out of the manifest, in the phases that name no such label. -/
theorem contextEntered_unlisted (h : Owns c y s) (hm : manifestRecord s y l = none)
    (hp : y.phase ∈ [.collecting, .unloading, .recallReturn]) : contextEntered c l s = unnamedEntered c l s := by
  simp only [List.mem_cons, List.not_mem_nil, or_false] at hp
  rcases hp with hp | hp | hp
  · rw [contextEntered_collecting h hp, enteredTaken_unlisted hm]
  · exact contextEntered_unloading h (.inl hp) l
  · exact contextEntered_unloading h (.inr hp) l

theorem unyielding_of_mem {ph : Phase} (hp : ph ∈ [.loading, .collecting, .recall, .unloading, .loadingIn, .recallReturn]) :
    ph.yieldable = false := by
  revert ph
  decide

/-! ## What was heard -/

/-- The owner, with the event's label in the contents list. -/
theorem Owning.owns (h : Owning c y s v) (l : Label) : Owns c y (withLabel l v) := ⟨h.owner, h.context, h.live⟩

theorem Owning.findLabel (h : Owning c y s v) (l : Label) : findLabel v l = Machine.findLabel s l := findLabel_congr h.custody l

theorem Owning.record (h : Owning c y s v) (j : Nat) : v.record? j = s.record? j := record?_congr h.custody j

theorem Settled.contents (h : Settled y s) (ls : List Label) : Settled y (s.withHatch { s.hatch with contents := ls }) := h

theorem echoed_rejects (h : Owning c y s v) (hl : l ∉ y.rejected) (hm : manifestRecord v y l = none) (hroom : y.roomLeft)
    (e : contextEntered c l (withLabel l v) = unnamedEntered c l (withLabel l v))
    (closed : Closed (hatchEntered l v) t) : Rejects c y l (withLabel l v) (contextEntered c l (withLabel l v)) ∧
      Echoes (contextEntered c l (withLabel l v)) t := by
  have rejects : Rejects c y l (withLabel l v) (contextEntered c l (withLabel l v)) := by
    rw [e]
    exact unnamedEntered_rejects (s := withLabel l v) h.context h.node hl hm hroom
  rw [hatchEntered_eq] at closed
  exact ⟨rejects, heard_echoes (f := fun c => contextEntered c l) (y := { y with rejected := y.rejected ++ [l] }) h.owner
    rejects.hatch rejects.context (h.settled.contents _) closed⟩

theorem acted_echoes {new : Record} (h : Owning c y s v) (hp : z.phase = y.phase)
    (acted : Acted c j z new (withLabel l v) (contextEntered c l (withLabel l v)))
    (closed : Closed (hatchEntered l v) t) : t.context? c = some z ∧ ∃ r, t.record? j = some r ∧ new.Becomes r := by
  rw [hatchEntered_eq] at closed
  have settled : Settled z (withLabel l v) := by
    have s := h.settled
    unfold Settled at s ⊢
    rw [hp]
    exact s
  have echoes := heard_echoes (f := fun c => contextEntered c l) (s := withLabel l v) h.owner acted.hatch acted.context settled closed
  obtain ⟨r, hr, becomes⟩ := acted.record
  exact ⟨(echoes.context c).trans acted.context, r, (echoes.record j).trans hr, becomes⟩

theorem stageable_of (hr : s.record? j = some q) (hs : q.state = .ready .outbound) (hk : q.orderSlot = some k)
    (ho : s.order? k = some o) (hc : o.courier = d) (hf : o.state.isFinished = false) (hu : j ∈ o.unhanded) :
    stageable s d j = true := by
  simp [stageable, hr, hs, hk, ho, hc, hf, hu]

theorem outWithCourier_of (h : IsOutWith s j d) : outWithCourier s d j = true := by
  obtain ⟨r, hr, hs, hl, hc⟩ := h
  simp [outWithCourier, hr, hs, hl, hc]

/-- R154, R156, R157, R160, R162 to R164: an ENTERED event heard by the owning context. -/
theorem entered_heard (fed : Fed rep code s v) (ho : OwnerHears s c y rep) (closed : Closed (hatchEntered l v) t) :
    HeardEntered s t c y l := by
  have owned : y.phase ∈ [.loading, .collecting, .recall, .unloading, .loadingIn, .recallReturn] → Owning c y s v :=
    fun hp => fed.owned ho (.inl (unyielding_of_mem hp))
  refine ⟨fun hf hl hroom hp => ?_, fun j q hf hr => ⟨fun k o hp hroom hs hslot hk hord hc hfin hu => ?_, fun hp ht => ?_,
    fun hp htimer ht => ?_, fun hp hroom hout => ?_, fun hp hh hl hroom => ?_⟩⟩
  · have h := owned (by simp only [List.mem_cons, List.not_mem_nil, or_false] at hp ⊢; tauto)
    have hf' : findLabel v l = none := (h.findLabel l).trans hf
    obtain ⟨rejects, echoes⟩ := echoed_rejects h hl (manifestRecord_foreign hf') hroom
      (contextEntered_foreign (h.owns l) hf' hp) closed
    obtain ⟨custody, notice⟩ := rejects.foreign hf'
    exact ⟨⟨(echoes.context c).trans rejects.context, (echoes.entries _ _).trans rejects.signalled⟩,
      echoes.custody.trans (custody.trans h.custody), by rw [echoes.notices]; exact notice⟩
  · have h := owned (by rw [hp]; simp)
    have hf' : findLabel v l = some j := (h.findLabel l).trans hf
    have hr' : v.record? j = some q := (h.record j).trans hr
    have hord' : v.order? k = some o := (order?_congr h.orders k).trans hord
    have e : contextEntered c l (withLabel l v) = stage c j (withLabel l v) := by
      rw [contextEntered_loading (h.owns l) hp, enteredLoading, show findLabel (withLabel l v) l = some j from hf']
      dsimp only
      rw [if_pos (stageable_of (s := withLabel l v) hr' hs hk hord' hc hfin hu), if_pos ((hasRoom_iff y).mpr hroom)]
    obtain ⟨r, acted⟩ := stage_acted (s := withLabel l v) h.context hr' hs hslot
    rw [← e] at acted
    obtain ⟨context, x, hx, becomes⟩ := acted_echoes (z := y.added j) h rfl acted closed
    exact ⟨⟨x, hx, becomes.state, becomes.location, becomes.carry rfl⟩, context⟩
  · have h := owned (by rw [hp]; simp)
    have hf' : findLabel v l = some j := (h.findLabel l).trans hf
    have e : contextEntered c l (withLabel l v) = putBack c j (withLabel l v) := by
      rw [contextEntered_collecting (h.owns l) hp]
      exact enteredTaken_taken (manifestRecord_held (s := withLabel l v) hf' (holds_of_isTaken ht)) ht
    have acted := putBack_acted (s := withLabel l v) h.context ((h.record j).trans hr)
    rw [← e] at acted
    obtain ⟨context, x, hx, becomes⟩ := acted_echoes (z := y.marked j false) h rfl acted closed
    exact ⟨⟨x, hx, becomes.state, becomes.location⟩, context⟩
  · have h := owned (by rw [hp]; simp)
    have hf' : findLabel v l = some j := (h.findLabel l).trans hf
    have e : contextEntered c l (withLabel l v) = testRecall c (putBack c j (withLabel l v)) := by
      rw [contextEntered_recall (h.owns l) hp,
        enteredTaken_taken (manifestRecord_held (s := withLabel l v) hf' (holds_of_isTaken ht)) ht]
    have acted := putBack_acted (s := withLabel l v) h.context ((h.record j).trans hr)
    have rests : Rests c (putBack c j (withLabel l v)) (contextEntered c l (withLabel l v)) := by
      rw [e]
      exact testRecall_rests (.inl (by rw [acted.hatch]; exact h.owner)) acted.context htimer
    rw [hatchEntered_eq] at closed
    exact acted.recordIs.of_custody (heard_rests (f := fun c => contextEntered c l) (s := withLabel l v) h.owner rests closed).1
  · have h := owned (by rw [hp]; simp)
    have hf' : findLabel v l = some j := (h.findLabel l).trans hf
    obtain ⟨q', hq', hstate, hplace, hcust⟩ := hout
    cases hr.symm.trans hq'
    have hr' : v.record? j = some q := (h.record j).trans hr
    have e : contextEntered c l (withLabel l v) = changePrompt c (addManifest c j (claim (.handover c) j (fun _ => true)
        (fun r => { r with state := .inbound, location := .hatch }) (withLabel l v))) := by
      rw [contextEntered_loadingIn (h.owns l) hp, enteredLoadingIn, show findLabel (withLabel l v) l = some j from hf']
      dsimp only
      rw [if_pos (outWithCourier_of (s := withLabel l v) ⟨q, hr', hstate, hplace, hcust⟩), if_pos ((hasRoom_iff y).mpr hroom)]
    have acted := acted_before (s := withLabel l v) (f := fun r => { r with state := .inbound, location := .hatch })
      h.context hr' fun _ => .inl rfl
    rw [← e] at acted
    obtain ⟨context, x, hx, becomes⟩ := acted_echoes (z := y.added j) h rfl acted closed
    exact ⟨⟨x, hx, becomes.state, becomes.location, (becomes.custodian rfl).trans hcust⟩, context⟩
  · have h := owned (by simp only [List.mem_cons, List.not_mem_nil, or_false] at hp ⊢; tauto)
    have hf' : findLabel v l = some j := (h.findLabel l).trans hf
    have hm : manifestRecord v y l = none := manifestRecord_unheld hf' hh
    obtain ⟨rejects, echoes⟩ := echoed_rejects h hl hm hroom (contextEntered_unlisted (h.owns l) hm hp) closed
    obtain ⟨blocked, free⟩ := rejects.known j q hf' ((h.record j).trans hr)
    exact ⟨⟨(echoes.context c).trans rejects.context, (echoes.entries _ _).trans rejects.signalled⟩,
      fun hb => (blocked hb).recordIs.of_custody echoes.custody, fun hb => (echoes.record j).trans (free hb)⟩

end Sys2Proof.Machine
end

section
/-! LEFT events heard by the owning context (R154, R156, R157, R160, R162 to R164). -/

namespace Sys2Proof.Machine

variable {s t u v w : State} {c d i j k code : Nat} {x y z : Context} {o : Order} {q r : Record} {l : Label} {f : Record → Record}
  {rep : Report}

/-! ## The tests after the effect -/

theorem testUnloading_elsewhere (hx : s.context? c = some x) (hp : x.phase ≠ .unloading) : testUnloading c s = s := by
  unfold testUnloading
  split
  · rfl
  · next y hy =>
    cases hx.symm.trans (liveContext?_iff.mp hy).1
    split
    · rfl
    · exact if_neg fun h => hp h.1

theorem testRecallReturn_elsewhere (hx : s.context? c = some x) (hp : x.phase ≠ .recallReturn) :
    testRecallReturn c s = s := by
  unfold testRecallReturn
  split
  · rfl
  · next y hy =>
    cases hx.symm.trans (liveContext?_iff.mp hy).1
    exact if_neg fun h => hp h.1

theorem contextLeft_tested (hx : (leftEffect c l s).context? c = some x) (hu : x.phase ≠ .unloading)
    (hr : x.phase ≠ .recallReturn) : contextLeft c l s = leftEffect c l s := by
  unfold contextLeft
  rw [testUnloading_elsewhere hx hu, testRecallReturn_elsewhere hx hr]

theorem contextLeft_rests (h : Placed c (leftEffect c l s)) : Rests c (leftEffect c l s) (contextLeft c l s) := by
  have first := testUnloading_rests h
  exact first.trans (testRecallReturn_rests first.placed)

/-! ## The effect by phase -/

theorem leftEffect_loading (h : Owns c y s) (hp : y.phase = .loading) (hm : manifestRecord s y l = some j) :
    leftEffect c l s = leftManifest c j (fun r => { r with
      state := .ready .outbound, location := .inHand,
      carry := some { left := s.param .carryWindow * minuteMs, origin := none } }) s := by
  unfold leftEffect
  rw [h.live?]
  dsimp only
  rw [hp, hm]

theorem leftEffect_taking (h : Owns c y s) (hp : y.phase = .collecting ∨ y.phase = .recall)
    (hm : manifestRecord s y l = some j) (ht : y.isTaken j = false) : leftEffect c l s = takeOut c j y.courier s := by
  have untaken : ¬y.isTaken j = true := by rw [ht]; exact Bool.false_ne_true
  unfold leftEffect
  rw [h.live?]
  dsimp only
  rcases hp with hp | hp
  · rw [hp, hm]
    exact if_neg untaken
  · rw [hp, hm]
    exact if_neg untaken

theorem leftEffect_unloading (h : Owns c y s) (hp : y.phase = .unloading) (hm : manifestRecord s y l = some j) :
    leftEffect c l s = leftManifest c j (fun r => { r with state := .picked, location := .inHand }) s := by
  unfold leftEffect
  rw [h.live?]
  dsimp only
  rw [hp, hm]

theorem leftEffect_returning (h : Owns c y s) (hp : y.phase = .loadingIn ∨ y.phase = .recallReturn)
    (hm : manifestRecord s y l = some j) : leftEffect c l s = leftManifest c j (fun r => r.outWithCourier y.courier) s := by
  unfold leftEffect
  rw [h.live?]
  dsimp only
  rcases hp with hp | hp
  · rw [hp, hm]
  · rw [hp, hm]

theorem leftEffect_awaiting (h : Owns c y s) (hp : y.phase = .awaitRelease) : leftEffect c l s = unnamedLeft c l s := by
  unfold leftEffect
  rw [h.live?]
  dsimp only
  rw [hp]

theorem leftEffect_unlisted (h : Owns c y s) (hm : manifestRecord s y l = none) : leftEffect c l s = unnamedLeft c l s := by
  unfold leftEffect
  rw [h.live?]
  dsimp only
  rw [hm]
  cases y.phase <;> rfl

/-! ## Who holds a BLOCKED record -/

/-- A step in which every BLOCKED record keeps its state and its custodian. -/
def Detains (s t : State) : Prop := ∀ j r, s.record? j = some r → r.state.isBlocked = true →
  ∃ q, t.record? j = some q ∧ q.state = r.state ∧ q.custodian = r.custodian

theorem Detains.of_custody (h : t.custody = s.custody) : Detains s t := fun j r hr _ =>
  ⟨r, (record?_congr h j).trans hr, rfl, rfl⟩

theorem Detains.trans (h : Detains s t) (g : Detains t u) : Detains s u := fun j r hr hb => by
  obtain ⟨q, hq, hs, hc⟩ := h j r hr hb
  obtain ⟨p, hp, hs', hc'⟩ := g j q hq (by rw [hs]; exact hb)
  exact ⟨p, hp, hs'.trans hs, hc'.trans hc⟩

theorem releaseEntry_detains (i : Nat) (s : State) : Detains s (releaseEntry i s) := by
  unfold releaseEntry
  split
  · exact .of_custody rfl
  · next r hr =>
    split
    · next new hn =>
      have told := tellOthers_still (old := r) .orders (basicChange_record hr false new) (.inl (released_of_claim hn).place)
      refine Detains.trans (fun j q hq hb => ?_) (.of_custody (told.moves.custody_eq id))
      by_cases hj : j = i
      · subst hj
        cases hr.symm.trans hq
        rw [releaseOf_blocked hb] at hn
        cases hn
      · exact ⟨q, ((basicChange_atRecord ..).others j hj).trans hq, rfl, rfl⟩
    · intro j q hq hb
      by_cases hj : j = i
      · subst hj
        exact ⟨_, dropOrderSlot_at hq, rfl, rfl⟩
      · exact ⟨q, ((dropOrderSlot_keepsPlace i s).others j hj).trans hq, rfl, rfl⟩

theorem finishOrder_detains (k : Nat) (outcome : OOutcome) (s : State) : Detains s (finishOrder k outcome s) := by
  have all : ∀ (is : List Nat) s, Detains s (is.foldl (fun s i => releaseEntry i s) s) := by
    intro is
    induction is with
    | nil => exact fun _ => .of_custody rfl
    | cons i is ih => exact fun s => (releaseEntry_detains i s).trans (ih _)
  unfold finishOrder
  split
  · exact .of_custody rfl
  · next o _ =>
    split
    · exact .of_custody rfl
    · have put : Detains s (putOrder k { o with state := .finished outcome, deadline := none } s) := .of_custody rfl
      exact (put.trans (all _ _)).trans (.of_custody (by rw [postOrder_frame]))

theorem orderTold_detains (who : Claimant) (hr : s.record? i = some r) (hb : r.state.isBlocked = true) :
    Detains s (orderTold who i s) := by
  unfold orderTold
  rw [hr]
  dsimp only
  split
  · exact .of_custody rfl
  · split
    · exact .of_custody rfl
    · split
      · exact .of_custody rfl
      · split
        case h_7 => exact finishOrder_detains _ _ s
        all_goals next e => rw [e] at hb; cases hb

/-- R50: a record claimed BLOCKED has the custodian that its place gives it. -/
theorem claim_custodian {expected : Record → Bool} (who : Claimant) (hr : s.record? i = some r) (he : expected r = true)
    (hb : (f r).state.isBlocked = true) :
    ∃ q, (claim who i expected f s).record? i = some q ∧ q.custodian = custodianOf (f r) := by
  have e : claim who i expected f s = changeRecord who false i (f r) s := by
    unfold claim
    rw [hr]
    exact if_pos he
  have basic := basicChange_record hr false (f r)
  have told : ∃ q, (if (f r).state ≠ r.state then orderTold who i (basicChange false i (f r) s)
      else basicChange false i (f r) s).record? i = some q ∧ q.custodian = custodianOf (f r) := by
    split
    · obtain ⟨q, hq, -, hc⟩ := orderTold_detains who basic hb i _ basic hb
      exact ⟨q, hq, hc⟩
    · exact ⟨_, basic, rfl⟩
  obtain ⟨q, hq, hc⟩ := told
  obtain ⟨b, hx, -⟩ := tellOthers_at who r hq
  rw [e, changeRecord_eq hr]
  exact ⟨_, hx, hc⟩

/-! ## A label that the phase does not name -/

theorem dropRejected_eq (hy : s.context? c = some y) (l : Label) :
    dropRejected c l s = putContext c { y with rejected := y.rejected.filter (· != l) } s := by
  unfold dropRejected
  rw [hy]

/-- R154: a foreign label that had been rejected leaves its list. -/
theorem unnamedLeft_foreign (hy : s.context? c = some y) (hl : l ∈ y.rejected) (hf : findLabel s l = none) :
    unnamedLeft c l s = putContext c { y with rejected := y.rejected.filter (· != l) } s := by
  have e : departHatch c l (putContext c { y with rejected := y.rejected.filter (· != l) } s) =
      putContext c { y with rejected := y.rejected.filter (· != l) } s := by
    unfold departHatch
    rw [putContext_same, show findLabel (putContext c { y with rejected := y.rejected.filter (· != l) } s) l = none from hf]
  unfold unnamedLeft
  rw [hy]
  dsimp only
  rw [if_pos (List.contains_iff_mem.mpr hl), dropRejected_eq hy, e]

/-- What becomes of a record at HATCH that leaves it out of the manifest. -/
def Record.departedFrom (r : Record) (y : Context) : Record :=
  match y.phase.side with
  | .room => r.conflictAtCourier y.courier
  | .store | .closed => r.hatchDeparted

/-- Record j as it has left the hatch. -/
def Departed (j : Nat) (new : Record) (t : State) : Prop :=
  ∃ r, t.record? j = some r ∧ r.state = new.state ∧ r.location = new.location ∧
    (new.state.isBlocked = true → r.custodian = custodianOf new)

theorem departHatch_changed (hy : s.context? c = some y) (hf : findLabel s l = some j) (hr : s.record? j = some q)
    (hl : q.location = .hatch) :
    (departHatch c l s).hatch = s.hatch ∧ Departed j (q.departedFrom y) (departHatch c l s) := by
  have m : Moves { Allow.all with hatch := False } s (departHatch c l s) := by
    apply departHatch_moves c l .refl <;> trivial
  refine ⟨m.hatch_eq id, ?_⟩
  have e : departHatch c l s = claim (.handover c) j (fun r => r.location == .hatch) (fun r => r.departedFrom y) s := by
    unfold departHatch
    rw [hy, hf]
    rfl
  rw [e]
  have expected : (q.location == .hatch) = true := by simpa using hl
  obtain ⟨r, hr', becomes⟩ := (claim_changed (.handover c) hr (expected := fun r => r.location == .hatch) expected
    fun r => r.departedFrom y).self
  refine ⟨r, hr', becomes.state, becomes.location, fun hb => ?_⟩
  obtain ⟨x, hx, hc⟩ := claim_custodian (.handover c) hr (expected := fun r => r.location == .hatch) expected
    (f := fun r => r.departedFrom y) hb
  cases hr'.symm.trans hx
  exact hc

/-- R154: a record at HATCH that is in no manifest. -/
theorem unnamedLeft_changed (hy : s.context? c = some y) (hf : findLabel s l = some j) (hm : y.holds j = false)
    (hr : s.record? j = some q) (hl : q.location = .hatch) :
    (unnamedLeft c l s).hatch = s.hatch ∧ Departed j (q.departedFrom y) (unnamedLeft c l s) := by
  unfold unnamedLeft
  rw [hy]
  dsimp only
  split
  · rw [dropRejected_eq hy]
    exact departHatch_changed (y := { y with rejected := y.rejected.filter (· != l) })
      (s := putContext c { y with rejected := y.rejected.filter (· != l) } s) (putContext_same ..) hf hr hl
  · rw [manifestRecord_unheld hf hm]
    exact departHatch_changed hy hf hr hl

theorem dropped_unheld (y : Context) (j : Nat) : (y.dropped j).holds j = false := by
  unfold Context.holds Context.dropped
  rw [List.any_eq_false]
  intro e he
  simpa using (List.mem_filter.mp he).2

theorem Persists.unheld (h : Persists y z) (hn : y.holds j = false) : z.holds j = false := by
  unfold Context.holds at hn ⊢
  rw [List.any_eq_false] at hn ⊢
  exact fun e he => hn e (h.shrunk.entries e he)

/-- R154: a manifest record that leaves in AWAIT_RELEASE. -/
theorem unnamedLeft_awaiting (hy : s.context? c = some y) (hp : y.phase = .awaitRelease) (hl : l ∉ y.rejected)
    (hf : findLabel s l = some j) (hh : y.holds j = true) (hr : s.record? j = some q) :
    (unnamedLeft c l s).hatch = s.hatch ∧ RecordIs (unnamedLeft c l s) j (.blocked .custodyConflict) .inHand ∧
      ∃ x, (unnamedLeft c l s).context? c = some x ∧ x.holds j = false := by
  have e : unnamedLeft c l s = changePrompt c (claim (.handover c) j (fun _ => true)
      (fun r => { r with state := .blocked .custodyConflict, location := .inHand }) (putContext c (y.dropped j) s)) := by
    unfold unnamedLeft
    rw [hy]
    dsimp only
    rw [if_neg (by rw [List.contains_iff_mem]; exact hl), manifestRecord_held hf hh]
    dsimp only
    rw [dropManifest_dropped hy, hp]
    rfl
  rw [e]
  have prompt := changePrompt_linkOnly c (claim (.handover c) j (fun _ => true)
      (fun r => { r with state := .blocked .custodyConflict, location := .inHand }) (putContext c (y.dropped j) s))
  have m : Moves { Allow.all with hatch := False } (putContext c (y.dropped j) s) (claim (.handover c) j (fun _ => true)
      (fun r => { r with state := .blocked .custodyConflict, location := .inHand }) (putContext c (y.dropped j) s)) := by
    apply claim_moves _ _ _ _ .refl <;> trivial
  obtain ⟨x, hx, persists⟩ := claim_persist (.handover c) j (fun _ => true)
    (fun r => { r with state := .blocked .custodyConflict, location := .inHand }) (putContext c (y.dropped j) s) c _
    (putContext_same ..)
  obtain ⟨⟨r, hr', becomes⟩, -⟩ := claim_changed (s := putContext c (y.dropped j) s) (.handover c) hr
    (expected := fun _ => true) rfl (fun r => { r with state := .blocked .custodyConflict, location := .inHand })
  generalize claim (.handover c) j (fun _ => true)
      (fun r => { r with state := .blocked .custodyConflict, location := .inHand }) (putContext c (y.dropped j) s) = a
    at prompt m hx hr'
  refine ⟨(prompt.hatch_eq id).trans (m.hatch_eq id),
    ⟨r, (record?_congr (prompt.custody_eq id) j).trans hr', becomes.state, becomes.location⟩, x,
    (context?_congr (prompt.contexts_eq id) c).trans hx, persists.unheld (dropped_unheld y j)⟩

/-! ## What was heard -/

/-- The owner, with the event's label out of the contents list. -/
theorem Owning.leaves (h : Owning c y s v) (l : Label) : Owns c y (withoutLabel l v) := ⟨h.owner, h.context, h.live⟩

/-- The effect of a LEFT event, with the tests after it. -/
theorem left_rests (h : Owning c y s v) (hw : (leftEffect c l (withoutLabel l v)).hatch = (withoutLabel l v).hatch)
    (closed : Closed (hatchLeft l v) t) : t.custody = (leftEffect c l (withoutLabel l v)).custody ∧
      ∀ x, (leftEffect c l (withoutLabel l v)).context? c = some x →
        ∃ y, t.context? c = some y ∧ y.manifest = x.manifest ∧ y.rejected = x.rejected := by
  rw [hatchLeft_eq] at closed
  exact heard_rests (f := fun c => contextLeft c l) (s := withoutLabel l v) h.owner
    (contextLeft_rests (.inl (by rw [hw]; exact h.owner))) closed

/-- The effect of a LEFT event in a phase that no test follows. -/
theorem left_echoes {new : Record} (h : Owning c y s v) (hz : z.phase = y.phase) (hu : y.phase ≠ .unloading)
    (hr : y.phase ≠ .recallReturn)
    (acted : Acted c j z new (withoutLabel l v) (leftEffect c l (withoutLabel l v)))
    (closed : Closed (hatchLeft l v) t) : t.context? c = some z ∧ ∃ r, t.record? j = some r ∧ new.Becomes r := by
  have e := contextLeft_tested acted.context (by rw [hz]; exact hu) (by rw [hz]; exact hr)
  rw [hatchLeft_eq] at closed
  have settled : Settled z (withoutLabel l v) := by
    have s := h.settled
    unfold Settled at s ⊢
    rw [hz]
    exact s
  rw [← e] at acted
  have echoes := heard_echoes (f := fun c => contextLeft c l) (s := withoutLabel l v) h.owner acted.hatch acted.context settled closed
  obtain ⟨r, hr, becomes⟩ := acted.record
  exact ⟨(echoes.context c).trans acted.context, r, (echoes.record j).trans hr, becomes⟩

/-- A manifest record that leaves the manifest, with the tests after it. -/
theorem left_drops {new : Record} (h : Owning c y s v)
    (acted : Acted c j (y.dropped j) new (withoutLabel l v) (leftEffect c l (withoutLabel l v)))
    (closed : Closed (hatchLeft l v) t) : (∃ r, t.record? j = some r ∧ new.Becomes r) ∧
      ∃ x, t.context? c = some x ∧ x.manifest = y.manifest.filter fun e => e.record != j := by
  obtain ⟨custody, context⟩ := left_rests h acted.hatch closed
  obtain ⟨r, hr, becomes⟩ := acted.record
  obtain ⟨x, hx, manifest, -⟩ := context _ acted.context
  exact ⟨⟨r, (record?_congr custody j).trans hr, becomes⟩, x, hx, manifest⟩

theorem departedFrom_store (q : Record) (hp : y.phase = .loading ∨ y.phase = .unloading) :
    q.departedFrom y = q.hatchDeparted := by
  unfold Record.departedFrom
  rcases hp with hp | hp
  · rw [hp]
    rfl
  · rw [hp]
    rfl

theorem departedFrom_room (q : Record) (hp : y.phase ∈ [.collecting, .recall, .loadingIn, .recallReturn]) :
    q.departedFrom y = q.conflictAtCourier y.courier := by
  unfold Record.departedFrom
  simp only [List.mem_cons, List.not_mem_nil, or_false] at hp
  rcases hp with hp | hp | hp | hp
  all_goals
    rw [hp]
    rfl

theorem conflictAtCourier_custodian (q : Record) (d : Nat) : custodianOf (q.conflictAtCourier d) = some d := by
  have blocked : (q.conflictAtCourier d).state.isBlocked = true := blockedAt_isBlocked q .custodyConflict (.courier d)
  unfold custodianOf
  split
  · rfl
  · rfl
  · next e he =>
    cases he
    rfl
  · next h1 h2 h3 =>
    cases hs : (q.conflictAtCourier d).state with
    | blocked b => exact absurd rfl (h3 b d hs)
    | _ => rw [hs] at blocked; cases blocked

/-- R154, R156, R157, R160, R162 to R164: a LEFT event heard by the owning context. -/
theorem left_heard (fed : Fed rep code s v) (ho : OwnerHears s c y rep) (closed : Closed (hatchLeft l v) t) :
    HeardLeft s t c y l := by
  have owned : y.phase ∈ [.loading, .collecting, .recall, .unloading, .loadingIn, .recallReturn] → Owning c y s v :=
    fun hp => fed.owned ho (.inl (unyielding_of_mem hp))
  refine ⟨fun hf hl hp => ?_, fun j q hf hr => ⟨fun hh => ⟨fun hp => ?_, fun hp ht => ?_, fun hp => ?_, fun hp => ?_,
    fun hp hl hair hdoor => ?_⟩, fun hh hl => ?_⟩⟩
  · have h := owned hp
    have hf' : findLabel v l = none := (h.findLabel l).trans hf
    have e : leftEffect c l (withoutLabel l v) = _ := (leftEffect_unlisted (h.leaves l) (manifestRecord_foreign hf')).trans
      (unnamedLeft_foreign (s := withoutLabel l v) h.context hl hf')
    obtain ⟨custody, context⟩ := left_rests h (by rw [e]; rfl) closed
    rw [e] at custody context
    obtain ⟨x, hx, -, rejected⟩ := context _ (putContext_same ..)
    exact ⟨custody.trans h.custody, x, hx, rejected⟩
  · have h := owned (by rw [hp]; simp)
    have hm : manifestRecord (withoutLabel l v) y l = some j := manifestRecord_held ((h.findLabel l).trans hf) hh
    have acted := leftManifest_acted (s := withoutLabel l v) (f := fun r => { r with
      state := .ready .outbound, location := .inHand,
      carry := some { left := (withoutLabel l v).param .carryWindow * minuteMs, origin := none } })
      h.context ((h.record j).trans hr) fun _ => .inl rfl
    rw [← leftEffect_loading (h.leaves l) hp hm] at acted
    obtain ⟨context, x, hx, becomes⟩ := left_echoes (z := y.dropped j) h rfl (by rw [hp]; exact nofun) (by rw [hp]; exact nofun)
      acted closed
    refine ⟨⟨x, hx, becomes.state, becomes.location, (becomes.carry rfl).trans ?_⟩, context⟩
    show some (Carry.mk ((withoutLabel l v).param .carryWindow * 60000) none) = _
    rw [show (withoutLabel l v).param .carryWindow = s.param .carryWindow from param_congr (t := withoutLabel l v) h.settings _]
  · simp only [List.mem_cons, List.not_mem_nil, or_false] at hp
    have h := owned (by simp only [List.mem_cons, List.not_mem_nil, or_false]; tauto)
    have hm : manifestRecord (withoutLabel l v) y l = some j := manifestRecord_held ((h.findLabel l).trans hf) hh
    have acted := takeOut_acted (s := withoutLabel l v) h.context ((h.record j).trans hr) y.courier
    rw [← leftEffect_taking (h.leaves l) hp hm ht] at acted
    obtain ⟨context, x, hx, becomes⟩ := left_echoes (z := y.marked j true) h rfl (by rcases hp with hp | hp <;> rw [hp] <;> exact nofun)
      (by rcases hp with hp | hp <;> rw [hp] <;> exact nofun) acted closed
    exact ⟨⟨x, hx, becomes.state, becomes.location⟩, context⟩
  · simp only [List.mem_cons, List.not_mem_nil, or_false] at hp
    have h := owned (by simp only [List.mem_cons, List.not_mem_nil, or_false]; tauto)
    have hm : manifestRecord (withoutLabel l v) y l = some j := manifestRecord_held ((h.findLabel l).trans hf) hh
    have acted := leftManifest_acted (s := withoutLabel l v) (f := fun r => r.outWithCourier y.courier)
      h.context ((h.record j).trans hr) fun _ => .inl rfl
    rw [← leftEffect_returning (h.leaves l) hp hm] at acted
    obtain ⟨⟨x, hx, becomes⟩, unmanifested⟩ := left_drops h acted closed
    exact ⟨⟨x, hx, becomes.state, becomes.location, becomes.custodian rfl⟩, unmanifested⟩
  · have h := owned (by rw [hp]; simp)
    have hm : manifestRecord (withoutLabel l v) y l = some j := manifestRecord_held ((h.findLabel l).trans hf) hh
    have acted := leftManifest_acted (s := withoutLabel l v) (f := fun r => { r with state := .picked, location := .inHand })
      h.context ((h.record j).trans hr) fun _ => .inl rfl
    rw [← leftEffect_unloading (h.leaves l) hp hm] at acted
    obtain ⟨⟨x, hx, becomes⟩, unmanifested⟩ := left_drops h acted closed
    exact ⟨⟨x, hx, becomes.state, becomes.location⟩, unmanifested⟩
  · have h := fed.owned ho (.inr ⟨hair, hdoor⟩)
    obtain ⟨hatch, record, x, hx, hn⟩ := unnamedLeft_awaiting (s := withoutLabel l v) h.context hp hl
      ((h.findLabel l).trans hf) hh ((h.record j).trans hr)
    rw [← leftEffect_awaiting (h.leaves l) hp] at hatch record hx
    obtain ⟨custody, context⟩ := left_rests h hatch closed
    obtain ⟨z, hz, manifest, -⟩ := context x hx
    refine ⟨record.of_custody custody, z, hz, ?_⟩
    unfold Context.holds at hn ⊢
    rw [manifest]
    exact hn
  · have changed : y.phase ∈ [.loading, .collecting, .recall, .unloading, .loadingIn, .recallReturn] →
        Departed j (q.departedFrom y) t := fun hp => by
      have h := owned hp
      have hf' : findLabel v l = some j := (h.findLabel l).trans hf
      obtain ⟨hatch, r, hr', departed⟩ := unnamedLeft_changed (s := withoutLabel l v) h.context hf' hh ((h.record j).trans hr) hl
      rw [← leftEffect_unlisted (h.leaves l) (manifestRecord_unheld (s := withoutLabel l v) hf' hh)] at hatch hr'
      exact ⟨r, (record?_congr (left_rests h hatch closed).1 j).trans hr', departed⟩
    refine ⟨fun hp => ?_, fun hp => ?_⟩
    · simp only [List.mem_cons, List.not_mem_nil, or_false] at hp
      obtain ⟨r, hr', hstate, hplace, -⟩ := changed (by simp only [List.mem_cons, List.not_mem_nil, or_false]; tauto)
      rw [departedFrom_store q hp] at hstate hplace
      exact ⟨r, hr', hstate.trans (departed_state q), hplace.trans (hatchDeparted_location q)⟩
    · obtain ⟨r, hr', hstate, hplace, hcust⟩ :=
        changed (by simp only [List.mem_cons, List.not_mem_nil, or_false] at hp ⊢; tauto)
      rw [departedFrom_room q hp] at hstate hplace hcust
      refine ⟨r, hr', hplace, (hcust (blockedAt_isBlocked q .custodyConflict (.courier y.courier))).trans ?_, hstate⟩
      exact conflictAtCourier_custodian q y.courier

end Sys2Proof.Machine
end

section
/-! A whole HATCH snapshot heard by the owning context (R155): what one label does. -/

namespace Sys2Proof.Machine

variable {s t u v w : State} {c d i j k n : Nat} {x y z : Context} {q r : Record} {l m : Label} {ls ms : List Label}

/-! ## Labels name records (R51) -/

/-- Well-formed tables in which a label is one record's. -/
structure Labelled (s : State) : Prop where
  tables : TablesOk s
  unique : LabelsUnique s

theorem labelOf_iff : labelOf s k = some l ↔ ∃ r, s.record? k = some r ∧ r.label = l := Option.map_eq_some_iff

theorem labelOf_record (hr : s.record? k = some r) : labelOf s k = some r.label := labelOf_iff.mpr ⟨r, hr, rfl⟩

theorem labelOf_congr (h : t.record? k = s.record? k) : labelOf t k = labelOf s k := congrArg _ h

theorem Labelled.named (h : Labelled s) (hi : labelOf s i = some l) (hj : labelOf s j = some l) : i = j := by
  obtain ⟨r, hr, hrl⟩ := labelOf_iff.mp hi
  obtain ⟨q, hq, hql⟩ := labelOf_iff.mp hj
  exact h.unique i j r q hr hq (hrl.trans hql.symm)

theorem Labelled.findLabel_iff (h : Labelled s) : findLabel s l = some k ↔ labelOf s k = some l := by
  constructor
  · exact fun hf => labelOf_iff.mpr (findLabel_label h.tables hf)
  · intro hk
    obtain ⟨r, hr, hl⟩ := labelOf_iff.mp hk
    cases hf : findLabel s l with
    | some j => rw [h.named (labelOf_iff.mpr (findLabel_label h.tables hf)) hk]
    | none =>
      have unfound := List.find?_eq_none.mp (Option.map_eq_none_iff.mp hf) (k, r) (Table.mem_of_get? hr)
      exact absurd (beq_iff_eq.mpr hl) unfound

theorem Labelled.of_labels (h : Labelled s) (ht : TablesOk t) (hl : ∀ k, labelOf t k = labelOf s k) : Labelled t :=
  ⟨ht, fun i j _ q hr hq e => h.named (l := q.label) ((hl i).symm.trans (e ▸ labelOf_record hr))
    ((hl j).symm.trans (labelOf_record hq))⟩

theorem Labelled.findLabel_eq (h : Labelled s) (ht : Labelled t) (hl : ∀ k, labelOf t k = labelOf s k) (l : Label) :
    findLabel t l = findLabel s l := by
  refine Option.ext fun k => ?_
  rw [ht.findLabel_iff, h.findLabel_iff, hl]

/-! ## The lists of a context -/

theorem holds_iff : x.holds k = true ↔ k ∈ x.manifest.map (·.record) := by
  unfold Context.holds
  rw [List.any_eq_true, List.mem_map]
  simp only [beq_iff_eq]

theorem holds_congr (h : z.manifest.map (·.record) = x.manifest.map (·.record)) (k : Nat) : z.holds k = x.holds k := by
  rw [Bool.eq_iff_iff, holds_iff, holds_iff, h]

theorem marked_records (x : Context) (j : Nat) (taken : Bool) :
    (x.marked j taken).manifest.map (·.record) = x.manifest.map (·.record) := by
  unfold Context.marked
  rw [List.map_map]
  refine List.map_congr_left fun e _ => ?_
  rw [Function.comp_apply]
  split
  · next h => exact h.symm
  · rfl

theorem marked_others (x : Context) (taken : Bool) (h : k ≠ j) : (x.marked j taken).isTaken k = x.isTaken k := by
  unfold Context.marked Context.isTaken
  rw [List.any_map]
  congr 1
  funext e
  rw [Function.comp_apply]
  split
  · next he =>
    subst he
    rw [beq_eq_false_iff_ne.mpr h.symm, Bool.false_and, Bool.false_and]
  · rfl

theorem manifestRecord_held_iff : manifestRecord s x l = some j ↔ findLabel s l = some j ∧ x.holds j = true := by
  constructor
  · intro h
    unfold manifestRecord at h
    split at h
    · next i hi =>
      split at h
      · next hh =>
        cases h
        exact ⟨hi, hh⟩
      · cases h
    · cases h
  · exact fun ⟨hf, hh⟩ => manifestRecord_held hf hh

/-! ## What a label does -/

/-- What a label heard by the owner touches: not the hatch, not the node table. -/
def Allow.heeding : Allow := { Allow.all with hatch := False, nodes := False }

/-- The labels ls heard by owner c, x, that becomes z: the records of the other labels stand, in the manifest too, and no
more labels are rejected than ls holds that name no manifest record. -/
structure Heeds (c : Nat) (ls : List Label) (s : State) (x : Context) (t : State) (z : Context) : Prop where
  moves : Moves .heeding s t
  labels : ∀ k, labelOf t k = labelOf s k
  context : t.context? c = some z
  finish : z.finish = x.finish
  phase : z.phase = x.phase
  courier : z.courier = x.courier
  manifest : z.manifest.map (·.record) = x.manifest.map (·.record)
  rejected : ∀ m ∈ z.rejected, m ∈ x.rejected ∨ m ∈ ls
  room : z.rejected.length ≤ x.rejected.length + (ls.filter fun l => (manifestRecord s x l).isNone).length
  others : ∀ k r, s.record? k = some r → r.label ∉ ls → t.record? k = some r ∧ z.isTaken k = x.isTaken k

theorem Heeds.refl (hx : s.context? c = some x) : Heeds c ls s x s x :=
  ⟨.refl, fun _ => rfl, hx, rfl, rfl, rfl, rfl, fun _ => .inl, Nat.le_add_right .., fun _ _ hr _ => ⟨hr, rfl⟩⟩

theorem Heeds.labelled (h : Heeds c ls s x t z) (hs : Labelled s) : Labelled t :=
  hs.of_labels (h.moves.tablesOk hs.tables) h.labels

theorem Heeds.manifestRecord_eq (h : Heeds c ls s x t z) (hs : Labelled s) (m : Label) :
    manifestRecord t z m = manifestRecord s x m := by
  unfold manifestRecord
  rw [hs.findLabel_eq (h.labelled hs) h.labels]
  cases findLabel s m with
  | none => rfl
  | some k =>
    dsimp only
    rw [holds_congr h.manifest]

theorem Heeds.trans (hs : Labelled s) (h : Heeds c ls s x t y) (g : Heeds c ms t y u z) : Heeds c (ls ++ ms) s x u z where
  moves := h.moves.trans g.moves
  labels k := (g.labels k).trans (h.labels k)
  context := g.context
  finish := g.finish.trans h.finish
  phase := g.phase.trans h.phase
  courier := g.courier.trans h.courier
  manifest := g.manifest.trans h.manifest
  rejected m hm := by
    rw [List.mem_append]
    rcases g.rejected m hm with hm | hm
    · exact (h.rejected m hm).imp id .inl
    · exact .inr (.inr hm)
  room := by
    have second := g.room
    simp only [h.manifestRecord_eq hs] at second
    have first := h.room
    rw [List.filter_append, List.length_append]
    omega
  others k r hr hl := by
    rw [List.mem_append, not_or] at hl
    obtain ⟨hr', first⟩ := h.others k r hr hl.1
    obtain ⟨hr'', second⟩ := g.others k r hr' hl.2
    exact ⟨hr'', second.trans first⟩

/-- One label's record changed, and its label kept. -/
theorem Heeds.of_record (hs : Labelled s) (m : Moves .heeding s t) (hf : findLabel s l = some j)
    (label : labelOf t j = labelOf s j) (records : ∀ k, k ≠ j → t.record? k = s.record? k) (hz : t.context? c = some z)
    (same : z = { x with manifest := z.manifest, rejected := z.rejected })
    (manifest : z.manifest.map (·.record) = x.manifest.map (·.record))
    (taken : ∀ k, k ≠ j → z.isTaken k = x.isTaken k) (rejected : ∀ m ∈ z.rejected, m ∈ x.rejected ∨ m = l)
    (room : z.rejected.length ≤ x.rejected.length + ([l].filter fun l => (manifestRecord s x l).isNone).length) :
    Heeds c [l] s x t z where
  moves := m
  labels k := by
    by_cases hk : k = j
    · rw [hk, label]
    · exact labelOf_congr (records k hk)
  context := hz
  finish := by rw [same]
  phase := by rw [same]
  courier := by rw [same]
  manifest := manifest
  rejected m hm := (rejected m hm).imp id List.mem_singleton.mpr
  room := room
  others k r hr hl := by
    have hk : k ≠ j := by
      rintro rfl
      exact hl (List.mem_singleton.mpr (Option.some.inj ((labelOf_record hr).symm.trans (hs.findLabel_iff.mp hf))))
    exact ⟨(records k hk).trans hr, taken k hk⟩

/-! ## Staged records -/

/-- A claim to a state but BLOCKED and OUT is no other record's. -/
theorem claim_others {f : Record → Record} (who : Claimant) (i : Nat) (expected : Record → Bool) (s : State)
    (hb : ∀ r, (f r).state.isBlocked = false) (ho : ∀ r, (f r).state ≠ .out) (hk : k ≠ i) :
    (claim who i expected f s).record? k = s.record? k := by
  unfold claim
  split
  · rfl
  · next r hr =>
    split
    · have ordered : (if (f r).state ≠ r.state then orderTold who i (basicChange false i (f r) s)
          else basicChange false i (f r) s).custody = (basicChange false i (f r) s).custody := by
        split
        · exact orderTold_custody who (basicChange_record hr false (f r)) (hb r) (ho r)
        · rfl
      rw [changeRecord_eq hr]
      exact (tellOthers_others who r hk).trans ((record?_congr ordered k).trans ((basicChange_atRecord ..).others k hk))
    · rfl

/-- A manifest record marked and staged at a place. -/
def stagedBy (c j : Nat) (taken : Bool) (place : Location) (s : State) : State :=
  changePrompt c (claim (.handover c) j (fun _ => true) (fun r => r.stagedAt place) (markTaken c j taken s))

theorem stagedBy_heeds {taken : Bool} {place : Location} (hs : Labelled s) (hx : s.context? c = some x)
    (hm : manifestRecord s x l = some j) (moves : Moves .heeding s (stagedBy c j taken place s)) :
    Heeds c [l] s x (stagedBy c j taken place s) (x.marked j taken) ∧ RecordIs (stagedBy c j taken place s) j .staged place := by
  obtain ⟨hf, -⟩ := manifestRecord_held_iff.mp hm
  obtain ⟨r, hr, hl⟩ := findLabel_label hs.tables hf
  have acted : Acted c j (x.marked j taken) (r.stagedAt place) s (stagedBy c j taken place s) := by
    unfold stagedBy
    rw [markTaken_eq hx]
    exact acted_after (f := fun r => r.stagedAt place) hr (fun _ => .inl rfl) _
  have others : ∀ k, k ≠ j → (stagedBy c j taken place s).record? k = s.record? k := fun k hk => by
    unfold stagedBy
    rw [markTaken_eq hx]
    refine (record?_congr ((changePrompt_linkOnly c _).custody_eq id) k).trans ?_
    exact claim_others (s := putContext c (x.marked j taken) s) (f := fun r => r.stagedAt place) (.handover c) j _
      (fun _ => rfl) (fun _ => nofun) hk
  obtain ⟨q, hq, becomes⟩ := acted.record
  refine ⟨.of_record hs moves hf ?_ others acted.context rfl (marked_records ..) (fun k hk => marked_others x taken hk)
    (fun _ => .inl) (Nat.le_add_right ..), acted.recordIs⟩
  rw [labelOf_record hq, labelOf_record hr, becomes.label]
  rfl

/-- R157: a taken manifest record that is shown. -/
theorem putBack_heeds (hs : Labelled s) (hx : s.context? c = some x) (hm : manifestRecord s x l = some j) :
    Heeds c [l] s x (putBack c j s) (x.marked j false) ∧ RecordIs (putBack c j s) j .staged .hatch :=
  stagedBy_heeds hs hx hm (by apply putBack_moves c j .refl <;> trivial)

/-- R157: an untaken manifest record that is gone. -/
theorem takeOut_heeds (hs : Labelled s) (hx : s.context? c = some x) (hm : manifestRecord s x l = some j) (courier : Nat) :
    Heeds c [l] s x (takeOut c j courier s) (x.marked j true) ∧ RecordIs (takeOut c j courier s) j .staged (.courier courier) :=
  stagedBy_heeds hs hx hm (by apply takeOut_moves c j courier .refl <;> trivial)

/-- R154: a label that names no manifest record. -/
theorem unnamedEntered_heeds (hs : Labelled s) (hx : s.context? c = some x)
    (hnode : (findNode s.nodes .hatch).isSome = true) (hl : l ∉ x.rejected) (hm : manifestRecord s x l = none)
    (hroom : x.roomLeft) : Heeds c [l] s x (unnamedEntered c l s) { x with rejected := x.rejected ++ [l] } := by
  have rejects := unnamedEntered_rejects hx hnode hl hm hroom
  have moves : Moves .heeding s (unnamedEntered c l s) := by apply unnamedEntered_moves c l .refl <;> trivial
  have listed : ∀ m ∈ x.rejected ++ [l], m ∈ x.rejected ∨ m = l := fun m h =>
    (List.mem_append.mp h).imp id List.mem_singleton.mp
  have room : (x.rejected ++ [l]).length ≤
      x.rejected.length + ([l].filter fun l => (manifestRecord s x l).isNone).length := by
    simp [hm]
  cases hf : findLabel s l with
  | none =>
    have same : ∀ k, (unnamedEntered c l s).record? k = s.record? k := record?_congr (rejects.foreign hf).1
    exact ⟨moves, fun k => labelOf_congr (same k), rejects.context, rfl, rfl, rfl, rfl,
      fun m h => (listed m h).imp id List.mem_singleton.mpr, room, fun k r hr _ => ⟨(same k).trans hr, rfl⟩⟩
  | some j =>
    obtain ⟨q, hq, -⟩ := findLabel_label hs.tables hf
    refine .of_record hs moves hf ?_ (rejects.others j hf) rejects.context rfl rfl (fun _ _ => rfl) listed room
    obtain ⟨blocked, free⟩ := rejects.known j q hf hq
    cases hb : q.state.isBlocked with
    | false => exact labelOf_congr ((free hb).trans hq.symm)
    | true =>
      obtain ⟨r, hr, -, -, label⟩ := blocked hb
      rw [labelOf_record hr, labelOf_record hq, label]

end Sys2Proof.Machine
end

section
/-! A whole HATCH snapshot heard by the owning context (R155). -/

namespace Sys2Proof.Machine

variable {s t u v w : State} {c d i j k n code : Nat} {x y z : Context} {q r : Record} {l m : Label} {ls ms : List Label}
  {rep : Report}

/-! ## The two passes in COLLECTING -/

/-- Context c, x, collects at its hatch. -/
structure Collects (c : Nat) (x : Context) (s : State) : Prop where
  labelled : Labelled s
  owns : Owns c x s
  phase : x.phase = .collecting
  node : (findNode s.nodes .hatch).isSome = true

theorem Collects.refl (h : Collects c x s) : Heeds c ls s x s x := .refl h.owns.context

theorem Heeds.collects (h : Heeds c ls s x t z) (hc : Collects c x s) : Collects c z t where
  labelled := h.labelled hc.labelled
  owns := ⟨by rw [h.moves.hatch_eq id]; exact hc.owns.owner, h.context, h.finish.trans hc.owns.live⟩
  phase := h.phase.trans hc.phase
  node := by rw [h.moves.nodes_eq id]; exact hc.node

/-- R155: one label that is shown. -/
theorem snapshotShown_heeds (h : Collects c x s) (hl : l ∉ x.rejected) (hroom : x.roomFor s [l]) :
    ∃ z, Heeds c [l] s x (snapshotShown c l s) z ∧
      ∀ k, manifestRecord s x l = some k → x.isTaken k = true → RecordIs (snapshotShown c l s) k .staged .hatch := by
  unfold snapshotShown
  rw [h.owns.context]
  dsimp only
  cases hm : manifestRecord s x l with
  | none =>
    have room : x.roomLeft := by
      simp only [Context.roomFor, hm, List.filter_cons, List.filter_nil, Option.isNone_none, if_true,
        List.length_singleton] at hroom
      unfold Context.roomLeft
      omega
    exact ⟨_, unnamedEntered_heeds h.labelled h.owns.context h.node hl hm room, nofun⟩
  | some i =>
    dsimp only
    split
    · obtain ⟨heeds, staged⟩ := putBack_heeds h.labelled h.owns.context hm
      refine ⟨_, heeds, fun k hk _ => ?_⟩
      cases hk
      exact staged
    · next ht =>
      refine ⟨x, h.refl, fun k hk ht' => ?_⟩
      cases hk
      exact absurd ht' ht

theorem unlisted_cons (x : Context) (s : State) (l : Label) (ls : List Label) :
    ((l :: ls).filter fun l => (manifestRecord s x l).isNone).length =
      ([l].filter fun l => (manifestRecord s x l).isNone).length +
        (ls.filter fun l => (manifestRecord s x l).isNone).length := by
  rw [← List.length_append, ← List.filter_append, List.singleton_append]

/-- R155, the first pass: every taken manifest record that is shown is at HATCH. -/
theorem shown_heeds (ls : List Label) : ∀ (s : State) (x : Context), Collects c x s → ls.Nodup → (∀ l ∈ ls, l ∉ x.rejected) →
    x.roomFor s ls → ∃ z, Heeds c ls s x (ls.foldl (fun s l => snapshotShown c l s) s) z ∧
      ∀ k r, s.record? k = some r → r.label ∈ ls → x.isTaken k = true →
        RecordIs (ls.foldl (fun s l => snapshotShown c l s) s) k .staged .hatch := by
  induction ls with
  | nil => exact fun s x h _ _ _ => ⟨x, h.refl, fun _ _ _ hl => absurd hl List.not_mem_nil⟩
  | cons l ls ih =>
    intro s x h hn hrej hroom
    obtain ⟨hl, hn⟩ := List.nodup_cons.mp hn
    have count := unlisted_cons x s l ls
    unfold Context.roomFor at hroom
    obtain ⟨y, first, staged⟩ := snapshotShown_heeds h (hrej l List.mem_cons_self) (by unfold Context.roomFor; omega)
    have rejected : ∀ m ∈ ls, m ∉ y.rejected := fun m hm hy => by
      rcases first.rejected m hy with hx | hx
      · exact hrej m (List.mem_cons_of_mem _ hm) hx
      · exact hl (List.mem_singleton.mp hx ▸ hm)
    have room : y.roomFor (snapshotShown c l s) ls := by
      have listed := first.room
      have manifest := congrArg List.length first.manifest
      rw [List.length_map, List.length_map] at manifest
      unfold Context.roomFor
      simp only [first.manifestRecord_eq h.labelled]
      omega
    obtain ⟨z, rest, shown⟩ := ih _ y (first.collects h) hn rejected room
    refine ⟨z, first.trans h.labelled rest, fun k r hr hk ht => ?_⟩
    by_cases hkl : r.label = l
    · have named : manifestRecord s x l = some k := manifestRecord_held
        (h.labelled.findLabel_iff.mpr (hkl ▸ labelOf_record hr)) (holds_of_isTaken ht)
      obtain ⟨q, hq, is⟩ := staged k named ht
      have label : q.label = l := Option.some.inj <| calc
        some q.label = labelOf (snapshotShown c l s) k := (labelOf_record hq).symm
        _ = some l := by rw [first.labels k, labelOf_record hr, hkl]
      exact ⟨q, (rest.others k q hq (by rw [label]; exact hl)).1, is⟩
    · obtain ⟨hr', taken⟩ := first.others k r hr (by rwa [List.mem_singleton])
      exact shown k r hr' ((List.mem_cons.mp hk).resolve_left hkl) (taken.trans ht)

/-- R155, the second pass: untaken manifest records that are gone are with the courier. -/
theorem gone_heeds (ls : List Label) : ∀ (s : State) (x : Context), Collects c x s → ls.Nodup →
    (∀ l ∈ ls, ∃ k, manifestRecord s x l = some k ∧ x.isTaken k = false) →
    ∃ z, Heeds c ls s x (ls.foldl (fun s l => leftEffect c l s) s) z ∧
      ∀ k r, s.record? k = some r → r.label ∈ ls →
        RecordIs (ls.foldl (fun s l => leftEffect c l s) s) k .staged (.courier x.courier) := by
  induction ls with
  | nil => exact fun s x h _ _ => ⟨x, h.refl, fun _ _ _ hl => absurd hl List.not_mem_nil⟩
  | cons l ls ih =>
    intro s x h hn untaken
    obtain ⟨hl, hn⟩ := List.nodup_cons.mp hn
    obtain ⟨i, named, ht⟩ := untaken l List.mem_cons_self
    obtain ⟨first, staged⟩ := takeOut_heeds h.labelled h.owns.context named x.courier
    rw [List.foldl_cons, leftEffect_taking h.owns (.inl h.phase) named ht]
    have untaken' : ∀ m ∈ ls, ∃ k, manifestRecord (takeOut c i x.courier s) (x.marked i true) m = some k ∧
        (x.marked i true).isTaken k = false := fun m hm => by
      obtain ⟨k, hk, hkt⟩ := untaken m (List.mem_cons_of_mem _ hm)
      refine ⟨k, (first.manifestRecord_eq h.labelled m).trans hk, (marked_others x true ?_).trans hkt⟩
      rintro rfl
      have e := (h.labelled.findLabel_iff.mp (manifestRecord_held_iff.mp hk).1).symm.trans
        (h.labelled.findLabel_iff.mp (manifestRecord_held_iff.mp named).1)
      exact hl (Option.some.inj e ▸ hm)
    obtain ⟨z, rest, gone⟩ := ih _ _ (first.collects h) hn untaken'
    refine ⟨z, first.trans h.labelled rest, fun k r hr hk => ?_⟩
    by_cases hkl : r.label = l
    · cases h.labelled.named (labelOf_record hr)
        (hkl ▸ h.labelled.findLabel_iff.mp (manifestRecord_held_iff.mp named).1)
      obtain ⟨q, hq, is⟩ := staged
      have label : q.label = l := Option.some.inj <| calc
        some q.label = labelOf (takeOut c i x.courier s) i := (labelOf_record hq).symm
        _ = some l := by rw [first.labels i, labelOf_record hr, hkl]
      exact ⟨q, (rest.others i q hq (by rw [label]; exact hl)).1, is⟩
    · obtain ⟨hr', -⟩ := first.others k r hr (by rwa [List.mem_singleton])
      exact gone k r hr' ((List.mem_cons.mp hk).resolve_left hkl)

/-! ## The records that the snapshot does not show -/

/-- The label of record k at HATCH, where the labels ls do not show it. -/
def goneLabel (s : State) (ls : List Label) (k : Nat) : Option Label :=
  match s.record? k with
  | some r => if r.location = .hatch ∧ !ls.contains r.label then some r.label else none
  | none => none

/-- The labels of the manifest records at HATCH that are not shown. -/
def goneLabels (x : Context) (s : State) (ls : List Label) : List Label :=
  x.manifest.filterMap fun e => goneLabel s ls e.record

/-- The records at HATCH that are neither shown nor in the lists of context c. -/
def strays (c : Nat) (ls : List Label) (s : State) : List Nat :=
  (recordsWhere s fun r => r.location == .hatch && !ls.contains r.label).filter fun i =>
    match labelOf s i with
    | some l =>
      !(match s.context? c with
        | some y => y.holds i || y.rejected.contains l
        | none => false)
    | none => false

theorem contextSnapshot_eq (hx : liveContext? (ls.foldl (fun s l => snapshotShown c l s) s) c = some x) :
    contextSnapshot c ls s =
      let w := ls.foldl (fun s l => snapshotShown c l s) s
      let w := (goneLabels x w ls ++ x.rejected.filter fun l => !ls.contains l).foldl (fun s l => leftEffect c l s) w
      testPhase c ((strays c ls w).foldl (fun s i => markMissing (.handover c) i s) w) := by
  unfold contextSnapshot
  dsimp only
  rw [hx]
  exact rfl

theorem goneLabel_iff : goneLabel s ls k = some l ↔
    ∃ r, s.record? k = some r ∧ r.location = .hatch ∧ r.label ∉ ls ∧ r.label = l := by
  unfold goneLabel
  cases s.record? k with
  | none => simp
  | some r => simp [and_assoc]

theorem mem_goneLabels : l ∈ goneLabels x s ls ↔
    ∃ k r, x.holds k = true ∧ s.record? k = some r ∧ r.location = .hatch ∧ r.label ∉ ls ∧ r.label = l := by
  unfold goneLabels
  rw [List.mem_filterMap]
  constructor
  · rintro ⟨e, he, hl⟩
    obtain ⟨r, hr⟩ := goneLabel_iff.mp hl
    exact ⟨e.record, r, holds_iff.mpr (List.mem_map_of_mem he), hr⟩
  · rintro ⟨k, r, hk, hr⟩
    obtain ⟨e, he, rfl⟩ := List.mem_map.mp (holds_iff.mp hk)
    exact ⟨e, he, goneLabel_iff.mpr ⟨r, hr⟩⟩

theorem goneLabels_nodup (hs : Labelled s) (hn : (x.manifest.map (·.record)).Nodup) : (goneLabels x s ls).Nodup := by
  have e : goneLabels x s ls = (x.manifest.map (·.record)).filterMap (goneLabel s ls) := by
    rw [List.filterMap_map]
    exact rfl
  rw [e]
  refine hn.filterMap fun i j l hi hj => ?_
  obtain ⟨r, hr, -, -, hrl⟩ := goneLabel_iff.mp hi
  obtain ⟨q, hq, -, -, hql⟩ := goneLabel_iff.mp hj
  exact hs.unique i j r q hr hq (hrl.trans hql.symm)

theorem mem_strays (hs : TablesOk s) (hx : s.context? c = some x) : j ∈ strays c ls s ↔
    ∃ r, s.record? j = some r ∧ r.location = .hatch ∧ r.label ∉ ls ∧ x.holds j = false ∧ r.label ∉ x.rejected := by
  unfold strays
  rw [List.mem_filter, hs.mem_recordsWhere, hx]
  constructor
  · rintro ⟨⟨r, hr, hp⟩, hj⟩
    rw [labelOf_record hr] at hj
    simp only [Bool.and_eq_true, beq_iff_eq, Bool.not_eq_true', Bool.or_eq_false_iff, List.contains_eq_mem,
      decide_eq_false_iff_not] at hp hj
    exact ⟨r, hr, hp.1, hp.2, hj⟩
  · rintro ⟨r, hr, hl, hls, hj⟩
    rw [labelOf_record hr]
    simp only [Bool.and_eq_true, beq_iff_eq, Bool.not_eq_true', Bool.or_eq_false_iff, List.contains_eq_mem,
      decide_eq_false_iff_not]
    exact ⟨⟨r, hr, hl, hls⟩, hj⟩

/-! ## COLLECTING -/

theorem testPhase_quiet (hx : s.context? c = some x) (hp : x.phase = .loading ∨ x.phase = .collecting) :
    testPhase c s = s := by
  unfold testPhase
  split
  · rfl
  · next y hy =>
    cases hx.symm.trans (liveContext?_iff.mp hy).1
    rcases hp with hp | hp
    · rw [hp]
    · rw [hp]

/-- R155: a snapshot in COLLECTING, where at HATCH there lie untaken manifest records only. -/
theorem contextSnapshot_collecting (h : Collects c x s) (hn : ls.Nodup) (hrej : x.rejected = []) (hroom : x.roomFor s ls)
    (untaken : ∀ k r, s.record? k = some r → r.location = .hatch → x.holds k = true ∧ x.isTaken k = false)
    (hnodup : (x.manifest.map (·.record)).Nodup) :
    (contextSnapshot c ls s).hatch = s.hatch ∧ ∀ j q, s.record? j = some q → x.holds j = true →
      (x.isTaken j = true → q.label ∈ ls → RecordIs (contextSnapshot c ls s) j .staged .hatch) ∧
      (q.location = .hatch → q.label ∉ ls → RecordIs (contextSnapshot c ls s) j .staged (.courier x.courier)) := by
  obtain ⟨y, first, shown⟩ := shown_heeds ls s x h hn (by rw [hrej]; exact fun _ _ => List.not_mem_nil) hroom
  have collects := first.collects h
  rw [contextSnapshot_eq collects.owns.live?]
  dsimp only
  generalize ls.foldl (fun s l => snapshotShown c l s) s = v at first shown collects
  have unshown : ∀ k r, v.record? k = some r → r.label ∉ ls →
      s.record? k = some r ∧ y.isTaken k = x.isTaken k := fun k r hr hl => by
    obtain ⟨q, hq, label⟩ := labelOf_iff.mp ((first.labels k).symm.trans (labelOf_record hr))
    obtain ⟨hq', taken⟩ := first.others k q hq (by rw [label]; exact hl)
    cases hr.symm.trans hq'
    exact ⟨hq, taken⟩
  have kept : (y.rejected.filter fun l => !ls.contains l) = [] := List.filter_eq_nil_iff.mpr fun l hl => by
    have listed := (first.rejected l hl).resolve_left (by rw [hrej]; exact List.not_mem_nil)
    simpa using listed
  have gone : ∀ l ∈ goneLabels y v ls, ∃ k, manifestRecord v y l = some k ∧ y.isTaken k = false := fun l hl => by
    obtain ⟨k, r, hk, hr, hplace, hls, rfl⟩ := mem_goneLabels.mp hl
    obtain ⟨hr', taken⟩ := unshown k r hr hls
    exact ⟨k, manifestRecord_held (collects.labelled.findLabel_iff.mpr (labelOf_record hr)) hk,
      taken.trans (untaken k r hr' hplace).2⟩
  rw [kept, List.append_nil]
  obtain ⟨z, second, left⟩ := gone_heeds _ v y collects
    (goneLabels_nodup collects.labelled (by rw [first.manifest]; exact hnodup)) gone
  have collects' := second.collects collects
  generalize hu : (goneLabels y v ls).foldl (fun s l => leftEffect c l s) v = u at second left collects'
  have all : strays c ls u = [] := List.eq_nil_iff_forall_not_mem.mpr fun k hk => by
    obtain ⟨r, hr, hplace, hls, hz, -⟩ := (mem_strays collects'.labelled.tables collects'.owns.context).mp hk
    rw [holds_congr second.manifest] at hz
    obtain ⟨q, hq, label⟩ := labelOf_iff.mp ((second.labels k).symm.trans (labelOf_record hr))
    have fresh : q.label ∉ goneLabels y v ls := fun hm => by
      obtain ⟨i, p, hi, hp, -, -, e⟩ := mem_goneLabels.mp hm
      cases collects.labelled.named (labelOf_record hq) (e ▸ labelOf_record hp)
      rw [hz] at hi
      cases hi
    obtain ⟨hq', -⟩ := second.others k q hq fresh
    cases hr.symm.trans hq'
    obtain ⟨hs, -⟩ := unshown k r hq hls
    rw [holds_congr first.manifest, (untaken k r hs hplace).1] at hz
    cases hz
  rw [all, List.foldl_nil, testPhase_quiet collects'.owns.context (.inr collects'.phase)]
  refine ⟨(second.moves.hatch_eq id).trans (first.moves.hatch_eq id), fun j q hq hj => ⟨fun ht hl => ?_, fun hplace hl => ?_⟩⟩
  · obtain ⟨r, hr, is⟩ := shown j q hq hl ht
    have label : r.label = q.label :=
      Option.some.inj ((labelOf_record hr).symm.trans ((first.labels j).trans (labelOf_record hq)))
    refine ⟨r, (second.others j r hr fun hm => ?_).1, is⟩
    obtain ⟨_, _, _, _, _, hls, e⟩ := mem_goneLabels.mp hm
    exact hls (by rw [e, label]; exact hl)
  · obtain ⟨hq', -⟩ := first.others j q hq hl
    rw [← first.courier]
    exact left j q hq' (mem_goneLabels.mpr ⟨j, q, by rw [holds_congr first.manifest]; exact hj, hq', hplace, hl, rfl⟩)

/-! ## LOADING -/

/-- R155: an empty snapshot in LOADING, where the lists are empty. -/
theorem contextSnapshot_loading (hs : TablesOk s) (hx : s.context? c = some x) (hl : x.finish = none)
    (hp : x.phase = .loading) (hm : x.manifest = []) (hr : x.rejected = []) :
    (contextSnapshot c [] s).hatch = s.hatch ∧ ∀ j q, s.record? j = some q → q.location = .hatch →
      RecordIs (contextSnapshot c [] s) j (if q.state.isBlocked then q.state else .blocked .missing) .unknown := by
  have none : (goneLabels x s [] ++ x.rejected.filter fun l => !([] : List Label).contains l) = [] := by
    rw [goneLabels, hm, hr]
    rfl
  have e : contextSnapshot c [] s =
      testPhase c ((strays c [] s).foldl (fun s i => markMissing (.handover c) i s) s) := by
    rw [contextSnapshot_eq (s := s) (ls := []) (liveContext?_eq hx hl)]
    dsimp only [List.foldl_nil]
    rw [none]
    rfl
  have mem : ∀ j q, s.record? j = some q → q.location = .hatch → j ∈ strays c [] s := fun j q hq hplace =>
    (mem_strays hs hx).mpr ⟨q, hq, hplace, List.not_mem_nil, by rw [Context.holds, hm]; rfl, by rw [hr]; exact List.not_mem_nil⟩
  have moves : Moves .heeding s ((strays c [] s).foldl (fun s i => markMissing (.handover c) i s) s) := by
    refine Moves.foldl _ (fun i u hu => ?_) .refl
    apply markMissing_moves _ _ hu <;> trivial
  obtain ⟨y, hy, persists⟩ := Persist.foldl (strays c [] s) (f := fun s i => markMissing (.handover c) i s)
    (fun i u => claim_persist (.handover c) i _ _ u) s c x hx
  rw [e, testPhase_quiet hy (.inl (persists.phase.trans hp))]
  exact ⟨moves.hatch_eq id, fun j q hq hplace => (markMissing_misses (.handover c)).all_in _ s q (mem j q hq hplace) hq
    (fun d hd => by rw [hplace] at hd; cases hd)⟩

/-! ## What was heard -/

/-- A snapshot that leaves the owner its hatch. -/
theorem snapshot_rests (h : Owning c y s v)
    (hw : (contextSnapshot c ls (withLabels ls v)).hatch = (withLabels ls v).hatch)
    (closed : Closed (hatchSnapshot ls v) t) : t.custody = (contextSnapshot c ls (withLabels ls v)).custody := by
  rw [hatchSnapshot_eq] at closed
  exact (heard_rests (f := fun c => contextSnapshot c ls) (s := withLabels ls v) h.owner
    (.refl (.inl (by rw [hw]; exact h.owner))) closed).1

/-- R155: an empty snapshot heard in LOADING. -/
theorem snapshot_loading (fed : Fed rep code s v) (howner : s.hatch.owner = .context c) (hlive : liveContext? s c = some y)
    (hreport : readState .hatch rep.state = s.hatch.report.map NodeState.hatch) (hp : y.phase = .loading)
    (hm : y.manifest = []) (hrej : y.rejected = []) (hs : TablesOk s) (closed : Closed (hatchSnapshot [] v) t)
    (hr : s.record? j = some q) (hl : q.location = .hatch) :
    RecordIs t j (if q.state.isBlocked then q.state else .blocked .missing) .unknown := by
  have h := fed.undisturbed howner hlive hreport (.inl (unyielding_of_mem (by rw [hp]; simp)))
  obtain ⟨hatch, missing⟩ := contextSnapshot_loading (s := withLabels [] v) (fed.tables hs) h.context h.live hp hm hrej
  exact (missing j q ((h.record j).trans hr) hl).of_custody (snapshot_rests h hatch closed)

/-- R155: a snapshot heard in COLLECTING. -/
theorem snapshot_heard (fed : Fed rep code s v) (hs : TablesOk s) (ho : OwnerHears s c y rep) (hn : ls.Nodup)
    (closed : Closed (hatchSnapshot ls v) t) : HeardSnapshot s t y ls := by
  intro hp hrej hroom hunique untaken hnodup j q hr hh
  have h := fed.owned ho (.inl (unyielding_of_mem (by rw [hp]; simp)))
  have labelled : Labelled (withLabels ls v) := ⟨fed.tables hs, fun i j r q hi hj =>
    hunique i j r q ((h.record i).symm.trans hi) ((h.record j).symm.trans hj)⟩
  have collects : Collects c y (withLabels ls v) := ⟨labelled, ⟨h.owner, h.context, h.live⟩, hp, h.node⟩
  have listed : ∀ l, manifestRecord (withLabels ls v) y l = manifestRecord s y l := fun l => by
    unfold manifestRecord
    rw [show findLabel (withLabels ls v) l = findLabel s l from h.findLabel l]
  have room : y.roomFor (withLabels ls v) ls := by
    unfold Context.roomFor at hroom ⊢
    simp only [listed]
    exact hroom
  obtain ⟨hatch, records⟩ := contextSnapshot_collecting collects hn hrej room
    (fun k r hk => untaken k r ((h.record k).symm.trans hk)) hnodup
  obtain ⟨shown, gone⟩ := records j q ((h.record j).trans hr) hh
  have custody := snapshot_rests h hatch closed
  exact ⟨fun ht hl => (shown ht hl).of_custody custody, fun _ hplace hl => (gone hplace hl).of_custody custody⟩

end Sys2Proof.Machine
end

section
/-! The timers of the hatch, and the reports and reader events of its node (R61, R132, R135 to R144, R154 to R164). -/

namespace Sys2Proof.Machine

variable {s t u v w : State} {c d i j k n code : Nat} {x y z : Context} {q r : Record} {l : Label} {es : List SnapEntry}
  {rep : Report}

/-- R61, R136, R154: an ENTERED event, by whoever hears it. -/
theorem entered_told (fed : Fed rep code s v) (closed : Closed (hatchEntered l v) t) :
    t.hatch.contents = (if l ∈ s.hatch.contents ∨ 24 ≤ s.hatch.contents.length then s.hatch.contents
      else s.hatch.contents ++ [l]) ∧
    (∀ j q, NoContext s → findLabel s l = some j → s.record? j = some q → (q.location = .inHand ∨ q.location = .unknown) →
      RecordIs t j (if q.state.isBlocked then q.state else .blocked .custodyConflict) .hatch) ∧
    (∀ c y, OwnerHears s c y rep → HeardEntered s t c y l) := by
  refine ⟨?_, fun j q hn hf hr hl => ?_, fun c y ho => entered_heard fed ho closed⟩
  · rw [closed.hatch, hatchEntered_contents, fed.contents]
  · obtain ⟨unowned, custody⟩ := fed.unowned hn
    exact closed.recordIs (entered_unowned unowned ((findLabel_congr custody l).trans hf) ((record?_congr custody j).trans hr) hl)

/-- R61, R136, R154: a LEFT event, by whoever hears it. -/
theorem left_told (fed : Fed rep code s v) (closed : Closed (hatchLeft l v) t) :
    t.hatch.contents = s.hatch.contents.filter (· != l) ∧
    (∀ j q, NoContext s → findLabel s l = some j → s.record? j = some q → q.location = .hatch →
      RecordIs t j q.hatchDeparted.state .inHand) ∧
    (∀ c y, OwnerHears s c y rep → HeardLeft s t c y l) := by
  refine ⟨?_, fun j q hn hf hr hl => ?_, fun c y ho => left_heard fed ho closed⟩
  · rw [closed.hatch, hatchLeft_contents, fed.contents]
  · obtain ⟨unowned, custody⟩ := fed.unowned hn
    exact closed.recordIs (left_unowned unowned ((findLabel_congr custody l).trans hf) ((record?_congr custody j).trans hr) hl)

/-- R63, R137, R155: a record that a whole snapshot does not show, where it is heard by the Custody Table or in LOADING. -/
theorem snapshot_missing (fed : Fed rep code s v) (closed : Closed (hatchSnapshot (es.map (·.label)) v) t) (hs : TablesOk s)
    (hr : s.record? j = some q) (hl : q.location = .hatch) (hidden : q.label ∉ es.map (·.label))
    (heard : NoContext s ∨ ∃ c y, s.hatch.owner = .context c ∧ liveContext? s c = some y ∧ y.phase = .loading ∧
      y.manifest = [] ∧ y.rejected = [] ∧ es = [] ∧ readState .hatch rep.state = s.hatch.report.map NodeState.hatch) :
    RecordIs t j (if q.state.isBlocked then q.state else .blocked .missing) .unknown := by
  rcases heard with hn | ⟨c, y, howner, hlive, hp, hm, hrej, rfl, hreport⟩
  · obtain ⟨unowned, custody⟩ := fed.unowned hn
    exact closed.recordIs (snapshot_unowned unowned (fed.tables hs) ((record?_congr custody j).trans hr) hl hidden)
  · exact snapshot_loading fed howner hlive hreport hp hm hrej hs closed hr hl

end Sys2Proof.Machine

namespace Sys2Proof

open Machine

/-- Settles O43, by what each timer of the hatch does, and for each report of its node by who hears the reader: the
Custody Table where no context owns or awaits the hatch, else the owning context in its phase. -/
theorem hatchTimersExpire : Obligations.HatchTimersExpire := by
  intro s hup
  refine ⟨fun run m hp hm => ⟨fun ht => ?_, fun ht => ?_⟩, fun run hp => ?_, fun hretry => ?_, fun hdwell htables => ?_,
    fun x i n report r hvalid hg => ⟨fun q hq => ?_, fun l hb => ?_, fun l hb => ?_, fun es hb hnodup hlen => ?_⟩⟩
  · have test : ¬purgeTest (startEvent s) = true := by
      rw [show purgeTest (startEvent s) = false from ht]
      exact Bool.false_ne_true
    have expired := purgeMinExpired_eq (s := startEvent s) hp hm
    rw [if_neg test] at expired
    exact takes_event (f := purgeMinExpired) hup expired
  · have test : purgeTest (startEvent s) = true := ht
    have expired := purgeMinExpired_eq (s := startEvent s) hp hm
    rw [if_pos test] at expired
    obtain ⟨layout, rest⟩ := (purgeComplete_purging ((startEvent s).withHatch
      { (startEvent s).hatch with purge := some { run with minTimer := none } })).purging
    have air := purgeComplete_air ((startEvent s).withHatch
      { (startEvent s).hatch with purge := some { run with minTimer := none } })
    exact ⟨_, takes_event (f := purgeMinExpired) hup expired, air, (startEvent_keepsLayout s).trans layout, rest⟩
  · obtain ⟨moves, air⟩ := purgeMaxExpired_spec (s := startEvent s) hp
    obtain ⟨layout, fire, climate⟩ := moves.purging
    exact ⟨_, takes_event (f := purgeMaxExpired) hup rfl, (startEvent_keepsLayout s).trans layout, fire, climate, air⟩
  · exact takes_event (f := retryExpired) hup (retryExpired_eq (s := startEvent s) hretry)
  · obtain ⟨hatch, records, layout, notice, frame⟩ := wetDwellExpired_spec (s := startEvent s) hdwell htables
    exact ⟨_, takes_event (f := wetDwellExpired) hup rfl, hatch, records, (startEvent_keepsLayout s).trans layout, notice, frame⟩
  · exact report_hatch hvalid hg hq
  · obtain ⟨v, t, takes, fed, closed⟩ := report_reader hvalid hg hb
    exact ⟨t, takes, entered_told fed closed⟩
  · obtain ⟨v, t, takes, fed, closed⟩ := report_reader hvalid hg hb
    obtain ⟨contents, departed, heard⟩ := left_told fed closed
    refine ⟨t, takes, contents, fun j q hn hf hr hl => ?_, heard⟩
    have left := departed j q hn hf hr hl
    rw [departed_state] at left
    exact left
  · obtain ⟨v, t, takes, fed, closed⟩ := report_readerSnapshot hvalid hg hb
    refine ⟨t, takes, ?_, fun j q hs hr hl hidden heard => snapshot_missing fed closed hs hr hl hidden heard,
      fun c y hs ho => snapshot_heard fed hs ho hnodup closed⟩
    rw [closed.hatch, hatchSnapshot_contents hnodup (by rw [List.length_map]; exact hlen)]

end Sys2Proof

end
